-- ==== Sys2Proof/Word.lean ====
section
/-! DEFINITION. The word types of the AE32 model and the type of its sparse tables. -/

namespace Sys2Proof

/-- A register is 32 bits wide (R9). -/
abbrev Word := BitVec 32

/-- One byte of memory, of a packet or of a record; multi-byte fields are little-endian (R8). -/
abbrev Byte := BitVec 8

/-- An FP32 value as its bit pattern (R32). -/
abbrev F32 := BitVec 32

/-- A sparse table: (key, value) pairs, keys strictly rising; a key that is not listed holds the
table's default value. `Machine/Ops.lean` keeps the form (`Tbl.wf`). -/
abbrev Tbl (α : Type) := List (Nat × α)

end Sys2Proof
end

