-- ==== Sys2Proof/Syntax.lean ====
section
/-! DEFINITION. The commands of the AE32: `Instr`, one constructor per row of the opcode table, and the operand
types of the rows. -/

namespace Sys2Proof

/-- A hardware error met while a core instruction or the scrubber reads a store (R93, R105): none, a corrected
error in a bank, an uncorrectable error at a line, or a parity error of the engine. -/
inductive CoreHw where
  | ok
  | ce (bank : Nat)
  | ue (line : Nat)
  | parity
  /-- TE_OUT: residue mismatch; VE_SFU: parity error of a special-function table -/
  | second
  deriving DecidableEq, Repr

/-- One lane of an attention layer (R181): its core, the line of its lane table and, for the fused command, of its
walk area. -/
structure Lane where
  core : Nat
  table : Nat
  walk : Nat
  deriving DecidableEq, Repr

/-- One attention layer, as the catalogue meets it when the layer's lanes fire (R170, R181). The bundle's layout gives
no place for the lane sets, the query heads per KV head, the causal flag or the K and V rows that a layer appends, so
they are operands (log 14). -/
structure AttnLayer where
  layer : Nat
  group : Nat
  causal : Bool
  lanes : List Lane
  /-- per step entry: K and V of its new positions, position by position, as one shelf position holds them -/
  kv : List (List Byte)
  deriving DecidableEq, Repr

/-- A unit that the fault manager fences (R143). -/
inductive FenceUnit where
  | core (c : Fin 32)
  | cluster (c : Fin 8)
  | die (d : Fin 4)
  deriving DecidableEq, Repr

/-- What the code of an HBM word finds at a read (R199, R200). -/
inductive HbmHw where
  | ok | ce | ue
  deriving DecidableEq, Repr

/-- What a remote cache finds at a hit (R212): nothing, a single-bit error, a double-bit error, a tag parity error. -/
inductive RcHw where
  | ok | ce | ue | tag
  deriving DecidableEq, Repr

/-- A message of the on-die network (R216): the header of its first flit, whether it is a read, the device address of its
64 B unit, and its payload of 64 B per flit. The manual fixes no code for a read and no place for the address, so they
stand beside the header (log 23). -/
structure NetMsg where
  header : BitVec 64
  read : Bool
  addr : Nat
  payload : List Byte
  deriving DecidableEq, Repr

/-- How a packet reaches the front end (R245, R250): intact, with a header or a payload that arrived poisoned or timed out, or
as a request that the window check stopped. -/
inductive FetchHw where
  | ok | badHeader | badPayload | window
  deriving DecidableEq, Repr

/-- What a CSI-2 packet header carries at a port (R280): intact, one bit corrected, or two bits detected. -/
inductive EccHw where
  | ok | ce | ue
  deriving DecidableEq, Repr

/-- What the SEC-DED or parity of the intake finds (R303). -/
inductive IntakeHw where
  | ok | ce | ue
  deriving DecidableEq, Repr

/-- What of the prism a register enables (R345): a camera, a point stream, or the bird's-eye output. -/
inductive PrismUnit where
  | camera (c : Fin 16)
  | points (l : Fin 4)
  | bev
  deriving DecidableEq, Repr

/-- The configuration block of an LNF image, in a lantern's own flash (R410, R414, R415): fault gap and outage limit in ms, the
deceleration of the stop profile in cm/s², the CAN FD base identifier. -/
structure LnfConfig where
  gapMs : Nat := 150
  outageMs : Nat := 3000
  decel : Nat := 200
  canBase : Nat := 0x640
  deriving DecidableEq, Repr

/-- What a lantern's own checks find (R384): the two cores differ, an uncorrectable or a corrected SRAM error. -/
inductive LanternHw where
  | mismatch | sramUe | sramCe
  deriving DecidableEq, Repr

/-- What bring-up finds on one die-to-die link (R230, R233): its trained-width word, and whether it is fenced because the words differ or
because no word came. -/
structure LinkHw where
  width : BitVec 32 := 0xFF
  mismatch : Bool := false
  silent : Bool := false
  deriving DecidableEq, Repr

/-- What HBM training finds on one stack (R208, R209): whether step 1 passes, its height, interleave sets with an untrained channel,
lanes remapped, and rows that fail the march test (stack offsets) with whether the stack has a spare row for each. -/
structure StackHw where
  ok : Bool := true
  height : Nat := 8
  badSets : List (Fin 8) := []
  laneRepairs : Nat := 0
  badRows : List (Nat × Bool) := []
  deriving DecidableEq, Repr

/-- What a cold boot or a warm restart finds (R422, R425): the reference clocks, the PRIMARY strap, the hubs whose firmware announces
itself, image kinds that fail R482 as they are read, the FACTORY calibration, a port whose role words differ, an odd die, the lowest
feature level, the links T0–T1, T2–T3, T0–T2, T1–T3, H0–T0, H0–T1, H1–T2, H1–T3, the stacks, the checker that fails SAFETY_BIST, and
rate and width of each PCIe link that trains. -/
structure BootHw where
  clocks : Bool := true
  primary : Bool := false
  firmware : List (Fin 2) := [0, 1]
  refused : List Nat := []
  calOk : Bool := true
  roleBad : Option (Fin 6 × Fin 3) := none
  oddDie : Option (Fin 6) := none
  feature : Nat := 1
  links : List LinkHw := []
  stackHw : List StackHw := []
  bist : Option Nat := none
  pcie : List (Option (Nat × Nat)) := []
  deriving DecidableEq, Repr

/-- What the management port receives (R476): an ARP request for an address, an ICMP echo request, or a UDP datagram. -/
inductive MgmtDatagram where
  | arp (sender target : Nat)
  | echo (src dst : Nat) (data : List Byte)
  | udp (src srcPort dst dstPort : Nat) (data : List Byte)
  deriving DecidableEq, Repr


/-- The commands of the block: one constructor per row of the opcode table. -/
inductive Instr where
  /-- REGISTER_WRITE (R11). A host or management write to a register that has no row of its own takes effect according to its access type (RW, RWL, W1C, RWS). -/
  | registerWrite (mgmt : Bool) (hub : Fin 2) (offset : Nat) (value : BitVec 32)
  /-- REG_ACCESS_BAD (R9). A register access of the wrong width or alignment completes without effect and logs REG_ACCESS_BAD. -/
  | regAccessBad (hub : Fin 2) (offset width : Nat) (write : Bool)
  /-- HIF_ERR_SUMMARY_READ (R275). A read of HIF_ERR_SUMMARY returns the summary and clears the restarted bit. -/
  | hifErrSummaryRead (hub : Fin 2)
  /-- HIF_SETUP_LOCK (R251). Writing 0x0000_4C4B to HIF_SETUP_LOCK locks every RWL register of the package until a warm or power-on reset. -/
  | hifSetupLock (hub : Fin 2) (value : BitVec 32)
  /-- TE_WLOAD (R73). The tensor engine loads a weight tile record into its loading weight set. -/
  | teWload (core : Fin 32) (hw : CoreHw)
  /-- TE_XLOAD (R78). The tensor engine loads 128 K rows of a code or 8-bit dense record expanded to BF16. -/
  | teXload (core : Fin 32) (hw : CoreHw)
  /-- TE_MMA (R76). The tensor engine runs MAC-mode passes of M activation rows into an accumulator bank. -/
  | teMma (core : Fin 32) (hw : CoreHw)
  /-- TE_TMA (R77). The tensor engine runs table-mode lookup-add passes of M rows using codebook product tables. -/
  | teTma (core : Fin 32) (hw : CoreHw)
  /-- TE_OUT (R79). The tensor engine drains M accumulator rows through the output stage and converts them to the output format. -/
  | teOut (core : Fin 32) (hw : CoreHw)
  /-- TE_ACLR (R76). The tensor engine sets M accumulator rows to +0.0 with FP32 tag and clear wrap marks. -/
  | teAclr (core : Fin 32) (hw : CoreHw)
  /-- VE_ADD (R102). The vector engine adds two operands element-wise. -/
  | veAdd (core : Fin 32) (hw : CoreHw)
  /-- VE_SUB (R102). The vector engine subtracts two operands element-wise. -/
  | veSub (core : Fin 32) (hw : CoreHw)
  /-- VE_MUL (R102). The vector engine multiplies two operands element-wise. -/
  | veMul (core : Fin 32) (hw : CoreHw)
  /-- VE_FMA (R102). The vector engine forms a × b + o with one rounding. -/
  | veFma (core : Fin 32) (hw : CoreHw)
  /-- VE_MAX (R102). The vector engine takes the element-wise maximum. -/
  | veMax (core : Fin 32) (hw : CoreHw)
  /-- VE_MIN (R102). The vector engine takes the element-wise minimum. -/
  | veMin (core : Fin 32) (hw : CoreHw)
  /-- VE_CVT (R81). The vector engine converts elements by R36 or expands weights with scales by R64. -/
  | veCvt (core : Fin 32) (hw : CoreHw)
  /-- VE_BCAST (R102). The vector engine multiplies each row of a by the single row at b. -/
  | veBcast (core : Fin 32) (hw : CoreHw)
  /-- VE_SEL (R102). The vector engine selects a where b is positive, else a constant. -/
  | veSel (core : Fin 32) (hw : CoreHw)
  /-- VE_RSUM (R51). The vector engine reduces each row to its sum in the fixed tree order. -/
  | veRsum (core : Fin 32) (hw : CoreHw)
  /-- VE_RMAX (R102). The vector engine reduces each row to its maximum. -/
  | veRmax (core : Fin 32) (hw : CoreHw)
  /-- VE_SFU (R82). The special-function unit computes exp2, log2, reciprocal, rsqrt, tanh or sigmoid. -/
  | veSfu (core : Fin 32) (hw : CoreHw)
  /-- AP_QLOAD (R83). The attention pipeline loads query rows into its row buffer. -/
  | apQload (core : Fin 32) (hw : CoreHw)
  /-- AP_PASS (R178). The attention pipeline pins the sequence's shelves and streams key and value blocks through its arrays. -/
  | apPass (core : Fin 32) (hw : CoreHw)
  /-- AP_OUT (R102). The attention pipeline writes output rows divided by the running sum and releases its pins. -/
  | apOut (core : Fin 32) (hw : CoreHw)
  /-- DM_COPY (R102). A data mover copies lines between core and cluster stores. -/
  | dmCopy (core : Fin 32) (hw : CoreHw)
  /-- DM_FILL (R102). A data mover fills lines with a 32-bit pattern. -/
  | dmFill (core : Fin 32) (hw : CoreHw)
  /-- DM_SEND (R513). A data mover forms a tile header and sends a tile on an outbound stream when it holds a credit. -/
  | dmSend (core : Fin 32) (hw : CoreHw)
  /-- DM_RECV (R126). A data mover binds the next tile of an inbound stream and releases old tiles' credits. -/
  | dmRecv (core : Fin 32) (hw : CoreHw)
  /-- DM_READ (R87). A data mover reads a device address range into core store. -/
  | dmRead (core : Fin 32) (hw : CoreHw)
  /-- DM_WRITE (R87). A data mover writes core store lines to a device address range and posts on acceptance. -/
  | dmWrite (core : Fin 32) (hw : CoreHw)
  /-- DM_GATHER (R102). A data mover gathers rows selected by an INT32 index list. -/
  | dmGather (core : Fin 32) (hw : CoreHw)
  /-- DM_TRANSPOSE (R102). A data mover transposes 128 × 128 blocks. -/
  | dmTranspose (core : Fin 32) (hw : CoreHw)
  /-- SEQ_NOP (R102). The sequencer does nothing for one cycle. -/
  | seqNop (core : Fin 32) (hw : CoreHw)
  /-- SEQ_TOKEN_WAIT (R131). The sequencer waits until the masked input tokens for the frame are present. -/
  | seqTokenWait (core : Fin 32) (hw : CoreHw)
  /-- SEQ_TOKEN_SEND (R131). The sequencer sends the masked output tokens after earlier posts and writes are done. -/
  | seqTokenSend (core : Fin 32) (hw : CoreHw)
  /-- SEQ_LOOP (R101). The sequencer repeats a body of words, adding strides after each iteration. -/
  | seqLoop (core : Fin 32) (hw : CoreHw)
  /-- SEQ_BARRIER (R102). The sequencer waits until all engine queues are empty. -/
  | seqBarrier (core : Fin 32) (hw : CoreHw)
  /-- SEQ_FIT_CHECK (R103). The sequencer reports the frame counters to the widen-group decision and waits for it. -/
  | seqFitCheck (core : Fin 32) (hw : CoreHw)
  /-- SEQ_END (R104). The sequencer ends the frame pass, copies fit counters and lets the slot switch. -/
  | seqEnd (core : Fin 32) (hw : CoreHw)
  /-- ILLEGAL_OP (R105). An unlisted op code met at run time stops the sequencer with seq_illegal. -/
  | illegalOp (core : Fin 32) (hw : CoreHw)
  /-- WIDEN_DECISION (R63). Once every widen-group member has finished its first pass, the deciding engine releases or orders a re-run. -/
  | widenDecision (graph : Fin 64) (frame group copy : Nat)
  /-- CORE_CE_STORM (R105). More than 64 corrected errors in one bank within 1 s count as a suspect bank and trigger a self-test. -/
  | coreCeStorm (core : Fin 32) (bank : Nat)
  /-- CORE_SCRUB (R94). The scrubber reads a store line in its scrub period and writes back corrections. -/
  | coreScrub (core : Fin 32) (cluster : Bool) (hw : CoreHw)
  /-- CORE_RESET (R95). The fault manager resets one core, zeroing its store, slots, flags and queues. -/
  | coreReset (core : Fin 32)
  /-- CORE_FIT_CLEAR_WIDEN (R109). Writing bit 0 of CORE_FIT_CLEAR clears CORE_FIT_WIDEN. -/
  | coreFitClearWiden (core : Fin 32) (mgmt : Bool)
  /-- CORE_FIT_CLEAR_SKIPPED (R109). Writing bit 1 of CORE_FIT_CLEAR clears CORE_FIT_SKIPPED. -/
  | coreFitClearSkipped (core : Fin 32) (mgmt : Bool)
  /-- GRAPH_LOAD (R117). GRAPH_LOAD op LOAD checks a bundle image and places the graph. -/
  | graphLoad (link : Fin 2) (sq : Fin 64)
  /-- GRAPH_UNLOAD (R119). GRAPH_LOAD op UNLOAD stops admitting frames of the graph. -/
  | graphUnload (link : Fin 2) (sq : Fin 64)
  /-- GRAPH_UNLOAD_DONE (R119). When the last open frame of an unloading graph completes, its resources are freed and the unload completes OK. -/
  | graphUnloadDone (graph : Fin 64)
  /-- GRAPH_RUN (R128). A GRAPH_RUN packet asks for a frame of a GRAPH_RUN graph. -/
  | graphRun (link : Fin 2) (sq : Fin 64)
  /-- FRAME_ADMIT (R128). A frame is admitted once fewer than frames_in_flight frames are open, and the frame-open notice goes out. -/
  | frameAdmit (graph : Fin 64)
  /-- STATION_FIRE (R129). A dependence engine fires a station for a frame when all its inputs and gates are present. -/
  | stationFire (graph : Fin 64) (frame station copy : Nat) (attn : List AttnLayer) (parity : Bool)
  /-- TILE_ARRIVE (R125). The receive side checks an arriving tile and writes it to the next receive slot or drops it. -/
  | tileArrive (graph : Fin 64) (edge copy : Nat) (header : List Byte)
  /-- CREDIT_RETURN (R127). A credit return reaches the producer, or is discarded on overflow with an abort. -/
  | creditReturn (graph : Fin 64) (edge copy : Nat)
  /-- TOKEN_ARRIVE (R131). A BUFFER or STATE token for a frame arrives at the consumer's dependence engine. -/
  | tokenArrive (graph : Fin 64) (edge copy : Nat)
  /-- VERSION_UPDATE (R136). A new buffer version arrives at a die, which invalidates stale lines and acknowledges. -/
  | versionUpdate (graph : Fin 64) (buffer : Nat) (die : Fin 4)
  /-- VERSION_ACK (R136). An acknowledgement of a version arrives; the last one releases the token or completion. -/
  | versionAck (graph : Fin 64) (buffer : Nat) (die : Fin 4)
  /-- VERSION_TIMEOUT (R153). A die not acknowledging a version within 100 µs sets version_timeout and is reported as a link fault. -/
  | versionTimeout (graph : Fin 64) (buffer : Nat) (die : Fin 4)
  /-- FRAME_TIMEOUT (R139). A frame open for frame_timeout_ms completes INVALID and its unfinished stations are handled as stalls. -/
  | frameTimeout (graph : Fin 64) (frame : Nat)
  /-- FRAME_RELEASE (R26). After every lantern verdict is back, the output stage releases the frame's completion in frame order. -/
  | frameRelease (graph : Fin 64)
  /-- FENCE_SET (R143). The fault manager fences a core, cluster or die, closing its ports and withholding open frames. -/
  | fenceSet (unit : FenceUnit)
  /-- FOLD_DONE (R152). The fold's last step ends, admission resumes and FOLD_DONE is logged. -/
  | foldDone
  /-- FENCE_LIFT (R146). After a passing self-test the fault manager lifts a fence and the unit rejoins empty. -/
  | fenceLift (unit : FenceUnit)
  /-- STALL_REPORT (R147). FENCE op STALL_REPORT reports a stall on a core and completes OK once taken. -/
  | stallReport (link : Fin 2) (sq : Fin 64)
  /-- PASS_TIMEOUT (R147). A pass running pass_timeout_us without SEQ_END is reported as a stall. -/
  | passTimeout (core : Fin 32)
  /-- TARGETED_SELFTEST (R399). The fault manager starts a targeted self-test of a suspect unit. -/
  | targetedSelftest (unit : Fin 42)
  /-- SELFTEST_DONE (R399). A targeted self-test ends: a pass counts a glint, a fail fences and folds. -/
  | selftestDone (unit : Fin 42) (failed : Option (Nat × Nat))
  /-- RETURN_HOME (R146). FENCE op RETURN_HOME asks for the graph's home placement and stops admission. -/
  | returnHome (link : Fin 2) (sq : Fin 64)
  /-- RETURN_HOME_RESUME (R146). When the graph's open frames have completed, stations move home and admission resumes. -/
  | returnHomeResume (graph : Fin 64)
  /-- SEQ_STEP (R168). A SEQ_STEP packet asks for a frame of a stepped graph with its step table. -/
  | seqStep (link : Fin 2) (sq : Fin 64)
  /-- POOL_CREATE (R154). CACHE_OP POOL_CREATE creates a shelf pool on a die. -/
  | poolCreate (link : Fin 2) (sq : Fin 64) (pool die base frames shelfBytes heads d fmt : Nat) (boundOnly : Bool) (altDie archiveLink archiveRing : Nat)
  /-- POOL_DESTROY (R173). CACHE_OP POOL_DESTROY frees a pool whose sequences are all CLOSED. -/
  | poolDestroy (link : Fin 2) (sq : Fin 64) (pool : Nat)
  /-- OPEN (R173). CACHE_OP OPEN creates a LIVE sequence of length 0. -/
  | open_ (link : Fin 2) (sq : Fin 64) (seq pool priority layers window : Nat)
  /-- FORK (R182). CACHE_OP FORK creates a sequence mapping the parent's shelves up to a prefix. -/
  | fork (link : Fin 2) (sq : Fin 64) (seq parent pos : Nat)
  /-- BIND (R175). CACHE_OP BIND binds a sequence to a graph and reserves its frames. -/
  | bind (link : Fin 2) (sq : Fin 64) (seq graph perFrame : Nat)
  /-- SEAL (R185). CACHE_OP SEAL makes a sequence read-only and compacts its last shelf. -/
  | seal (link : Fin 2) (sq : Fin 64) (seq : Nat)
  /-- CLOSE (R173). CACHE_OP CLOSE unmaps every shelf of a sequence and drops its bookmark. -/
  | close (link : Fin 2) (sq : Fin 64) (seq : Nat)
  /-- SET_PRIORITY (R173). CACHE_OP SET_PRIORITY sets a sequence's priority for the next victim choice. -/
  | setPriority (link : Fin 2) (sq : Fin 64) (seq priority : Nat)
  /-- ARCHIVE (R187). CACHE_OP ARCHIVE archives a sequence as if chosen as a victim. -/
  | archive (link : Fin 2) (sq : Fin 64) (seq : Nat)
  /-- QUERY (R173). CACHE_OP QUERY returns a sequence's 64 B record. -/
  | query (link : Fin 2) (sq : Fin 64) (seq : Nat)
  /-- COW_COPY_DONE (R183). A copy-on-write copy ends, the writer's entry is remapped and its append proceeds. -/
  | cowCopyDone (seq layer index : Nat)
  /-- ARCHIVE_CHUNK_WRITE (R187). When the archive ring has room, the archiver writes the next ARCHIVE_OUT chunk and unmaps finished shelves. -/
  | archiveChunkWrite (seq : Nat)
  /-- CACHE_TIMEOUT (R189). A stalled step's cache timeout expires and the step completes CACHE_EXHAUSTED. -/
  | cacheTimeout (graph : Fin 64) (frame : Nat)
  /-- ARCHIVE_IN (R192). An ARCHIVE_IN packet returns one chunk of an archived sequence for restore. -/
  | archiveIn (link : Fin 2) (sq : Fin 64)
  /-- HBM_READ (R200). A memory controller serves a read, correcting or poisoning by the code on each word. -/
  | hbmRead (addr : Nat) (hw : HbmHw)
  /-- HBM_WRITE_ACCEPT (R205). A write enters a pseudo-channel write queue and counts as accepted. -/
  | hbmWriteAccept (addr : Nat) (data : List Byte) (poison : Bool)
  /-- MEM_READ_TIMEOUT (R220). A read with no response in 100 µs gets a poisoned response formed by the requester. -/
  | memReadTimeout (die : Fin 6) (x y tag : Nat)
  /-- ROW_TEST (R201). The controller runs the targeted row test at the fault manager's command. -/
  | rowTest (stack : Fin 4)
  /-- ROW_TEST_DONE (R202). A row test ends as a glint or a lasting row, which is repaired or retired. -/
  | rowTestDone (stack : Fin 4) (passed spare : Bool)
  /-- CA_PARITY_ALERT (R203). A command/address parity alert stops a pseudo-channel and replays its buffered commands. -/
  | caParityAlert (stack : Fin 4) (pc : Fin 32) (drawn : Fin 5)
  /-- PC_FENCE (R204). The fault manager fences a pseudo-channel and poisons its set's range. -/
  | pcFence (stack : Fin 4) (pc : Fin 32)
  /-- HBM_REFRESH (R206). The controller issues a per-bank refresh at the current rate. -/
  | hbmRefresh (stack : Fin 4) (pc : Fin 32)
  /-- REFRESH_RATE_DOWN (R206). After 1 s at least 3 °C below a threshold the refresh rate falls. -/
  | refreshRateDown (stack : Fin 4)
  /-- PATROL_SCRUB (R206). The patrol scrubber reads the next 64 B unit of the stack. -/
  | patrolScrub (stack : Fin 4) (hw : HbmHw) (overtaken : Bool)
  /-- PHY_CALIBRATION (R207). The keeper runs the HBM PHY's periodic calibration every 256 ms. -/
  | phyCalibration (stack : Fin 4)
  /-- RC_LOOKUP (R211). A remote-cache lookup hits on a matching version or misses and fills from HBM. -/
  | rcLookup (die : Fin 4) (addr : Nat) (hw : RcHw)
  /-- RC_FILL (R212). A remote-cache fill returns and allocates unless poisoned or overtaken by a write. -/
  | rcFill (die : Fin 4) (addr : Nat)
  /-- RC_CTRL_WRITE (R212). Clearing RC_CTRL.en stops allocation and drops all lines. -/
  | rcCtrlWrite (hub : Fin 2) (die : Fin 4) (value : BitVec 32)
  /-- MESH_ROUTE (R219). A router forwards a message by x-then-y routing or toward its exit module. -/
  | meshRoute (die : Fin 6) (x y : Nat) (msg : NetMsg) (parity : Bool)
  /-- MESH_TEST (R220). The fault manager runs the die's mesh test after a header parity error. -/
  | meshTest (die : Fin 6) (passed : Bool)
  /-- D2D_FLIT_CRC_FAIL (R228). A UCIe flit failing its CRC is replayed. -/
  | d2dFlitCrcFail (die : Fin 6) (port : Fin 3) (sameFlit : Bool)
  /-- D2D_LINK_DOWN (R228). Four failed replays or 20 µs without acknowledgement or flits declare a link down. -/
  | d2dLinkDown (die : Fin 6) (port : Fin 3) (cause : Fin 3)
  /-- D2D_LINK_MARGINAL (R228). More than 1,000 replays within 1 s logs D2D_LINK_MARGINAL. -/
  | d2dLinkMarginal (die : Fin 6) (port : Fin 3)
  /-- D2D_LINK_FENCE (R223). The fault manager fences a link, withholds affected frames and reroutes. -/
  | d2dLinkFence (die : Fin 6) (port : Fin 3)
  /-- D2D_LOOPBACK_TEST (R229). After a link fence the far-end loop-back test decides glint or lasting. -/
  | d2dLoopbackTest (die : Fin 6) (port : Fin 3) (passed : Bool)
  /-- D2D_TEST_NEAR_END (R234). D2D_TEST mode near-end starts a near-end loop-back test on a port. -/
  | d2dTestNearEnd (die : Fin 6) (port : Fin 3)
  /-- D2D_TEST_FAR_END (R234). D2D_TEST mode far-end starts a far-end loop-back test on a port. -/
  | d2dTestFarEnd (die : Fin 6) (port : Fin 3)
  /-- D2D_TEST_DONE (R234). A loop-back test ends and D2D_TEST_RESULT is written. -/
  | d2dTestDone (die : Fin 6) (flitErrors : Nat) (lanesOk : Bool)
  /-- WIDTH_WORD_EXCHANGE (R232). A link end receives its partner's trained-width word and opens only on agreement. -/
  | widthWordExchange (die : Fin 6) (port : Fin 3) (own peer : BitVec 32)
  /-- SIDEBAND_TIMEOUT (R233). A width word not arriving within 10 ms counts as a failed exchange. -/
  | sidebandTimeout (die : Fin 6) (port : Fin 3)
  /-- SQ_ENABLE (R244). Setting HIF_SQ_CFG.en enables a submission ring after its checks. -/
  | sqEnable (link : Fin 2) (sq : Fin 64) (value : BitVec 32)
  /-- CQ_ENABLE (R244). Setting HIF_CQ_CFG.en enables a completion ring after its checks. -/
  | cqEnable (link : Fin 2) (cq : Fin 64) (value : BitVec 32)
  /-- SQ_DOORBELL (R246). A write to an SQ doorbell moves its tail. -/
  | sqDoorbell (link : Fin 2) (sq : Fin 64) (value : BitVec 32)
  /-- CQ_DOORBELL (R246). A write to a CQ doorbell moves its head and makes room. -/
  | cqDoorbell (link : Fin 2) (cq : Fin 64) (value : BitVec 32)
  /-- SQ_FETCH (R247). The front end reads, checks and takes the next packet of a ring. -/
  | sqFetch (link : Fin 2) (sq : Fin 64) (header payload : List Byte) (hw : FetchHw)
  /-- SQ_TAIL_TIMEOUT (R250). A packet still past the doorbelled tail after 1 ms puts its SQ into ERROR. -/
  | sqTailTimeout (link : Fin 2) (sq : Fin 64)
  /-- HIF_SQ_RESTART (R250). Writing HIF_SQ_RESTART clears head and tail and leaves ERROR. -/
  | hifSqRestart (link : Fin 2) (sq : Fin 64) (value : BitVec 32)
  /-- BAD_PACKET_TYPE (R255). A command of an unlisted type completes BAD_PACKET. -/
  | badPacketType (link : Fin 2) (sq : Fin 64)
  /-- COMPLETION_WRITE (R248). When the CQ has room, the device writes a completion (part) and updates the status line. -/
  | completionWrite (link : Fin 2) (cq : Fin 64) (window : Bool)
  /-- CQ_IRQ_TIMER (R269). HIF_CQ_MOD.time_us passes since the first unsignalled completion and raises the vector. -/
  | cqIrqTimer (link : Fin 2) (cq : Fin 64)
  /-- CQ_FULL_TIMEOUT (R249). A CQ full for 100 ms sets cq_full and logs CQ_FULL. -/
  | cqFullTimeout (link : Fin 2) (cq : Fin 64)
  /-- FLR (R239). A Function Level Reset stops that link's rings and clears heads and tails. -/
  | flr (link : Fin 2)
  /-- PCIE_PERST (R498). PCIE_Hh_PERST_N resets that endpoint's link and configuration space. -/
  | pciePerst (link : Fin 2) (low : Bool) (trained : Option (Nat × Nat))
  /-- TENSOR_PUT_MEMORY (R259). TENSOR_PUT MEMORY writes up to two items into HBM. -/
  | tensorPutMemory (link : Fin 2) (sq : Fin 64)
  /-- TENSOR_PUT_SAMPLE (R259). TENSOR_PUT SAMPLE delivers one part of a host sensor sample to the intake. -/
  | tensorPutSample (link : Fin 2) (sq : Fin 64) (late : List Nat)
  /-- TENSOR_GET (R260). TENSOR_GET reads up to two items of device memory into the completion. -/
  | tensorGet (link : Fin 2) (sq : Fin 64)
  /-- MAP_EDITION_DELTA (R352). MAP_EDITION DELTA stages overlay cell changes as a new edition. -/
  | mapEditionDelta (link : Fin 2) (sq : Fin 64)
  /-- MAP_EDITION_ROADMAP (R347). MAP_EDITION ROADMAP checks and installs a road-map image. -/
  | mapEditionRoadmap (link : Fin 2) (sq : Fin 64)
  /-- PLAN_REQ (R378). A PLAN_REQ asks the planners for a planning round. -/
  | planReq (link : Fin 2) (sq : Fin 64)
  /-- FIT_RATIO (R60). CONFIG item FIT_RATIO sets a station's fit_ratio_n. -/
  | fitRatio (link : Fin 2) (sq : Fin 64)
  /-- POWER_CAP (R444). CONFIG item POWER_CAP sets the package power cap. -/
  | powerCap (link : Fin 2) (sq : Fin 64)
  /-- SET_WAIT (R321). CONFIG item SET_WAIT sets a group's set wait limit. -/
  | setWait (link : Fin 2) (sq : Fin 64)
  /-- REF_ORDER (R311). CONFIG item REF_ORDER sets a group's reference order. -/
  | refOrder (link : Fin 2) (sq : Fin 64)
  /-- SELFTEST_PERIOD (R405). CONFIG item SELFTEST_PERIOD sets the coverage period. -/
  | selftestPeriod (link : Fin 2) (sq : Fin 64)
  /-- CONTRADICTION_LIMIT (R339). CONFIG item CONTRADICTION_LIMIT sets the contradiction counter threshold. -/
  | contradictionLimit (link : Fin 2) (sq : Fin 64)
  /-- NOP (R266). NOP completes OK, or acts as a barrier with the order flag. -/
  | nop (link : Fin 2) (sq : Fin 64)
  /-- MGMT (R266). A MGMT packet carries an Ikisan message over the host rings. -/
  | mgmt (link : Fin 2) (sq : Fin 64)
  /-- ATTEST (R491). An ATTEST packet asks the active hub for a signed attestation report. -/
  | attest (link : Fin 2) (sq : Fin 64) (sign writeOk : Bool)
  /-- CSI2_FRAME_START (R280). A CSI-2 frame start begins a camera sample and takes a reorder entry. -/
  | csi2FrameStart (hub : Fin 2) (port : Fin 4) (vc : Fin 32) (ecc : EccHw) (late : List Nat)
  /-- CSI2_LONG_PACKET (R280). A CSI-2 long packet is checked and its line queued for the pixel pipeline. -/
  | csi2LongPacket (hub : Fin 2) (port : Fin 4) (vc : Fin 32) (dataType : Nat) (payload : List Byte) (ecc : EccHw) (crcOk : Bool)
  /-- CSI2_FRAME_END (R280). A CSI-2 frame end closes the camera sample. -/
  | csi2FrameEnd (hub : Fin 2) (port : Fin 4) (vc : Fin 32) (ecc : EccHw)
  /-- SENSOR_ETH_FRAME (R281). A sensor Ethernet port receives and checks a frame and matches it to a stream. -/
  | sensorEthFrame (hub : Fin 2) (port : Fin 2) (frame : List Byte) (late : List Nat)
  /-- SENSOR_CAN_FRAME (R285). An auxiliary CAN FD frame passing the filters becomes a history-ring record. -/
  | sensorCanFrame (hub : Fin 2) (port : Fin 2) (id : Nat) (ext fd brs esi : Bool) (payload : List Byte)
  /-- CAN_BUS_OFF_RECOVERY (R285). After bus-off the CAN FD port recovers after 128 × 11 recessive bits. -/
  | canBusOffRecovery (hub : Fin 2) (port : Fin 2)
  /-- DECODE_START (R289). A ready JPEG sample or sweep goes to the lowest-numbered free decoder. -/
  | decodeStart (hub : Fin 2)
  /-- DECODE_DONE (R296). A decoder finishes a sample within budget and updates the mean. -/
  | decodeDone (hub : Fin 2) (decoder : Fin 8) (cycles : Nat)
  /-- DECODE_BUDGET_EXPIRY (R296). A decoder's budget runs out and the sample becomes a DECODE_OVERRUN placeholder. -/
  | decodeBudgetExpiry (hub : Fin 2) (decoder : Fin 8)
  /-- PIXEL_PIPELINE (R297). A pixel pipeline turns a sample into planes, resizes, normalises and sends tiles. -/
  | pixelPipeline (hub : Fin 2) (stream : Fin 12) (hw : IntakeHw)
  /-- REORDER_RELEASE (R290). A finished sample leaves the reorder buffer in submission order. -/
  | reorderRelease (hub : Fin 2) (stream : Fin 12)
  /-- STREAM_SILENCE (R308). No sample for SIN_S_SILENCE ms closes the open sample as LOST and logs STREAM_SILENT. -/
  | streamSilence (hub : Fin 2) (stream : Fin 12)
  /-- STREAM_ENABLE (R291). Setting SIN_S_CFG.en enables a stream after its buffer-share check. -/
  | streamEnable (hub : Fin 2) (stream : Fin 14) (value : BitVec 32)
  /-- STREAM_DISABLE (R308). Clearing SIN_S_CFG.en ends in-flight samples as LOST. -/
  | streamDisable (hub : Fin 2) (stream : Fin 14) (value : BitVec 32)
  /-- BINDING_ENABLE (R306). Setting SIN_B_CFG.en checks the binding's edges and enables it. -/
  | bindingEnable (hub : Fin 2) (binding : Fin 16) (value : BitVec 32)
  /-- SAMPLE_BEGIN_REPORT (R319). The leading aligner takes a sample's begin and assigns it to a frame set. -/
  | sampleBeginReport (hub : Fin 2) (hw : IntakeHw)
  /-- SAMPLE_COMPLETE_REPORT (R321). The leading aligner takes a member's completion and closes the set when all are done. -/
  | sampleCompleteReport (hub : Fin 2) (hw : IntakeHw)
  /-- SET_WAIT_EXPIRY (R321). The set wait limit runs out and the set closes. -/
  | setWaitExpiry (group : Fin 8) (hw : IntakeHw)
  /-- GROUP_ENABLE (R311). Setting ALN_G_CFG.en enables a set group after its checks. -/
  | groupEnable (hub : Fin 2) (group : Fin 8) (value : BitVec 32)
  /-- PACKAGE_REG_WRITE (R313). A write to a package-wide register is copied to the other hub before it takes effect. -/
  | packageRegWrite (hub : Fin 2) (offset : Nat) (value : BitVec 32)
  /-- PRISM_STREAM_ENABLE (R345). Enabling a prism camera, point stream or BEV output is checked and refused with cfg. -/
  | prismStreamEnable (hub : Fin 2) (unit : PrismUnit) (value : BitVec 32)
  /-- MERGE_RUN (R337). The merge unit merges source layers into slice 0 when the input token arrives. -/
  | mergeRun (hub : Fin 2) (frame : Nat)
  /-- MERGE_DIGEST_RX (R340). The leading hub compares the other hub's merge digest. -/
  | mergeDigestRx (frame : Nat) (digest : List Byte)
  /-- PLANNER_ENABLE (R350). Setting PLN_CFG.en checks the edition edge and enables frame rounds. -/
  | plannerEnable (hub : Fin 2) (value : BitVec 32)
  /-- EDITION_TOKEN (R351). The planner takes a frame's edition token and checks its header. -/
  | editionToken (frame : Nat)
  /-- EDITION_ORDER (R353). The follower receives an edition number and order from the leader. -/
  | editionOrder (hub : Fin 2)
  /-- EDITION_STAGE_DONE (R354). An edition finishes staging and its dirty edges are marked. -/
  | editionStageDone (hub : Fin 2)
  /-- ROUND_START (R355). A planning round starts and rebuilds the active window. -/
  | roundStart (hub : Fin 2)
  /-- CHECK_ROUND_END (R357). The check round ends and e_s is cut. -/
  | checkRoundEnd (hub : Fin 2) (ecc : EccHw)
  /-- ROUND_CUT (R360). The follower receives a cut value from the leader. -/
  | roundCut (hub : Fin 2)
  /-- RECHECK_END (R361). The re-check of dirty edges against e_s ends. -/
  | recheckEnd (hub : Fin 2) (ecc : EccHw)
  /-- WAVEFRONT_DONE (R363). The wavefront stops on convergence or max_passes. -/
  | wavefrontDone (hub : Fin 2) (ecc : EccHw)
  /-- SEARCH_END (R366). The search ends, candidates are ranked and e_out is cut. -/
  | searchEnd (hub : Fin 2) (ecc : EccHw)
  /-- ROUND_LIMIT (R370). The round's hand-over limit minus guard stops the search. -/
  | roundLimit (hub : Fin 2) (expansions : Nat)
  /-- OUTPUT_HANDOVER (R368). The output stage revalidates candidates and hands over a trajectory record. -/
  | outputHandover (hub : Fin 2) (ecc : EccHw)
  /-- PLAN_DIGEST_RX (R375). The leader compares the follower's record digest. -/
  | planDigestRx
  /-- LANTERN_RESET_RELEASE (R383). Release of LAN_x_RST_N boots the lantern from its own flash. -/
  | lanternResetRelease (lantern : Fin 2) (config : LnfConfig)
  /-- LOCKSTEP_MISMATCH (R384). A lockstep mismatch or SRAM UE stops the lantern and asserts FAULT. -/
  | lockstepMismatch (lantern : Fin 2) (kind : LanternHw)
  /-- LANTERN_HB_TOGGLE (R386). A lantern toggles LAN_HB_OUT every 500 µs. -/
  | lanternHbToggle (lantern : Fin 2)
  /-- PEER_HB_EDGE (R386). A lantern measures a peer heartbeat edge and checks its clock after four bad periods. -/
  | peerHbEdge (lantern : Fin 2) (periodNs : Nat)
  /-- PEER_HB_TIMEOUT (R385). No peer heartbeat edge for 1 ms marks the peer lost. -/
  | peerHbTimeout (lantern : Fin 2)
  /-- LANTERN_CLOCK_WINDOW (R385). A 250 µs window compares the lantern clock with the hub reference. -/
  | lanternClockWindow (lantern : Fin 2) (ppm : Int)
  /-- MP_HEARTBEAT_RX (R385). A lantern receives the active management processor's heartbeat. -/
  | mpHeartbeatRx (lantern : Fin 2)
  /-- MP_HEARTBEAT_TIMEOUT (R385). No management heartbeat for 5 ms is noted by a lantern. -/
  | mpHeartbeatTimeout (lantern : Fin 2)
  /-- MP_TAKEOVER_TIMEOUT (R410). No takeover heard within 50 ms asserts FAULT with cause MP_LOST and enters safe state. -/
  | mpTakeoverTimeout (lantern : Fin 2)
  /-- LANTERN_FRAME_START (R388). A lantern receives a frame start message and starts the deadline timer. -/
  | lanternFrameStart (lantern : Fin 2) (graph : Fin 64) (frame : Nat) (ok : Bool)
  /-- LANTERN_HANDOVER_RX (R389). A lantern receives the hand-over, forms L and returns its verdict. -/
  | lanternHandoverRx (lantern : Fin 2) (graph : Fin 64) (frame : Nat) (ok : Bool)
  /-- DEADLINE_EXPIRY (R390). A lantern's timer reaches deadline_us before hand-over and sends a late verdict. -/
  | deadlineExpiry (lantern : Fin 2) (graph : Fin 64) (frame : Nat)
  /-- VERDICT_RX (R26). The output stage receives a lantern verdict. -/
  | verdictRx (lantern : Fin 2) (graph : Fin 64) (frame : Nat)
  /-- VERDICT_TIMEOUT (R26). A verdict not back within 200 µs of hand-over counts as late. -/
  | verdictTimeout (lantern : Fin 2) (graph : Fin 64) (frame : Nat)
  /-- SIGNATURE_RX (R393). A lantern receives a station signature and compares the copies. -/
  | signatureRx (lantern : Fin 2)
  /-- ENVELOPE_COMPARE (R395). When both edges' tokens arrive the comparator tests the element pairs of an envelope entry. -/
  | envelopeCompare (hub : Fin 2) (graph : Fin 64) (frame : Nat) (entry : Fin 16)
  /-- ENVELOPE_RESULT_RX (R395). A lantern receives an envelope comparator's verdict and counts. -/
  | envelopeResultRx (lantern : Fin 2)
  /-- WINDOW_GRANT (R403). A lantern grants a self-test window to a unit with forecast idle time. -/
  | windowGrant (lantern : Fin 2) (unit : Fin 42) (us : Nat)
  /-- CHUNK_START (R402). A self-test chunk starts when at least 170 µs of window remain. -/
  | chunkStart (unit : Fin 42)
  /-- CHUNK_DONE (R405). A 150 µs chunk ends; a failure is rerun. -/
  | chunkDone (unit : Fin 42) (passed : Bool)
  /-- CHUNK_ABORT (R404). Work arriving during a chunk aborts it and restores the unit. -/
  | chunkAbort (unit : Fin 42)
  /-- COVERAGE_PERIOD_END (R406). A coverage period ends and starved units are logged SELFTEST_STARVED. -/
  | coveragePeriodEnd (lantern : Fin 2)
  /-- FAULT_GAP_EXPIRY (R410). No usable frame of a safety-relevant graph for the fault gap asserts FAULT. -/
  | faultGapExpiry (lantern : Fin 2) (graph : Fin 64)
  /-- OUTAGE_EXPIRY (R410). No usable frame for the outage limit asserts FAULT and enters safe state. -/
  | outageExpiry (lantern : Fin 2) (graph : Fin 64)
  /-- SAFE_STATE_ENTRY (R424). A lantern or fault manager enters safe state: FAULT, ACTIVE emission, DOWN frames and a warm reset request. -/
  | safeStateEntry (source : Fin 3)
  /-- STATUS_EMIT (R414). A lantern sends its STATUS CAN FD message every 10 ms. -/
  | statusEmit (lantern : Fin 2)
  /-- TRAJ_HEAD_EMIT (R415). A lantern sends TRAJ_HEAD and the 16 TRAJ_DATA messages of its stored or stop trajectory. -/
  | trajHeadEmit (lantern : Fin 2)
  /-- REC_REQ (R416). A REC_REQ CAN message makes the lantern send event-record entries and REC_END. -/
  | recReq (lantern : Fin 2) (data : List Byte)
  /-- PORST_ASSERT (R418). PORST_N held low for 10 µs starts a power-on reset. -/
  | porstAssert
  /-- PORST_RELEASE (R422). The release of PORST_N starts the cold boot sequence. -/
  | porstRelease (hw : BootHw)
  /-- WARM_RESET_REQUEST (R424). A warm package reset is requested and open frames complete INVALID. -/
  | warmResetRequest (source : Fin 5)
  /-- WARM_RESET_ASSERT (R424). Warm reset is asserted 1 ms after the request, after the last DOWN frame. -/
  | warmResetAssert
  /-- WARM_RESTART (R425). Once power-goods are high the warm restart runs to host_ready. -/
  | warmRestart (hw : BootHw)
  /-- RESTART_RETRY_EXPIRY (R427). No usable frame within 10 s of a requested warm reset makes the lantern request another or power-off. -/
  | restartRetryExpiry (lantern : Fin 2)
  /-- DIE_RESET (R419). The fault manager resets one Talxon die, keeping its keeper. -/
  | dieReset (die : Fin 4)
  /-- DIE_REJOIN (R419). A reset die rejoins after width agreement, firmware digest and SAFETY_BIST. -/
  | dieRejoin (die : Fin 4) (digestOk bistOk : Bool)
  /-- DIE_REJOIN_TIMEOUT (R419). A die not rejoined within 300 ms stays fenced or is reset from its previous TDF slot. -/
  | dieRejoinTimeout (die : Fin 4)
  /-- LANTERN_RESTART (R418). The management processor restarts a lantern's processor into a new LNF. -/
  | lanternRestart (lantern : Fin 2) (config : LnfConfig)
  /-- LANTERN_RESTART_TIMEOUT (R419). A restarted lantern not RUNNING within 300 ms asserts FAULT with cause BOOT. -/
  | lanternRestartTimeout (lantern : Fin 2)
  /-- DOWN_FRAME_SEND (R431). A lantern sends a DOWN frame on its mirror-link port, three times 300 µs apart. -/
  | downFrameSend (lantern : Fin 2)
  /-- MIR_HEARTBEAT_SEND (R431). Each management processor sends a mirror-link HEARTBEAT every 10 ms. -/
  | mirHeartbeatSend (hub : Fin 2)
  /-- MIR_HEARTBEAT_RX (R433). A HEARTBEAT from the twin is checked and accepted. -/
  | mirHeartbeatRx (hub : Fin 2) (frame : List Byte) (fcsOk : Bool)
  /-- MIR_EXCHANGE_RX (R435). An EXCHANGE from the twin is accepted and written to the receive ring. -/
  | mirExchangeRx (hub : Fin 2) (frame : List Byte) (fcsOk : Bool)
  /-- MIR_DOWN_RX (R433). A DOWN frame makes the twin LOST at once. -/
  | mirDownRx (hub : Fin 2) (frame : List Byte) (fcsOk : Bool)
  /-- TWIN_SILENCE (R433). No twin frame for 30 ms marks the twin LOST or the link DEGRADED. -/
  | twinSilence
  /-- ROLE_HEAR_TIMEOUT (R434). After 100 ms without hearing a LEAD twin the device acts in its configured role. -/
  | roleHearTimeout
  /-- PGOOD_FALL (R441). A power-good input low for 1 µs is logged RAIL_PGOOD_LOW and handled as a supply fault. -/
  | pgoodFall (rail : Fin 13)
  /-- AVS_TELEMETRY_POLL (R442). The AVSBus master reads each rail's voltage and current every 1 ms. -/
  | avsTelemetryPoll (rail : Fin 6) (telemetry : Option (Nat × Nat))
  /-- AVS_REQUEST (R443). The master requests a rail voltage, retries once and fails after three misses. -/
  | avsRequest (rail : Fin 6) (ack retryAck : Bool)
  /-- HOTSPOT_SAMPLE (R445). Each hot spot's two sensors are read every 100 µs and combined. -/
  | hotspotSample (spot : Fin 22) (a b : Int)
  /-- HBM_DIODE_SAMPLE (R446). Each stack's substrate diode is read every 100 µs and the stack temperature formed. -/
  | hbmDiodeSample (stack : Fin 4) (value : Int)
  /-- HBM_TEMP_READOUT (R446). Each stack's IEEE 1500 temperature is read every 32 ms. -/
  | hbmTempReadout (stack : Fin 4) (value : Int)
  /-- TRAY_READ (R447). The active processor reads the coolant tray every 10 ms. -/
  | trayRead (reading : Option (Int × Int × Nat × Nat))
  /-- FLOW_LOW_CLEAR (R452). Flow and R_est back in range for 60 s clear FLOW_LOW. -/
  | flowLowClear
  /-- FLOW_LOSS_EXPIRY (R455). A sudden flow loss lasting 10 s makes a lantern request power-off. -/
  | flowLossExpiry (lantern : Fin 2)
  /-- JUNCTION_SLOPE_FIT (R453). Every 10 ms the junction slope is fitted and 20 high slopes detect a flow loss. -/
  | junctionSlopeFit
  /-- THERMAL_RESISTANCE_UPDATE (R448). The controller updates its estimate of junction-to-coolant resistance. -/
  | thermalResistanceUpdate
  /-- FORECAST_REFRESH (R449). Every 10 ms the controller refreshes the two-second forecast and selects the shade level. -/
  | forecastRefresh
  /-- DVFS_STEP_DONE (R24). A DVFS step completes and the cluster's stations resume. -/
  | dvfsStepDone (cluster : Fin 8)
  /-- POWER_OVER_LIMIT (R444). The 100 ms power average above P_lim by 2 % for 1 s sets over_limit. -/
  | powerOverLimit
  /-- THERMAL_TRIP (R457). An analog trip drives PWR_OFF_REQ_N and the lanterns assert FAULT with cause THERMAL. -/
  | thermalTrip (spot : Fin 26)
  /-- PWR_OFF_REQ_RELEASE (R457). The lanterns release PWR_OFF_REQ_N 10 ms after rails 0 … 5 have fallen. -/
  | pwrOffReqRelease
  /-- LIFE_COUNTER_WRITE (R460). The life counters are written to the sticky region every 10 minutes and before resets. -/
  | lifeCounterWrite
  /-- THERMAL_CYCLE_SAMPLE (R460). Each die's junction is sampled once per second for rainflow counting. -/
  | thermalCycleSample
  /-- PRIMARY_ABSENT (R465). A selected hub silent for 100 ms lets the other hub become active. -/
  | primaryAbsent
  /-- MP_HEARTBEAT_SEND (R466). The active processor sends its heartbeat every 1 ms. -/
  | mpHeartbeatSend
  /-- STANDBY_TAKEOVER (R466). After 5 ms without heartbeat the standby sends TAKEOVER and becomes active. -/
  | standbyTakeover
  /-- TAKEOVER_RX (R466). A Talxon die accepts TAKEOVER if it too heard no heartbeat for 5 ms. -/
  | takeoverRx (die : Fin 4)
  /-- TAKEOVER_DONE_RX (R466). A lantern receives TAKEOVER_DONE from the new active processor. -/
  | takeoverDoneRx (lantern : Fin 2)
  /-- MGT_DEMOTE (R467). An active processor receiving TAKEOVER or no die acknowledgement for 5 ms demotes itself. -/
  | mgtDemote (hub : Fin 2)
  /-- LEDGER_WRITE (R471). The ledger writer stores a queued entry to both hubs' flashes. -/
  | ledgerWrite (bad : List (Fin 2))
  /-- MGMT_PORT_DATAGRAM (R476). The management port receives a UDP datagram carrying an Ikisan message, or ARP or ICMP. -/
  | mgmtPortDatagram (hub : Fin 2) (datagram : MgmtDatagram)
  /-- MAILBOX_SEND (R480). Writing MGT_MBX_CTRL.go sends the mailbox's READ message. -/
  | mailboxSend (hub : Fin 2) (value : BitVec 32)
  /-- IKISAN_BAD_TYPE (R479). An Ikisan message of an unknown type is answered BAD_PACKET. -/
  | ikisanBadType
  /-- IDENTIFY (R479). Ikisan IDENTIFY returns ordering code, IDs and slot records. -/
  | identify
  /-- STATUS (R479). Ikisan STATUS returns the health word, promise and readiness. -/
  | status
  /-- LEDGER_INFO (R479). Ikisan LEDGER_INFO returns the oldest and next seq. -/
  | ledgerInfo
  /-- LEDGER_READ (R474). Ikisan LEDGER_READ returns ledger entries from a seq. -/
  | ledgerRead (ue : Bool)
  /-- STICKY_READ (R479). Ikisan STICKY_READ returns bytes of the sticky region. -/
  | stickyRead (ue : Bool)
  /-- EVENT_NAMES (R514). Ikisan EVENT_NAMES returns event table entries. -/
  | eventNames
  /-- ATTEST_MESSAGE (R491). Ikisan ATTEST returns a signed attestation report. -/
  | attestMessage (sign writeOk : Bool)
  /-- CAL_READ (R479). Ikisan CAL_READ returns calibration bytes. -/
  | calRead (ue : Bool)
  /-- DEBUG_CHALLENGE (R492). Ikisan DEBUG_CHALLENGE returns a 32 B nonce. -/
  | debugChallenge
  /-- KEY_SET (R479). Ikisan KEY_SET installs a new management key. -/
  | keySet
  /-- CAL_WRITE (R479). Ikisan CAL_WRITE writes the USER calibration partition. -/
  | calWrite
  /-- RESTORE_FACTORY (R488). Ikisan RESTORE_FACTORY erases the USER partition, keeping the counter. -/
  | restoreFactory
  /-- UPDATE_BEGIN (R485). Ikisan UPDATE_BEGIN erases the inactive slot of a kind. -/
  | updateBegin
  /-- UPDATE_DATA (R485). Ikisan UPDATE_DATA writes image data into the slot. -/
  | updateData
  /-- UPDATE_VERIFY (R482). Ikisan UPDATE_VERIFY checks the slot's image and marks it pending. -/
  | updateVerify
  /-- UPDATE_ACTIVATE_TDIES (R485). UPDATE_ACTIVATE scope TDIES updates each Talxon die in turn by fence, fold and die reset. -/
  | updateActivateTdies
  /-- UPDATE_ACTIVATE_LANTERNS (R485). UPDATE_ACTIVATE scope LANTERNS restarts each lantern in turn into the pending LNF. -/
  | updateActivateLanterns
  /-- UPDATE_ACTIVATE_HUBS (R485). UPDATE_ACTIVATE scope HUBS sends PLANNED DOWN and warm-resets into pending hub images. -/
  | updateActivateHubs
  /-- UPDATE_COMMIT (R484). Ikisan UPDATE_COMMIT raises the anti-rollback floor and revokes keys. -/
  | updateCommit
  /-- RESET (R479). Ikisan RESET replies and then requests a warm package reset. -/
  | reset
  /-- PLANNED_STOP (R431). Ikisan PLANNED_STOP makes the lanterns send DOWN with cause PLANNED and assert FAULT. -/
  | plannedStop
  /-- DEBUG_UNLOCK (R492). Ikisan DEBUG_UNLOCK checks a token, blows the debugged fuse and opens debug scopes. -/
  | debugUnlock
  /-- LAN_RST_ASSERT (R418). Driving LAN_A_RST_N or LAN_B_RST_N low resets the whole lantern, FAULT latch included, and puts it in RESET. -/
  | lanRstAssert (lantern : Fin 2)
  /-- PGOOD_RISE (R441). A power-good input that was low rises again and PWR_PGOOD and the supply-fault conditions follow it. -/
  | pgoodRise (rail : Fin 13)
  /-- DIE_CLOCK_FAULT (R385). A die's clock monitor finds its reference clock or a PLL deviating by more than 2 % and reports to both lanterns and the fault manager. -/
  | dieClockFault (die : Fin 6) (pll : Option (Fin 2))
  /-- HOST_LINK_LOSS (R257). A hub's PCIe link goes down, its rings are lost and frames complete on the other CQ while archive rings on it count as full. -/
  | hostLinkLoss (link : Fin 2)
  /-- PCIE_POWER_STATE_CHANGE (R238). The host moves an endpoint between D0 and D3hot, stopping or resuming ring fetches and interrupts. -/
  | pciePowerStateChange (link : Fin 2) (d3hot : Bool)
  /-- MIR_PORT_LINK_CHANGE (R438). A mirror-link port's PHY link goes down or up, setting MIR_ERR_STATUS.port_down and MIR_STATE.link_up. -/
  | mirPortLinkChange (hub : Fin 2) (up : Bool)
  /-- SENSOR_PORT_LINK_CHANGE (R309). A sensor port's link goes up or down, changing SIN_STATE bit 8 + p and SIN_P_STATUS. -/
  | sensorPortLinkChange (hub : Fin 2) (port : Fin 8) (up : Bool)
  /-- CAN_ERROR_STATE_CHANGE (R285). Bus errors move an auxiliary CAN FD port to error-passive or bus-off. -/
  | canErrorStateChange (hub port : Fin 2) (passive busOff : Bool)
  /-- CAT_REGION_ENABLE (R160). Setting CAT_REGION_BASE_LO.en gives a die its catalogue region, lets POOL_CREATE proceed and rewrites the restart record. -/
  | catRegionEnable (hub : Fin 2) (die : Fin 4) (value : BitVec 32)
  /-- HIF_NOTICE_RING_WRITE (R267). A write to HIF_NOTICE_RING sets the notice ring, or is discarded with ring_cfg set when it names an archive ring. -/
  | hifNoticeRingWrite (link : Fin 2) (value : BitVec 32)
  /-- WARM_RESTART_PGOOD_TIMEOUT (R427). Step 1 of a warm restart has waited 1 s for power-good, so the lantern requests power-off and logs POWER_OFF_REQ. -/
  | warmRestartPgoodTimeout (lantern : Fin 2)
  /-- LAN_ERR_HOLD_EXPIRY (R417). A LAN_ERR_STATUS bit falls 1 s after its event once its condition has ended, and HIF_ERR_SUMMARY bit 12 follows. -/
  | lanErrHoldExpiry (lantern : Fin 2) (bit : Fin 11)
  /-- RATINGS_HOLD_EXPIRY (R458). Ten seconds after the last out-of-ratings condition ends, LAN_PROMISE.within_ratings returns to 1 and PROMISE_CHANGE may follow. -/
  | ratingsHoldExpiry (lantern : Fin 2)
  /-- KEEPER_COPY_REFRESH (R466). Every 10 ms the active processor refreshes its copy of glint counts and drift runs in each Talxon die's keeper store. -/
  | keeperCopyRefresh
  /-- LANTERN_COMPARE_TEST (R396). After LANTERN_DISAGREE each lantern runs its own 2 ms compare test in its idle time. -/
  | lanternCompareTest (lantern : Fin 2)
  /-- LANTERN_UPDATE_SETTLE (R485). During a LANTERNS activation, once the first restarted lantern has been RUNNING for 1 s and judged 8 frames, the second lantern's restart starts. -/
  | lanternUpdateSettle
  deriving DecidableEq, Repr

end Sys2Proof
end

