-- ==== Sys2Proof/Decode.lean ====
section
/-! DEFINITION. The command that a word of the opcode table spells: no row of the table gives bits (every row's
list of fields is empty), so no word spells a command. -/

namespace Sys2Proof

/-- The block takes its commands from its registers, rings, pins and links, not from encoded words: none. -/
def decodeTableWord (_nbits _w : Nat) : Option Instr := none

end Sys2Proof
end

