-- ==== Sys2Proof/Machine/Tables.lean ====
section
/-! DEFINITION. Sparse tables in one canonical form (keys strictly rising, no entry equal to the default),
bytes of memory, little-endian fields (R8) and bit fields (R7). -/

namespace Sys2Proof.Machine

/-- The value at a key: the default `d` where the key is not listed. -/
def tblGet {α : Type} (d : α) (t : Tbl α) (k : Nat) : α :=
  match t with
  | [] => d
  | (k', v) :: r => if k = k' then v else tblGet d r k

/-- A table without the entries of a key. -/
def tblDrop {α : Type} (t : Tbl α) (k : Nat) : Tbl α :=
  match t with
  | [] => []
  | (k', w) :: r => if k' = k then tblDrop r k else (k', w) :: tblDrop r k

/-- An entry put before the first entry with a higher key. -/
def tblPut {α : Type} (t : Tbl α) (k : Nat) (v : α) : Tbl α :=
  match t with
  | [] => [(k, v)]
  | (k', w) :: r => if k < k' then (k, v) :: (k', w) :: r else (k', w) :: tblPut r k v

/-- Write a value at a key, keeping the canonical form: writing the default removes the entry. -/
def tblSet {α : Type} [DecidableEq α] (d : α) (t : Tbl α) (k : Nat) (v : α) : Tbl α :=
  if v = d then tblDrop t k else tblPut (tblDrop t k) k v

/-- Every key of a table is above `k`. -/
def tblAbove {α : Type} (k : Nat) (t : Tbl α) : Bool := t.all (fun e => k < e.1)

/-- The canonical form: keys strictly rising and no entry equal to the default. -/
def tblWf {α : Type} [DecidableEq α] (d : α) (t : Tbl α) : Bool :=
  match t with
  | [] => true
  | (k, v) :: r => decide (v ≠ d) && tblAbove k r && tblWf d r

/-- Change the value at a key. -/
def tblMod {α : Type} [DecidableEq α] (d : α) (t : Tbl α) (k : Nat) (f : α → α) : Tbl α :=
  tblSet d t k (f (tblGet d t k))

/-- Write consecutive keys from `k` on. -/
def tblSetList {α : Type} [DecidableEq α] (d : α) (t : Tbl α) (k : Nat) (vs : List α) : Tbl α :=
  match vs with
  | [] => t
  | v :: r => tblSetList d (tblSet d t k v) (k + 1) r

/-- Read `n` consecutive keys from `k` on. -/
def tblGetList {α : Type} (d : α) (t : Tbl α) (k n : Nat) : List α :=
  (List.range n).map (fun i => tblGet d t (k + i))

/-- A byte that nothing has written reads as zero (DESIGN CHOICE, log 8). -/
def unlistedByte : Byte := 0

/-- A byte of device memory. -/
def memGet (m : Tbl Byte) (a : Nat) : Byte := tblGet unlistedByte m a
/-- Write one byte of device memory. -/
def memSet (m : Tbl Byte) (a : Nat) (b : Byte) : Tbl Byte := tblSet unlistedByte m a b
/-- `n` bytes of device memory from an address. -/
def memRead (m : Tbl Byte) (a n : Nat) : List Byte := tblGetList unlistedByte m a n
/-- Write bytes from an address on. -/
def memWrite (m : Tbl Byte) (a : Nat) (bs : List Byte) : Tbl Byte := tblSetList unlistedByte m a bs
/-- The canonical form of memory. -/
abbrev Memory.wf (m : Tbl Byte) : Bool := tblWf unlistedByte m

/-- The value of little-endian bytes (R8). -/
def ofLe (bs : List Byte) : Nat :=
  match bs with
  | [] => 0
  | b :: r => b.toNat + 256 * ofLe r

/-- `n` little-endian bytes of a value (R8). -/
def toLe (n v : Nat) : List Byte :=
  match n with
  | 0 => []
  | n + 1 => BitVec.ofNat 8 v :: toLe n (v / 256)

/-- A little-endian field of `n` bytes at offset `o` of a byte list; bytes past its end read as 0. -/
def leAt (bs : List Byte) (o n : Nat) : Nat := ofLe ((bs.drop o).take n)

/-- A big-endian value (R8: formats a cited standard defines). -/
def ofBe (bs : List Byte) : Nat := ofLe bs.reverse
/-- `n` big-endian bytes. -/
def toBe (n v : Nat) : List Byte := (toLe n v).reverse
/-- A big-endian field. -/
def beAt (bs : List Byte) (o n : Nat) : Nat := ofBe ((bs.drop o).take n)

/-- Bits [hi:lo] of a number (R7). -/
def bitsN (v hi lo : Nat) : Nat := v / 2 ^ lo % 2 ^ (hi + 1 - lo)
/-- Bits [hi:lo] of a register (R7). -/
def bits (w : Word) (hi lo : Nat) : Nat := bitsN w.toNat hi lo
/-- Bit `i` of a number. -/
def bitN (v i : Nat) : Bool := v / 2 ^ i % 2 == 1
/-- The low `n` bits of a number as a two's-complement value. -/
def sbits (v n : Nat) : Int :=
  let x := v % 2 ^ n
  if x < 2 ^ (n - 1) then (x : Int) else (x : Int) - ((2 ^ n : Nat) : Int)
/-- A register value with bits [hi:lo] replaced. -/
def putBits (w : Word) (hi lo v : Nat) : Word :=
  BitVec.ofNat 32 (w.toNat - bitsN w.toNat hi lo * 2 ^ lo + v % 2 ^ (hi + 1 - lo) * 2 ^ lo)
/-- A word of a number. -/
def word (v : Nat) : Word := BitVec.ofNat 32 v
/-- One bit as a number. -/
def b2n (b : Bool) : Nat := if b then 1 else 0

/-- A saturating count of 32 bits (R11: counters). -/
def satInc (w : Word) (n : Nat := 1) : Word :=
  if w.toNat + n < 2 ^ 32 then BitVec.ofNat 32 (w.toNat + n) else BitVec.allOnes 32

/-- The element at an index of a list, or `d`. -/
def nth {α : Type} (d : α) (l : List α) (i : Nat) : α := l.getD i d

/-- Replace the element at an index. -/
def setNth {α : Type} (l : List α) (i : Nat) (v : α) : List α := l.set i v

/-- The first index at which a predicate holds. -/
def findIdx? {α : Type} (p : α → Bool) (l : List α) : Option Nat :=
  match l with
  | [] => none
  | a :: r => if p a then some 0 else (findIdx? p r).map (· + 1)

/-- A list without its first element that meets `p`, and that element. -/
def takeFirst {α : Type} (p : α → Bool) (l : List α) : Option (α × List α) :=
  match l with
  | [] => none
  | a :: r => if p a then some (a, r) else (takeFirst p r).map (fun x => (x.1, a :: x.2))

/-- Change every element that meets `p`. -/
def mapWhere {α : Type} (p : α → Bool) (f : α → α) (l : List α) : List α :=
  l.map (fun a => if p a then f a else a)

/-- Insert in an order given by a key, after equal keys. -/
def insertBy {α : Type} (key : α → Nat) (a : α) (l : List α) : List α :=
  match l with
  | [] => [a]
  | b :: r => if key b ≤ key a then b :: insertBy key a r else a :: b :: r

/-- Sort by a key, equal keys in their order. -/
def sortBy {α : Type} (key : α → Nat) (l : List α) : List α := l.foldr (insertBy' key) []
where
  /-- Insert before equal keys (used from the right, so the order of equal keys stays). -/
  insertBy' (key : α → Nat) (a : α) (l : List α) : List α :=
    match l with
    | [] => [a]
    | b :: r => if key a ≤ key b then a :: b :: r else b :: insertBy' key a r

/-- The ASCII bytes of a string. -/
def asciiBytes (s : String) : List Byte := s.toList.map (fun c => BitVec.ofNat 8 c.toNat)

/-- A byte list cut or padded with zeros to `n` bytes. -/
def padTo (n : Nat) (bs : List Byte) : List Byte := (bs ++ List.replicate (n - bs.length) 0).take n

end Sys2Proof.Machine
end

