-- ==== Sys2Proof/Machine/Digests.lean ====
section
/-! DEFINITION. The CRC-32 of R509, the CRC-64 of R392 and the SHAKE256 digest of R114 and its kin. -/

namespace Sys2Proof.Machine

/-- One bit of the reflected CRC-32 (R509: polynomial 0x04C1_1DB7, reflected 0xEDB8_8320). -/
def crc32Bit (c : BitVec 32) : BitVec 32 :=
  if c.getLsbD 0 then (c >>> 1) ^^^ 0xEDB88320#32 else c >>> 1

/-- One byte of the CRC-32. -/
def crc32Byte (c : BitVec 32) (b : Byte) : BitVec 32 :=
  crc32Bit (crc32Bit (crc32Bit (crc32Bit (crc32Bit (crc32Bit (crc32Bit (crc32Bit (c ^^^ b.setWidth 32))))))))

/-- R509: the CRC-32 of IEEE 802.3. -/
def crc32 (bs : List Byte) : BitVec 32 := (bs.foldl crc32Byte (BitVec.allOnes 32)) ^^^ BitVec.allOnes 32

/-- One bit of the CRC-64/ECMA-182 (R392), most significant bit first. -/
def crc64Bit (c : BitVec 64) : BitVec 64 :=
  if c.getLsbD 63 then (c <<< 1) ^^^ 0x42F0E1EBA9EA3693#64 else c <<< 1

/-- One byte of the CRC-64. -/
def crc64Byte (c : BitVec 64) (b : Byte) : BitVec 64 :=
  let x := c ^^^ (b.setWidth 64 <<< 56)
  crc64Bit (crc64Bit (crc64Bit (crc64Bit (crc64Bit (crc64Bit (crc64Bit (crc64Bit x)))))))

/-- R392: the CRC-64 of a byte string, carried on from a running value. -/
def crc64 (c : BitVec 64) (bs : List Byte) : BitVec 64 := bs.foldl crc64Byte c

/-- The rotation offsets of Keccak's ρ step, lane x + 5 y (PRESUMED, FIPS 202; log 10). -/
def keccakRot : List Nat :=
  [0, 1, 62, 28, 27, 36, 44, 6, 55, 20, 3, 10, 43, 25, 39, 41, 45, 15, 21, 8, 18, 2, 61, 56, 14]

/-- The round constants of Keccak's ι step (PRESUMED, FIPS 202; log 10). -/
def keccakRc : List (BitVec 64) :=
  [0x0000000000000001#64, 0x0000000000008082#64, 0x800000000000808A#64, 0x8000000080008000#64,
   0x000000000000808B#64, 0x0000000080000001#64, 0x8000000080008081#64, 0x8000000000008009#64,
   0x000000000000008A#64, 0x0000000000000088#64, 0x0000000080008009#64, 0x000000008000000A#64] ++
  [0x000000008000808B#64, 0x800000000000008B#64, 0x8000000000008089#64, 0x8000000000008003#64,
   0x8000000000008002#64, 0x8000000000000080#64, 0x000000000000800A#64, 0x800000008000000A#64,
   0x8000000080008081#64, 0x8000000000008080#64, 0x0000000080000001#64, 0x8000000080008008#64]

/-- A lane of the Keccak state. -/
def lane (a : List (BitVec 64)) (i : Nat) : BitVec 64 := a.getD i 0

/-- One round of Keccak-f[1600] on 25 lanes. -/
def keccakRound (a : List (BitVec 64)) (rc : BitVec 64) : List (BitVec 64) :=
  let c := (List.range 5).map fun x => lane a x ^^^ lane a (x + 5) ^^^ lane a (x + 10) ^^^ lane a (x + 15) ^^^ lane a (x + 20)
  let d := (List.range 5).map fun x => lane c ((x + 4) % 5) ^^^ (lane c ((x + 1) % 5)).rotateLeft 1
  let t := (List.range 25).map fun i => (lane a i ^^^ lane d (i % 5)).rotateLeft (keccakRot.getD i 0)
  -- π: lane (x, y) of the result comes from lane ((x + 3 y) mod 5, x)
  let b := (List.range 25).map fun i =>
    let x := i % 5
    let y := i / 5
    lane t ((x + 3 * y) % 5 + 5 * x)
  let e := (List.range 25).map fun i =>
    let x := i % 5
    let y := i / 5
    lane b i ^^^ (~~~ lane b ((x + 1) % 5 + 5 * y) &&& lane b ((x + 2) % 5 + 5 * y))
  match e with
  | l :: r => (l ^^^ rc) :: r
  | [] => []

/-- Keccak-f[1600]. -/
def keccakF (a : List (BitVec 64)) : List (BitVec 64) := keccakRc.foldl keccakRound a

/-- XOR one 136-byte block into the state and permute. -/
def keccakAbsorb (a : List (BitVec 64)) (blk : List Byte) : List (BitVec 64) :=
  keccakF ((List.range 25).map fun i =>
    if i < 17 then lane a i ^^^ BitVec.ofNat 64 (leAt blk (8 * i) 8) else lane a i)

/-- Absorb `n` blocks. -/
def keccakBlocks (n : Nat) (a : List (BitVec 64)) (bs : List Byte) : List (BitVec 64) :=
  match n with
  | 0 => a
  | n + 1 => keccakBlocks n (keccakAbsorb a (bs.take 136)) (bs.drop 136)

/-- Bytes 0 … 31 of the sponge with rate 136 B over a byte string; `dom` holds the suffix bits and the first bit of the padding. -/
def sponge (dom : Byte) (bs : List Byte) : List Byte :=
  let n := bs.length / 136 + 1
  let fill := 136 * n - bs.length
  let pad : List Byte := if fill = 1 then [dom ||| 0x80#8] else dom :: (List.replicate (fill - 2) 0#8 ++ [0x80#8])
  let a := keccakBlocks n (List.replicate 25 0) (bs ++ pad)
  (List.range 4).flatMap fun i => toLe 8 (lane a i).toNat

/-- Bytes 0 … 31 of SHAKE256: the digest every chapter calls 'SHAKE256, 32 B' (PRESUMED, FIPS 202; log 10). -/
def shake256 (bs : List Byte) : List Byte := sponge 0x1F bs

/-- Bytes of a number in big-endian order, as few as it needs (at least one). -/
def fewBytes (n : Nat) : List Byte := toBe (n.log2 / 8 + 1) n
/-- left_encode, right_encode, encode_string and bytepad to 136 B (PRESUMED, SP 800-185; log 10). -/
def leftEncode (n : Nat) : List Byte := toLe 1 (fewBytes n).length ++ fewBytes n
def rightEncode (n : Nat) : List Byte := fewBytes n ++ toLe 1 (fewBytes n).length
def encodeString (bs : List Byte) : List Byte := leftEncode (8 * bs.length) ++ bs
def bytePad (bs : List Byte) : List Byte :=
  let x := leftEncode 136 ++ bs
  x ++ List.replicate ((136 - x.length % 136) % 136) 0#8

/-- "KMAC" and "IKISAN". -/
def kmacName : List Byte := [0x4B, 0x4D, 0x41, 0x43]
def ikisanName : List Byte := [0x49, 0x4B, 0x49, 0x53, 0x41, 0x4E]

/-- The first 32 bytes of KMAC256 under a key, for an output of `bits` bits and a customisation string (PRESUMED, SP 800-185; log 10). -/
def kmac256 (key bs : List Byte) (bits : Nat) (custom : List Byte) : List Byte :=
  sponge 0x04 (bytePad (encodeString kmacName ++ encodeString custom) ++ bytePad (encodeString key) ++ bs ++ rightEncode bits)

/-- R477: the tag of a message: 128 bits under the management key, customisation "IKISAN". -/
def kmac (key bs : List Byte) : List Byte := (kmac256 key bs 128 ikisanName).take 16

end Sys2Proof.Machine
end

