-- ==== Sys2Proof/Config.lean ====
section
/-! DEFINITION. The values that the manual leaves open: constants without a body (free values), so that
no proof can use a value of them, and values each implementation or each image fixes. -/

namespace Sys2Proof.Config

/-- FREE VALUE. A fresh unconstrained value for each count of `State.free` (log 5). -/
opaque freeValue : Nat → BitVec 64

/-- FREE VALUE. The result of special function `fn` (0 exp2 … 5 sigmoid) on an FP32 input outside the
special inputs of R82, which gives a maximum error and no result (log 6). -/
opaque sfu : Nat → F32 → F32

/-- FREE VALUE. The attention pipeline's FP32 score of a query row and a key row, its sum of a block's weights, and its
weighted sum of a value column: R83 and R84 give no order of adding within a block (log 6). -/
opaque apScore : List F32 → List F32 → F32
opaque apSum : List F32 → F32
opaque apMix : List F32 → List F32 → F32

/-- FREE VALUE. Whether VE_MAX and VE_MIN of two zeros of different sign answer operand a: R102 does not
say which zero (log 6). -/
opaque zeroTieFirst : Bool → F32 → F32 → Bool

/-- FREE VALUE. sin and cos of the fixed table and polynomial of R333 (within 1 ulp), and atan2 of R331
(within 2 ulp): the table is not in the manual (log 6). -/
opaque sinF32 : F32 → F32
opaque cosF32 : F32 → F32
opaque atan2F32 : F32 → F32 → F32

/-- FREE VALUE. The Q1.14 table of sine and cosine of every heading: the manual does not say how it is rounded (R356; log 6). -/
opaque sinHeading : Nat → Int
opaque cosHeading : Nat → Int

/-- FREE VALUE. Planner values that the manual leaves open: the point that a lantern's stop profile holds when no point of its record remains (the
edition's pose, which it has not; R369, R415), the time of the start node of a PLAN_REQ (edition; R365), the cost
field of a cost of 2^32 or more (R372), the anchor of a record without points (R372), the final cost of a partial path (its g and heuristic; R370), and the place and heading of a point that lies before the first box of its path (ms
before it, and the box; R373). -/
opaque lanternPose : List Byte → Int × Int × Nat
opaque requestStartMs : Nat → Nat
opaque wideCost : Nat → Nat
opaque partialCost : Nat → Nat → Nat
opaque emptyAnchor : Int × Int
opaque leadPoint : Nat → Int → Int → Nat → Int × Int × Nat

/-- FREE VALUE. Event code, source block, unit code, severity and detail layout of the ledger event with index `n`: fixed by the
event table of the MPF image, not by the manual (R514; log 9). -/
opaque eventNumber : Nat → BitVec 10
opaque eventBlock : Nat → BitVec 6
opaque eventUnit : Nat → BitVec 8
opaque eventSeverity : Nat → BitVec 3
opaque eventDetail : Nat → List Nat → List Byte
/-- FREE VALUE. The detail-field descriptors of the event table (R514). -/
opaque eventFields : Nat → List (Nat × Nat × Nat)

/-- FREE VALUE. Whether an XMSS-SHAKE256_20_256 signature verifies: public key, message, signature
(R481, R492; the standard's function, log 10). -/
opaque xmssVerify : List Byte → List Byte → List Byte → Bool
/-- FREE VALUE. The XMSS^MT signature of hub `h` at an index over a message (R489, R491; log 10). -/
opaque xmssmtSign : Nat → Nat → List Byte → List Byte

/-- FREE VALUE. The certificate of hub `h` (R489). -/
opaque certificate : Nat → List Byte
/-- FREE VALUE. The 16 B unique ID of the die with code `d` (R489, R491). -/
opaque uniqueId : Nat → List Byte
/-- FREE VALUE. The cause code that a lantern shows when the fault manager asks for safe state (R424). -/
opaque managerCause : Nat
/-- FREE VALUE. FACTORY calibration: thermal constants k[h] in millionths and tau[h] in µs (R449, R487), the step
factor × 1,000 (R448), and the bytes of the partition. -/
opaque thermalK : Nat → Nat
opaque thermalTau : Nat → Nat
opaque stepFactor : Nat
opaque factoryByte : Nat → Byte
/-- FREE VALUE. The fused voltage table (R442): die code, step in 100 MHz, hot (105 °C) or not (25 °C); mV. -/
opaque voltageTable : Nat → Nat → Bool → Nat
/-- FREE VALUE. The model of the power of rails 6 … 12 formed from the activity counters (R444), in 0.1 W: the first
argument counts uses (`State.free`). -/
opaque otherRailPower : Nat → Nat → Nat
/-- FREE VALUE. The step in 100 MHz that level 2 gives a cluster of safety-relevant stations (R450: the forecast of the hand-over); the
first argument counts uses. -/
opaque deadlineStep : Nat → Nat → Nat
/-- FREE VALUE. The predicted package power of a level in a bin (R449), in 0.1 W: the manual gives what goes
in and no formula; the first argument counts uses (log 6). -/
opaque predictedPower : Nat → Nat → Nat → Nat

/-- FREE VALUE. The image of a kind that a device carries in its slot A as manufactured, header and payload (R475, R481). -/
opaque factoryImage : Nat → Nat → Byte
/-- FREE VALUE. The bytes of the sticky region whose layout the manual does not give (R473): hub, use count, offset. -/
opaque stickyByte : Nat → Nat → Nat → Byte
/-- FREE VALUE. MGT_NET_IP and MGT_NET_CFG as the FACTORY partition, and a USER partition that holds them, give them (R487): the manual
does not say where they lie. -/
opaque factoryNet : Nat → Word
opaque userNet : List Byte → Nat → Option Word

/-- FREE VALUE. The layout of an Ikisan body where the manual names its fields and gives no layout (R479; log 48): offset and size of field
`f` of a request of a type, where its data begins, and the reply's body from its items in the order of the manual. -/
opaque ikisanField : Nat → Nat → Nat × Nat
opaque ikisanData : Nat → Nat
opaque ikisanReply : Nat → List (List Byte) → List Byte
/-- FREE VALUE. The first 64 KiB of the USER partition, whose layout the manual does not give (R487): the first argument counts uses. -/
opaque userByte : Nat → Nat → Byte

/-- FREE VALUE. Class, feature level and stepping fused into the die with a code: bits [15:0] of its identity word (R231, R236). -/
opaque dieFuse : Nat → BitVec 16
/-- FREE VALUE. The SHAKE256 hash that an OTP vendor key slot holds; empty for a slot that is not programmed (R482). -/
opaque vendorKey : Nat → List Byte
/-- FREE VALUE. The size of an LNF slot in a lantern's flash, which the manual does not give (R382, R481). -/
opaque lnfSlotBytes : Nat

end Sys2Proof.Config
end

