-- ==== Sys2Proof/Machine/Numbers.lean ====
section
/-! DEFINITION. Formats, conversion and FP32 arithmetic of *Numbers, scales and code-product tables*
(R32 … R37): every value is decoded exactly, the operation is exact, and one RNE rounding follows. -/

namespace Sys2Proof.Machine

/-- The element formats of R32 and R100. -/
inductive Fmt where
  | none | int4 | int8 | code4 | code3 | e4m3 | e5m2 | bf16 | fp16 | fp32 | int32
  deriving DecidableEq, Repr

/-- R100: the format codes; 0xB … 0xF are reserved. -/
def Fmt.ofCode (c : Nat) : Option Fmt :=
  match c with
  | 0 => some .none | 1 => some .int4 | 2 => some .int8 | 3 => some .code4 | 4 => some .code3
  | 5 => some .e4m3 | 6 => some .e5m2 | 7 => some .bf16 | 8 => some .fp16 | 9 => some .fp32
  | 10 => some .int32 | _ => Option.none

/-- R100, the other way. -/
def Fmt.code : Fmt → Nat
  | .none => 0 | .int4 => 1 | .int8 => 2 | .code4 => 3 | .code3 => 4 | .e4m3 => 5 | .e5m2 => 6
  | .bf16 => 7 | .fp16 => 8 | .fp32 => 9 | .int32 => 10

/-- R32: the width of an element in bits. -/
def Fmt.bits : Fmt → Nat
  | .none => 0 | .int4 => 4 | .int8 => 8 | .code4 => 4 | .code3 => 3 | .e4m3 => 8 | .e5m2 => 8
  | .bf16 => 16 | .fp16 => 16 | .fp32 => 32 | .int32 => 32

/-- The floating-point formats of R32. -/
def Fmt.isFloat : Fmt → Bool
  | .e4m3 | .e5m2 | .bf16 | .fp16 | .fp32 => true
  | _ => false

/-- An 8-bit or 4-bit format, whose extreme codes the fit monitor counts (R58). -/
def Fmt.isNarrow : Fmt → Bool
  | .int4 | .int8 | .e4m3 | .e5m2 => true
  | _ => false

/-- A decoded value: NaN, an infinity, or exactly (−1)^neg × mant × 2^exp (mant 0: a signed zero). -/
inductive FVal where
  | nan
  | inf (neg : Bool)
  | fin (neg : Bool) (mant : Nat) (exp : Int)
  deriving DecidableEq, Repr

/-- The parameters of a binary format: mantissa bits, exponent bits, bias. -/
structure FloatLayout where
  mbits : Nat
  ebits : Nat
  bias : Nat
  deriving DecidableEq, Repr

/-- R32: the layouts of the floating-point formats. -/
def Fmt.layout : Fmt → FloatLayout
  | .e4m3 => ⟨3, 4, 7⟩
  | .e5m2 => ⟨2, 5, 15⟩
  | .fp16 => ⟨10, 5, 15⟩
  | .bf16 => ⟨7, 8, 127⟩
  | _ => ⟨23, 8, 127⟩

/-- The exponent of the smallest subnormal's unit: 1 − bias − mbits. -/
def FloatLayout.emin (l : FloatLayout) : Int := 1 - (l.bias : Int) - (l.mbits : Int)

/-- The two's-complement value of the low `n` bits of `x`. -/
def signedOf (n x : Nat) : Int :=
  let v := x % 2 ^ n
  if v < 2 ^ (n - 1) then (v : Int) else (v : Int) - (2 ^ n : Nat)

/-- The `n`-bit two's-complement pattern of an integer, wrapping. -/
def wrapTo (n : Nat) (v : Int) : Nat := (v % ((2 ^ n : Nat) : Int)).toNat

/-- An integer as a value. -/
def FVal.ofInt (v : Int) : FVal := .fin (v < 0) v.natAbs 0

/-- Decode a floating-point pattern (R32, R33: subnormals are values). E4M3 has no infinity and one NaN
magnitude; the other formats follow IEEE 754. -/
def decodeFloat (f : Fmt) (x : Nat) : FVal :=
  let l := f.layout
  let man := x % 2 ^ l.mbits
  let ex := x / 2 ^ l.mbits % 2 ^ l.ebits
  let neg := x / 2 ^ (l.mbits + l.ebits) % 2 == 1
  if f = .e4m3 && ex == 15 && man == 7 then .nan
  else if f ≠ .e4m3 && ex == 2 ^ l.ebits - 1 then (if man == 0 then .inf neg else .nan)
  else if ex == 0 then .fin neg man l.emin
  else .fin neg (man + 2 ^ l.mbits) (l.emin + (ex : Int) - 1)

/-- Decode an element of any format of R32. A code is an unsigned index. -/
def decodeElem (f : Fmt) (x : Nat) : FVal :=
  match f with
  | .int4 => .ofInt (signedOf 4 x)
  | .int8 => .ofInt (signedOf 8 x)
  | .int32 => .ofInt (signedOf 32 x)
  | .code4 => .fin false (x % 16) 0
  | .code3 => .fin false (x % 8) 0
  | .none => .fin false 0 0
  | g => decodeFloat g x

/-- R32: E8M0 encodes 2^(E − 127); 0xFF is NaN. -/
def decodeE8M0 (x : Nat) : FVal :=
  if x % 256 == 255 then .nan else .fin false 1 ((x % 256 : Nat) - 127 : Int)

/-- R34: the canonical NaN of a format. -/
def canonicalNaN : Fmt → Nat
  | .e4m3 => 0x7F | .e5m2 => 0x7F | .fp16 => 0x7E00 | .bf16 => 0x7FC0 | _ => 0x7FC00000

/-- RNE of mant × 2^exp to a multiple of 2^q: the multiplier. `sticky` says that the exact value is a
little above mant × 2^exp (for quotients and roots). -/
def rneShift (mant : Nat) (exp q : Int) (sticky : Bool) : Nat :=
  if q ≤ exp then mant * 2 ^ (exp - q).toNat
  else
    let sh := (q - exp).toNat
    let fl := mant / 2 ^ sh
    let rem := mant % 2 ^ sh
    let half := 2 ^ (sh - 1)
    if rem > half || (rem == half && (sticky || fl % 2 == 1)) then fl + 1 else fl

/-- Round a magnitude to the precision of a layout: (mant', q) with mant' < 2^(mbits+1) × 2. -/
def roundMag (l : FloatLayout) (mant : Nat) (exp : Int) (sticky : Bool) : Nat × Int :=
  if mant == 0 then (0, l.emin) else
    let len : Int := (Nat.log2 mant + 1 : Nat)
    let q := max (exp + len - ((l.mbits + 1 : Nat) : Int)) l.emin
    let r := rneShift mant exp q sticky
    if r ≥ 2 ^ (l.mbits + 1) then (r / 2, q + 1) else (r, q)

/-- Pack a rounded magnitude; the exponent field may exceed the format (the caller saturates first). -/
def packFloat (l : FloatLayout) (neg : Bool) (mant : Nat) (q : Int) : Nat :=
  let s := if neg then 2 ^ (l.mbits + l.ebits) else 0
  if mant < 2 ^ l.mbits then s + mant
  else s + (q - l.emin + 1).toNat * 2 ^ l.mbits + (mant - 2 ^ l.mbits)

/-- R32: the largest finite value of a format, as (mantissa, exponent) of its unit. -/
def largestFinite : Fmt → Nat
  | .e4m3 => 0x7E | .e5m2 => 0x7B | .fp16 => 0x7BFF | .bf16 => 0x7F7F | _ => 0x7F7FFFFF

/-- The bits of an infinity (formats that have one). -/
def infBits (f : Fmt) (neg : Bool) : Nat :=
  let l := f.layout
  (if neg then 2 ^ (l.mbits + l.ebits) else 0) + (2 ^ l.ebits - 1) * 2 ^ l.mbits

/-- FP32 rounding of an exact value; overflow gives an infinity (R37: infinities follow IEEE 754). -/
def roundF32 (v : FVal) (sticky : Bool := false) : F32 :=
  match v with
  | .nan => BitVec.ofNat 32 (canonicalNaN .fp32)
  | .inf n => BitVec.ofNat 32 (infBits .fp32 n)
  | .fin n m e =>
    let l := Fmt.fp32.layout
    let (m', q) := roundMag l m e sticky
    let b := packFloat l false m' q
    if b > largestFinite .fp32 then BitVec.ofNat 32 (infBits .fp32 n)
    else BitVec.ofNat 32 (b + if n then 2 ^ 31 else 0)

/-- The value of an FP32 pattern. -/
def f32Val (x : F32) : FVal := decodeFloat .fp32 x.toNat

/-- Exact product (R37: zero times infinity is NaN; R33: the sign of a zero is kept). -/
def FVal.mul : FVal → FVal → FVal
  | .nan, _ => .nan
  | _, .nan => .nan
  | .inf a, .inf b => .inf (a != b)
  | .inf a, .fin b m _ => if m == 0 then .nan else .inf (a != b)
  | .fin a m _, .inf b => if m == 0 then .nan else .inf (a != b)
  | .fin a m e, .fin b n f => .fin (a != b) (m * n) (e + f)

/-- Exact sum (R33: +0 plus −0 is +0; R37: +∞ plus −∞ is NaN). -/
def FVal.add : FVal → FVal → FVal
  | .nan, _ => .nan
  | _, .nan => .nan
  | .inf a, .inf b => if a == b then .inf a else .nan
  | .inf a, .fin _ _ _ => .inf a
  | .fin _ _ _, .inf b => .inf b
  | .fin a m e, .fin b n f =>
    let q := min e f
    let x : Int := (m * 2 ^ (e - q).toNat : Nat)
    let y : Int := (n * 2 ^ (f - q).toNat : Nat)
    let s := (if a then -x else x) + (if b then -y else y)
    if s == 0 then .fin (a && b) 0 q else .fin (s < 0) s.natAbs q

/-- The negated value. -/
def FVal.neg : FVal → FVal
  | .nan => .nan
  | .inf a => .inf (!a)
  | .fin a m e => .fin (!a) m e

/-- The exact quotient of finite non-zero magnitudes, to 64 extra bits, with its sticky mark. -/
def divMag (m : Nat) (e : Int) (n : Nat) (f : Int) : Nat × Int × Bool :=
  let sh := 64 + Nat.log2 n + 1
  let num := m * 2 ^ sh
  (num / n, e - f - (sh : Int), num % n != 0)

/-- FP32 sum, RNE. -/
def fadd (a b : F32) : F32 := roundF32 ((f32Val a).add (f32Val b))
/-- FP32 difference, RNE. -/
def fsub (a b : F32) : F32 := roundF32 ((f32Val a).add (f32Val b).neg)
/-- FP32 product, RNE. -/
def fmul (a b : F32) : F32 := roundF32 ((f32Val a).mul (f32Val b))
/-- Fused multiply-add, rounded once (R51, R81). -/
def ffma (a b c : F32) : F32 := roundF32 (((f32Val a).mul (f32Val b)).add (f32Val c))

/-- FP32 quotient, correctly rounded (R331). -/
def fdiv (a b : F32) : F32 :=
  match f32Val a, f32Val b with
  | .nan, _ => roundF32 .nan
  | _, .nan => roundF32 .nan
  | .inf _, .inf _ => roundF32 .nan
  | .inf s, .fin t _ _ => roundF32 (.inf (s != t))
  | .fin s _ _, .inf t => roundF32 (.fin (s != t) 0 0)
  | .fin s m e, .fin t n f =>
    if n == 0 then (if m == 0 then roundF32 .nan else roundF32 (.inf (s != t)))
    else if m == 0 then roundF32 (.fin (s != t) 0 0)
    else
      let (q, x, st) := divMag m e n f
      roundF32 (.fin (s != t) q x) st

/-- The integer square root: the greatest r with r × r ≤ n, by `fuel` binary digits. -/
def isqrtAux (n : Nat) : Nat → Nat → Nat
  | 0, r => r
  | k + 1, r => if (r + 2 ^ k) * (r + 2 ^ k) ≤ n then isqrtAux n k (r + 2 ^ k) else isqrtAux n k r

/-- The integer square root of `n`. -/
def isqrt (n : Nat) : Nat := isqrtAux n (Nat.log2 n / 2 + 1) 0

/-- FP32 square root, correctly rounded (R331). -/
def fsqrt (a : F32) : F32 :=
  match f32Val a with
  | .nan => roundF32 .nan
  | .inf n => if n then roundF32 .nan else roundF32 (.inf false)
  | .fin n m e =>
    if m == 0 then a
    else if n then roundF32 .nan
    else
      let x := if e % 2 == 0 then m * 2 ^ 64 else m * 2 ^ 65
      let y := if e % 2 == 0 then e - 64 else e - 65
      let r := isqrt x
      roundF32 (.fin false r (y / 2)) (r * r != x)

/-- An exact value rounded to FP64, RNE (R315). -/
def r64 (v : FVal) (sticky : Bool := false) : FVal :=
  match v with
  | .fin n m e => let (m', q) := roundMag ⟨52, 11, 1023⟩ m e sticky; .fin n m' q
  | x => x

/-- FP64 quotient, RNE; a divisor of 0 gives NaN or an infinity. -/
def div64 (a b : FVal) : FVal :=
  match a, b with
  | .fin s m e, .fin t n f =>
    if n = 0 then (if m = 0 then .nan else .inf (s != t))
    else if m = 0 then .fin (s != t) 0 0
    else
      let (q, x, st) := divMag m e n f
      r64 (.fin (s != t) q x) st
  | _, _ => .nan

/-- The sign of an exact difference: a < b on values that are not NaN. -/
def FVal.lt : FVal → FVal → Bool
  | .nan, _ => false
  | _, .nan => false
  | .inf a, .inf b => a && !b
  | .inf a, .fin _ _ _ => a
  | .fin _ _ _, .inf b => !b
  | .fin a m e, .fin b n f =>
    let q := min e f
    let x : Int := (m * 2 ^ (e - q).toNat : Nat)
    let y : Int := (n * 2 ^ (f - q).toNat : Nat)
    decide ((if a then -x else x) < (if b then -y else y))

/-- FP32 a < b. -/
def flt (a b : F32) : Bool := (f32Val a).lt (f32Val b)
/-- The pattern is a NaN. -/
def fisNaN (a : F32) : Bool := f32Val a == .nan
/-- FP32 a ≤ b. -/
def fle (a b : F32) : Bool := !fisNaN a && !fisNaN b && !flt b a

/-- The canonical FP32 NaN (R34). -/
def f32NaN : F32 := 0x7FC00000#32
/-- FP32 1.0. -/
def f32One : F32 := 0x3F800000#32
/-- FP32 +∞ and −∞. -/
def f32Inf (neg : Bool) : F32 := BitVec.ofNat 32 (infBits .fp32 neg)

/-- R102: max of two values; a NaN operand gives NaN. Zeros of different sign: log 6. -/
def fmax (a b : F32) : F32 :=
  if fisNaN a || fisNaN b then f32NaN
  else if flt a b then b
  else if flt b a then a
  else if a == b then a
  else if Config.zeroTieFirst true a b then a else b

/-- R102: min of two values; a NaN operand gives NaN. -/
def fmin (a b : F32) : F32 :=
  if fisNaN a || fisNaN b then f32NaN
  else if flt a b then a
  else if flt b a then b
  else if a == b then a
  else if Config.zeroTieFirst false a b then a else b

/-- Round an exact value to an integer, ties to even. -/
def FVal.toIntRNE : FVal → Int
  | .nan => 0
  | .inf _ => 0
  | .fin n m e => let r : Int := rneShift m e 0 false; if n then -r else r

/-- The result of a conversion of R36: the pattern, and which counters it increments. -/
structure Conv where
  bits : Nat
  sat : Bool := false
  nan : Bool := false
  deriving DecidableEq, Repr

/-- R36: saturating conversion of an exact FP32 value to an n-bit integer. -/
def convertInt (n : Nat) (v : FVal) : Conv :=
  let hi : Int := 2 ^ (n - 1) - 1
  let lo : Int := -2 ^ (n - 1)
  match v with
  | .nan => { bits := 0, nan := true }
  | .inf neg => { bits := wrapTo n (if neg then lo else hi), sat := true }
  | x =>
    let r := x.toIntRNE
    if r > hi then { bits := wrapTo n hi, sat := true }
    else if r < lo then { bits := wrapTo n lo, sat := true }
    else { bits := wrapTo n r }

/-- R36: conversion of an exact value to a narrower floating-point format; overflow is decided after
rounding and saturates to the largest finite value. -/
def convertFloat (f : Fmt) (v : FVal) : Conv :=
  let l := f.layout
  let sgn (n : Bool) : Nat := if n then 2 ^ (l.mbits + l.ebits) else 0
  match v with
  | .nan => { bits := canonicalNaN f, nan := true }
  | .inf n => { bits := largestFinite f + sgn n, sat := true }
  | .fin n m e =>
    let (m', q) := roundMag l m e false
    let b := packFloat l false m' q
    if b > largestFinite f then { bits := largestFinite f + sgn n, sat := true }
    else { bits := b + sgn n }

/-- R36: FP32 to a format. An FP32 result that is itself the output format is not converted and keeps
its infinities; its NaNs are canonical (R34). -/
def convert (f : Fmt) (x : F32) : Conv :=
  match f with
  | .int4 => convertInt 4 (f32Val x)
  | .int8 => convertInt 8 (f32Val x)
  | .int32 => convertInt 32 (f32Val x)
  | .e4m3 | .e5m2 | .fp16 | .bf16 => convertFloat f (f32Val x)
  | .fp32 => if fisNaN x then { bits := canonicalNaN .fp32, nan := true } else { bits := x.toNat }
  | .none | .code4 | .code3 => { bits := 0 }

/-- R36: any narrower format to FP32, exact; INT32 to FP32 by RNE. -/
def widen (f : Fmt) (x : Nat) : F32 := roundF32 (decodeElem f x)

/-- R36: any format to any format by way of FP32. -/
def convertFrom (src dst : Fmt) (x : Nat) : Conv :=
  if src = dst then
    (if dst.isFloat && decodeElem src x == .nan then { bits := canonicalNaN dst, nan := true }
     else { bits := x % 2 ^ dst.bits })
  else
    let c := convert dst (widen src x)
    { c with nan := c.nan || decodeElem src x == .nan }

/-- R58: an extreme code of an 8-bit or 4-bit format. -/
def extremeCode (f : Fmt) (x : Nat) : Bool :=
  match f with
  | .int8 => x % 256 == 127 || x % 256 == 128
  | .int4 => x % 16 == 7 || x % 16 == 8
  | .e4m3 => x % 128 == 0x7E
  | .e5m2 => x % 128 == 0x7B
  | _ => false

/-- INT32 addition that wraps, and whether it overflowed (R48). -/
def addWrap32 (a b : Int) : Int × Bool :=
  let s := a + b
  let w := signedOf 32 (wrapTo 32 s)
  (w, w != s)

/-! ### Sines and cosines of whole 0.01° (R283) -/

/-- π × 2^200, rounded down. -/
def piFixed : Nat := 5048344754617993871973410141242436836214643421488662971535368

/-- The alternating series of sine or cosine in units of 2^−200: `t` is the term, and the next one is t × x² ÷ (k (k + 1)). -/
def trigSeries (fuel k x2 t : Nat) : Int :=
  match fuel with
  | 0 => 0
  | fuel + 1 => (t : Int) - trigSeries fuel (k + 2) x2 (t * x2 / 2 ^ 200 / (k * (k + 1)))

/-- The sine of `r` × 0.01° in units of 2^−200, r ≤ 9,000: its error is below 2^−190, and no value of the table lies as near to the middle of
two FP32 numbers. -/
def sinQuarter (r : Nat) : Nat :=
  let q := if r ≤ 4500 then r else 9000 - r
  let x := q * piFixed / 18000
  let x2 := x * x / 2 ^ 200
  (if r ≤ 4500 then trigSeries 32 2 x2 x else trigSeries 32 1 x2 (2 ^ 200)).toNat

/-- The table of R283: the FP32 value (RNE) of the sine of `a` × 0.01°. A sine of zero is +0. -/
def sinCentidegree (a : Int) : F32 :=
  let n := (a % 36000).toNat
  let r := n % 9000
  let m := sinQuarter (if n / 9000 % 2 = 0 then r else 9000 - r)
  roundF32 (.fin (decide (18000 < n)) m (-200))

/-- And of the cosine: cos a = sin (a + 90°). -/
def cosCentidegree (a : Int) : F32 := sinCentidegree (a + 9000)

end Sys2Proof.Machine
end

