-- ==== Sys2Proof/Machine/Events.lean ====
section
/-! DEFINITION. The ledger events by the names the manual gives them (R514: numbers, severities and layouts come
from the event table of the MPF image, not from the manual). -/

namespace Sys2Proof.Machine

/-- A ledger event (R470, R514). -/
inductive Event where
  | SETUP_LOCKED | REG_ACCESS_BAD | BUNDLE_DIGEST | WIDEN_POLICY_CONFLICT | NAN_SEEN
  | CALIB_DRIFT | CORE_STORE_UE | CORE_CE_STORM | CORE_ENGINE_PARITY | CORE_ADDR_ERR
  | CORE_TE_RECORD | CORE_SEQ_ERR | FRAME_TIMEOUT | STATION_STALL | STATE_RESET
  | BUFFER_REHOMED | FOLD_START | FOLD_DONE | GRAPH_UNPLACEABLE | GRAPH_DROPPED
  | ARCHIVE_DIGEST | CAT_COUNT_ERR | SEQ_LOST | SHELF_POOL_RESET | HBM_CE
  | HBM_UE | HBM_ROW_GLINT | HBM_ROW_LASTING | HBM_ROW_REPAIRED | HBM_PAGE_RETIRED
  | HBM_CA_REPLAY | HBM_PC_FENCED | HBM_REFRESH_RATE | HBM_SCRUB_DONE | HBM_SET_ABSENT
  | HBM_STACK_FAIL | IMAGE_COPY_LOST | RC_WAY_DISABLED | MESH_PARITY | D2D_LINK_DOWN
  | D2D_LINK_FENCED | D2D_LINK_MARGINAL | D2D_LINK_GLINT | D2D_ROLE_MISMATCH | D2D_WIDTH_REDUCED
  | D2D_SIDEBAND_TIMEOUT | LINK_WIDTH_MISMATCH | DIE_CLASS_MISMATCH | HIF_WINDOW | CQ_FULL
  | SAMPLE_PLACEHOLDER | STREAM_SILENT | STREAM_ADRIFT | REF_CHANGE | NO_REFERENCE
  | SET_DROPPED | EGO_MISSING | CONTRADICTION | ROADMAP_REFUSED | ROADMAP_DIGEST
  | ROADMAP_LOST | EDITION_BAD | PLAN_MISMATCH | GLINT | LASTING
  | SHADOW_DISAGREE | LANTERN_DISAGREE | LAN_CLOCK_SPLIT | SELFTEST_STARVED | VERDICT_LATE
  | CHECK_MISMATCH | FAULT_ASSERTED | FAULT_RELEASED | PROMISE_CHANGE | SAFETY_BIST_FAIL
  | LANTERN_ABSENT | BOOT_STOPPED | CAL_FACTORY_BAD | DIE_REJOIN_FAIL | POWER_OFF_REQ
  | TWIN_LOST | TWIN_RESTORED | LINK_DEGRADED | ROLE_CHANGE | ROLE_CONFLICT
  | RAIL_PGOOD_LOW | AVS_FAIL | SENSOR_SPLIT | SENSOR_FAULT | TRAY_LOST
  | SHADE_CHANGE | FLOW_LOW | FLOW_LOSS | THERMAL_TRIP | LIFE_MARK
  | PRIMARY_ABSENT | MGT_TAKEOVER | MGT_DEMOTED | LEDGER_DROPPED | MGMT_AUTH_FAIL
  | IMAGE_REFUSED | UPDATE_FALLBACK | UPDATE_ABORTED | UPDATE_DIE_DONE | XMSS_STATE_FAIL
  | XMSS_EXHAUSTED | DEBUG_UNLOCKED | DEBUG_REFUSED | RESTORE_FACTORY
  deriving DecidableEq, Repr

/-- The name of an event. -/
def Event.name : Event → String
  | .SETUP_LOCKED => "SETUP_LOCKED"
  | .REG_ACCESS_BAD => "REG_ACCESS_BAD"
  | .BUNDLE_DIGEST => "BUNDLE_DIGEST"
  | .WIDEN_POLICY_CONFLICT => "WIDEN_POLICY_CONFLICT"
  | .NAN_SEEN => "NAN_SEEN"
  | .CALIB_DRIFT => "CALIB_DRIFT"
  | .CORE_STORE_UE => "CORE_STORE_UE"
  | .CORE_CE_STORM => "CORE_CE_STORM"
  | .CORE_ENGINE_PARITY => "CORE_ENGINE_PARITY"
  | .CORE_ADDR_ERR => "CORE_ADDR_ERR"
  | .CORE_TE_RECORD => "CORE_TE_RECORD"
  | .CORE_SEQ_ERR => "CORE_SEQ_ERR"
  | .FRAME_TIMEOUT => "FRAME_TIMEOUT"
  | .STATION_STALL => "STATION_STALL"
  | .STATE_RESET => "STATE_RESET"
  | .BUFFER_REHOMED => "BUFFER_REHOMED"
  | .FOLD_START => "FOLD_START"
  | .FOLD_DONE => "FOLD_DONE"
  | .GRAPH_UNPLACEABLE => "GRAPH_UNPLACEABLE"
  | .GRAPH_DROPPED => "GRAPH_DROPPED"
  | .ARCHIVE_DIGEST => "ARCHIVE_DIGEST"
  | .CAT_COUNT_ERR => "CAT_COUNT_ERR"
  | .SEQ_LOST => "SEQ_LOST"
  | .SHELF_POOL_RESET => "SHELF_POOL_RESET"
  | .HBM_CE => "HBM_CE"
  | .HBM_UE => "HBM_UE"
  | .HBM_ROW_GLINT => "HBM_ROW_GLINT"
  | .HBM_ROW_LASTING => "HBM_ROW_LASTING"
  | .HBM_ROW_REPAIRED => "HBM_ROW_REPAIRED"
  | .HBM_PAGE_RETIRED => "HBM_PAGE_RETIRED"
  | .HBM_CA_REPLAY => "HBM_CA_REPLAY"
  | .HBM_PC_FENCED => "HBM_PC_FENCED"
  | .HBM_REFRESH_RATE => "HBM_REFRESH_RATE"
  | .HBM_SCRUB_DONE => "HBM_SCRUB_DONE"
  | .HBM_SET_ABSENT => "HBM_SET_ABSENT"
  | .HBM_STACK_FAIL => "HBM_STACK_FAIL"
  | .IMAGE_COPY_LOST => "IMAGE_COPY_LOST"
  | .RC_WAY_DISABLED => "RC_WAY_DISABLED"
  | .MESH_PARITY => "MESH_PARITY"
  | .D2D_LINK_DOWN => "D2D_LINK_DOWN"
  | .D2D_LINK_FENCED => "D2D_LINK_FENCED"
  | .D2D_LINK_MARGINAL => "D2D_LINK_MARGINAL"
  | .D2D_LINK_GLINT => "D2D_LINK_GLINT"
  | .D2D_ROLE_MISMATCH => "D2D_ROLE_MISMATCH"
  | .D2D_WIDTH_REDUCED => "D2D_WIDTH_REDUCED"
  | .D2D_SIDEBAND_TIMEOUT => "D2D_SIDEBAND_TIMEOUT"
  | .LINK_WIDTH_MISMATCH => "LINK_WIDTH_MISMATCH"
  | .DIE_CLASS_MISMATCH => "DIE_CLASS_MISMATCH"
  | .HIF_WINDOW => "HIF_WINDOW"
  | .CQ_FULL => "CQ_FULL"
  | .SAMPLE_PLACEHOLDER => "SAMPLE_PLACEHOLDER"
  | .STREAM_SILENT => "STREAM_SILENT"
  | .STREAM_ADRIFT => "STREAM_ADRIFT"
  | .REF_CHANGE => "REF_CHANGE"
  | .NO_REFERENCE => "NO_REFERENCE"
  | .SET_DROPPED => "SET_DROPPED"
  | .EGO_MISSING => "EGO_MISSING"
  | .CONTRADICTION => "CONTRADICTION"
  | .ROADMAP_REFUSED => "ROADMAP_REFUSED"
  | .ROADMAP_DIGEST => "ROADMAP_DIGEST"
  | .ROADMAP_LOST => "ROADMAP_LOST"
  | .EDITION_BAD => "EDITION_BAD"
  | .PLAN_MISMATCH => "PLAN_MISMATCH"
  | .GLINT => "GLINT"
  | .LASTING => "LASTING"
  | .SHADOW_DISAGREE => "SHADOW_DISAGREE"
  | .LANTERN_DISAGREE => "LANTERN_DISAGREE"
  | .LAN_CLOCK_SPLIT => "LAN_CLOCK_SPLIT"
  | .SELFTEST_STARVED => "SELFTEST_STARVED"
  | .VERDICT_LATE => "VERDICT_LATE"
  | .CHECK_MISMATCH => "CHECK_MISMATCH"
  | .FAULT_ASSERTED => "FAULT_ASSERTED"
  | .FAULT_RELEASED => "FAULT_RELEASED"
  | .PROMISE_CHANGE => "PROMISE_CHANGE"
  | .SAFETY_BIST_FAIL => "SAFETY_BIST_FAIL"
  | .LANTERN_ABSENT => "LANTERN_ABSENT"
  | .BOOT_STOPPED => "BOOT_STOPPED"
  | .CAL_FACTORY_BAD => "CAL_FACTORY_BAD"
  | .DIE_REJOIN_FAIL => "DIE_REJOIN_FAIL"
  | .POWER_OFF_REQ => "POWER_OFF_REQ"
  | .TWIN_LOST => "TWIN_LOST"
  | .TWIN_RESTORED => "TWIN_RESTORED"
  | .LINK_DEGRADED => "LINK_DEGRADED"
  | .ROLE_CHANGE => "ROLE_CHANGE"
  | .ROLE_CONFLICT => "ROLE_CONFLICT"
  | .RAIL_PGOOD_LOW => "RAIL_PGOOD_LOW"
  | .AVS_FAIL => "AVS_FAIL"
  | .SENSOR_SPLIT => "SENSOR_SPLIT"
  | .SENSOR_FAULT => "SENSOR_FAULT"
  | .TRAY_LOST => "TRAY_LOST"
  | .SHADE_CHANGE => "SHADE_CHANGE"
  | .FLOW_LOW => "FLOW_LOW"
  | .FLOW_LOSS => "FLOW_LOSS"
  | .THERMAL_TRIP => "THERMAL_TRIP"
  | .LIFE_MARK => "LIFE_MARK"
  | .PRIMARY_ABSENT => "PRIMARY_ABSENT"
  | .MGT_TAKEOVER => "MGT_TAKEOVER"
  | .MGT_DEMOTED => "MGT_DEMOTED"
  | .LEDGER_DROPPED => "LEDGER_DROPPED"
  | .MGMT_AUTH_FAIL => "MGMT_AUTH_FAIL"
  | .IMAGE_REFUSED => "IMAGE_REFUSED"
  | .UPDATE_FALLBACK => "UPDATE_FALLBACK"
  | .UPDATE_ABORTED => "UPDATE_ABORTED"
  | .UPDATE_DIE_DONE => "UPDATE_DIE_DONE"
  | .XMSS_STATE_FAIL => "XMSS_STATE_FAIL"
  | .XMSS_EXHAUSTED => "XMSS_EXHAUSTED"
  | .DEBUG_UNLOCKED => "DEBUG_UNLOCKED"
  | .DEBUG_REFUSED => "DEBUG_REFUSED"
  | .RESTORE_FACTORY => "RESTORE_FACTORY"

/-- Every event. -/
def Event.all : List Event :=
  [.SETUP_LOCKED, .REG_ACCESS_BAD, .BUNDLE_DIGEST, .WIDEN_POLICY_CONFLICT, .NAN_SEEN, .CALIB_DRIFT, .CORE_STORE_UE, .CORE_CE_STORM,
  .CORE_ENGINE_PARITY, .CORE_ADDR_ERR, .CORE_TE_RECORD, .CORE_SEQ_ERR, .FRAME_TIMEOUT, .STATION_STALL, .STATE_RESET,
  .BUFFER_REHOMED, .FOLD_START, .FOLD_DONE, .GRAPH_UNPLACEABLE, .GRAPH_DROPPED, .ARCHIVE_DIGEST, .CAT_COUNT_ERR, .SEQ_LOST,
  .SHELF_POOL_RESET, .HBM_CE] ++   [.HBM_UE, .HBM_ROW_GLINT, .HBM_ROW_LASTING, .HBM_ROW_REPAIRED, .HBM_PAGE_RETIRED, .HBM_CA_REPLAY,
  .HBM_PC_FENCED, .HBM_REFRESH_RATE, .HBM_SCRUB_DONE, .HBM_SET_ABSENT, .HBM_STACK_FAIL, .IMAGE_COPY_LOST, .RC_WAY_DISABLED,
  .MESH_PARITY, .D2D_LINK_DOWN, .D2D_LINK_FENCED, .D2D_LINK_MARGINAL, .D2D_LINK_GLINT, .D2D_ROLE_MISMATCH, .D2D_WIDTH_REDUCED,
  .D2D_SIDEBAND_TIMEOUT, .LINK_WIDTH_MISMATCH, .DIE_CLASS_MISMATCH, .HIF_WINDOW, .CQ_FULL] ++   [.SAMPLE_PLACEHOLDER,
  .STREAM_SILENT, .STREAM_ADRIFT, .REF_CHANGE, .NO_REFERENCE, .SET_DROPPED, .EGO_MISSING, .CONTRADICTION, .ROADMAP_REFUSED,
  .ROADMAP_DIGEST, .ROADMAP_LOST, .EDITION_BAD, .PLAN_MISMATCH, .GLINT, .LASTING, .SHADOW_DISAGREE, .LANTERN_DISAGREE,
  .LAN_CLOCK_SPLIT, .SELFTEST_STARVED, .VERDICT_LATE, .CHECK_MISMATCH, .FAULT_ASSERTED, .FAULT_RELEASED, .PROMISE_CHANGE,
  .SAFETY_BIST_FAIL] ++   [.LANTERN_ABSENT, .BOOT_STOPPED, .CAL_FACTORY_BAD, .DIE_REJOIN_FAIL, .POWER_OFF_REQ, .TWIN_LOST,
  .TWIN_RESTORED, .LINK_DEGRADED, .ROLE_CHANGE, .ROLE_CONFLICT, .RAIL_PGOOD_LOW, .AVS_FAIL, .SENSOR_SPLIT, .SENSOR_FAULT,
  .TRAY_LOST, .SHADE_CHANGE, .FLOW_LOW, .FLOW_LOSS, .THERMAL_TRIP, .LIFE_MARK, .PRIMARY_ABSENT, .MGT_TAKEOVER, .MGT_DEMOTED,
  .LEDGER_DROPPED, .MGMT_AUTH_FAIL] ++   [.IMAGE_REFUSED, .UPDATE_FALLBACK, .UPDATE_ABORTED, .UPDATE_DIE_DONE, .XMSS_STATE_FAIL,
  .XMSS_EXHAUSTED, .DEBUG_UNLOCKED, .DEBUG_REFUSED, .RESTORE_FACTORY]

end Sys2Proof.Machine
end

