-- ==== Sys2Proof/Machine/Registers.lean ====
section
/-! DEFINITION. The register maps of the manual (R109, R153, R195, R213, R236, R275, R276, R309, R344, R345, R381,
R417, R438, R463, R464, R493): names, offsets, access types, reset values, and the BAR0 layout of R241. -/

namespace Sys2Proof

/-- The block kinds, in the order of HIF_ERR_SUMMARY.blocks (R275). -/
inductive Block where
  | HIF | GFE | CORE | TDE | CAT | MC | RC | D2D | SIN | ALN | PRM | PLN | LAN | MIR | THM | PWR | MGT | SEC
  deriving DecidableEq, Repr

/-- The access types of R11. -/
inductive Access where
  | RO | RW | RWL | W1C | WO | RWS
  deriving DecidableEq, Repr

/-- Every register of the register maps, under its own name. -/
inductive Reg where
  | HIF_ID | HIF_STATUS | HIF_SETUP_LOCK | HIF_ERR_SUMMARY | HIF_ERR_VECTOR | HIF_NOTICE_RING
  | HIF_NOTICES_LOST | HIF_ERR_STATUS | HIF_ERR_ENABLE | HIF_ERR_FIRST | HIF_RESET_COUNT | HIF_PKTS_IN
  | HIF_PKTS_OUT | HIF_REJECTS | HIF_SQ_BASE_LO | HIF_SQ_BASE_HI | HIF_SQ_CFG | HIF_SQ_HEAD | HIF_SQ_TAIL
  | HIF_SQ_STATUS | HIF_SQ_RESTART | HIF_CQ_BASE_LO | HIF_CQ_BASE_HI | HIF_CQ_CFG | HIF_CQ_STAT_LO
  | HIF_CQ_STAT_HI | HIF_CQ_MOD | HIF_CQ_HEAD | HIF_CQ_TAIL | HIF_CQ_STATUS | MSIX_TABLE | MSIX_PBA
  | GFE_GRAPHS_LO | GFE_GRAPHS_HI | GFE_HELD | GFE_HELD_HI | GFE_GRAPH_SEL | GFE_GRAPH_CFG | GFE_GRAPH_NEXT
  | GFE_GRAPH_DELIVERED
  | CORE_ID | CORE_STATE | CORE_SEQ_PC | CORE_SLOTS | CORE_CLK | CORE_ERR_STATUS | CORE_ERR_ENABLE
  | CORE_ERR_FIRST | CORE_ERR_ADDR | CORE_ERR_STATION | CORE_CE_COUNT | CORE_UE_COUNT | CORE_ERR_INJECT
  | CORE_SCRUB_PERIOD | CORE_SCRUB_STATUS | CORE_STORE_STALL | CORE_TE_BUSY | CORE_VE_BUSY | CORE_AP_BUSY
  | CORE_DM_BUSY | CORE_SELFTEST | CORE_FIT_SEL | CORE_FIT_CFG | CORE_FIT_RATIO | CORE_FIT_SAT | CORE_FIT_OOR
  | CORE_FIT_WRAP | CORE_FIT_NAN | CORE_FIT_WIDEN | CORE_FIT_SKIPPED | CORE_FIT_DRIFT | CORE_FIT_CLEAR
  | TDE_ID | TDE_STATE | TDE_GRAPHS_LO | TDE_GRAPHS_HI | TDE_CARDS | TDE_FIRE_COUNT | TDE_STALL_COUNT
  | TDE_FOLD_COUNT | TDE_ERR_STATUS | TDE_ERR_ENABLE | TDE_LOAD_ERR | TDE_VERSION_BUMPS | TDE_TOKENS
  | TDE_GRAPH_SEL | TDE_GRAPH_STATUS | TDE_GRAPH_OPENED | TDE_GRAPH_DONE | TDE_GRAPH_WITHHELD
  | TDE_GRAPH_PLACEMENT
  | CAT_ID | CAT_STATE | CAT_REGION_BASE_LO | CAT_REGION_BASE_HI | CAT_ENTRIES_USED | CAT_ENTRIES_PEAK
  | CAT_RUNS_FREE | CAT_SEQ_LIVE | CAT_ERR_STATUS | CAT_ERR_ENABLE | CAT_ERR_HANDLE | CAT_ALLOC_FULL
  | CAT_ALLOC_SHORT | CAT_COW | CAT_PREEMPT | CAT_ARCHIVE_OUT | CAT_ARCHIVE_IN | CAT_EXHAUSTED | CAT_STALL_US
  | CAT_POOL_SEL | CAT_POOL_CFG | CAT_POOL_FREE | CAT_POOL_FRAMES | CAT_POOL_SPLIT | CAT_POOL_WAITERS
  | CAT_SEQ_SEL | CAT_SEQ_STATE | CAT_SEQ_LENGTH | CAT_SEQ_SHELVES
  | MC_ID | MC_STATE | MC_SET_AVAIL | MC_CAPACITY | MC_TEMP | MC_TRAIN_STATUS | MC_ERR_STATUS | MC_ERR_ENABLE
  | MC_ERR_ADDR_LO | MC_ERR_ADDR_HI | MC_CE_COUNT | MC_UE_COUNT | MC_CA_REPLAYS | MC_ROW_GLINTS
  | MC_ROW_REPAIRS | MC_RETIRED_COUNT | MC_RETIRED_SEL | MC_RETIRED_ADDR | MC_SCRUB_PERIOD | MC_SCRUB_POS
  | MC_SCRUB_PASSES | MC_RAW_WAITS | MC_PC_SEL | MC_PC_STATUS | MC_PC_CE | MC_PC_UE
  | RC_ID | RC_STATE | RC_CTRL | RC_LOOKUPS | RC_HITS | RC_STALE | RC_FILLS_DROPPED | RC_ERR_STATUS
  | RC_ERR_ENABLE | RC_CE_COUNT | RC_UE_COUNT | RC_WAYS_OFF | RC_TABLE_FULL
  | D2D_ID | D2D_FEATURE | D2D_ROUTE | D2D_ROLE | D2D_ERR_STATUS | D2D_ERR_ENABLE | D2D_ERR_FIRST | D2D_TEST
  | D2D_TEST_RESULT | D2D_PORT_SEL | D2D_PORT_STATUS | D2D_PORT_WIDTH | D2D_PORT_PEER_WIDTH
  | D2D_PORT_PEER_ID | D2D_PORT_RETRAINS | D2D_PORT_CRC_ERR | D2D_PORT_REPLAYS | D2D_PORT_TX_FLITS
  | D2D_PORT_RX_FLITS | D2D_PORT_GLINTS
  | SIN_ID | SIN_STATE | SIN_ARRIVAL_LO | SIN_ARRIVAL_HI | SIN_DEC_BUSY | SIN_ROB_USED | SIN_BUF_USED
  | SIN_ERR_STATUS | SIN_ERR_ENABLE | SIN_ERR_FIRST | SIN_CE_COUNT | SIN_P_CFG | SIN_P_STATUS | SIN_P_RX
  | SIN_P_CE | SIN_P_DROP | SIN_P_UNMATCHED | SIN_P_OVERFLOW | SIN_P_FILT | SIN_S_CFG | SIN_S_SIZE
  | SIN_S_RATIO | SIN_S_BUDGET_CAP | SIN_S_MEAN | SIN_S_BUF | SIN_S_SILENCE | SIN_S_SEED_LO | SIN_S_SEED_HI
  | SIN_S_BLACK | SIN_S_WB0 | SIN_S_WB1 | SIN_S_CCM0 | SIN_S_CCM1 | SIN_S_CCM2 | SIN_S_CCM3 | SIN_S_CCM4
  | SIN_S_PT | SIN_S_STAMP | SIN_S_INDEX_LO | SIN_S_INDEX_HI | SIN_S_SAMPLES | SIN_S_PLACEHOLDERS
  | SIN_S_STATUS | SIN_S_OVERRUNS | SIN_B_CFG | SIN_B_EDGES | SIN_B_BASE | SIN_B_SPOT | SIN_B_BAND
  | SIN_B_NORM | SIN_B_SCALE | SIN_B_AUG0 | SIN_B_AUG1 | SIN_B_SPOT_LO | SIN_B_SPOT_HI | SIN_B_SPOT_AGE
  | SIN_B_SAT | SIN_B_SPOT_MISSED
  | ALN_ID | ALN_STATE | ALN_ERR_STATUS | ALN_ERR_ENABLE | ALN_ERR_FIRST | ALN_CE_COUNT | ALN_EGO_YAW_ID
  | ALN_EGO_YAW_FMT | ALN_EGO_YAW_SCALE | ALN_EGO_SPEED_ID | ALN_EGO_SPEED_FMT | ALN_EGO_SPEED_SCALE
  | ALN_MERGE_CFG | ALN_MERGE_EDGES | ALN_MERGE_DONE | ALN_C_SEL | ALN_C_VALUE | ALN_G_CFG | ALN_G_MEMBERS
  | ALN_G_REF_ORDER | ALN_G_WAIT | ALN_G_PERIOD | ALN_G_REC_LO | ALN_G_REC_HI | ALN_G_STATUS | ALN_G_SETS
  | ALN_G_MISSING | ALN_G_DROPPED | ALN_G_REF_CHANGES | ALN_G_CONTRA_LIMIT | ALN_G_PERIOD_FIT | ALN_S_CFG
  | ALN_S_STATE | ALN_S_RATE | ALN_S_DEPART | ALN_S_ADRIFT | ALN_S_SURPLUS | ALN_S_LATE
  | PRM_ID | PRM_STATE | PRM_CFG | PRM_BEV_SIZE | PRM_BEV_CELL | PRM_BEV_ORIGIN_X | PRM_BEV_ORIGIN_Y
  | PRM_BEV_EDGE | PRM_ERR_STATUS | PRM_ERR_ENABLE | PRM_BEV_CAMS | PRM_PROJECTIONS | PRM_Z | PRM_C_CFG
  | PRM_C_SIZE | PRM_C_EXT | PRM_C_INTR | PRM_C_D | PRM_C_LIMIT | PRM_L_CFG | PRM_L_EXT | PRM_L_EDGES
  | PRM_L_POINTS
  | PLN_ID | PLN_STATE | PLN_CFG | PLN_SLICES | PLN_CHECK | PLN_WF | PLN_SEARCH | PLN_OUT | PLN_ERR_STATUS
  | PLN_ERR_ENABLE | PLN_ERR_FIRST | PLN_CE_COUNT | PLN_WINDOW | PLN_MAP_ID | PLN_MAP_NODES | PLN_MAP_EDGES
  | PLN_EDITION | PLN_EDITION_ROUND | PLN_WINDOW_EDGES | PLN_ROUNDS | PLN_RECHECKS | PLN_PARTIAL
  | PLN_FALLBACK | PLN_REVAL_FAIL | PLN_MISMATCH | PLN_LAST_EXPAND | PLN_LAST_FOUND | PLN_LAST_TIME
  | PLN_REQ_QUEUE
  | LAN_ID | LAN_STATE | LAN_CAUSE | LAN_PROMISE | LAN_CLOCK | LAN_SUPPLY | LAN_ERR_STATUS | LAN_ERR_ENABLE
  | LAN_ERR_FIRST | LAN_VERDICTS | LAN_LATE | LAN_MISMATCH | LAN_LAST_LAT | LAN_SHADOW_DISAGREE
  | LAN_COVERAGE | LAN_CHUNKS | LAN_ABORTS | LAN_PERIOD | LAN_LIMITS | LAN_FB_FRAME | LAN_FB_AGE
  | LAN_RECORD_NEXT | LAN_BIST
  | MIR_ID | MIR_STATE | MIR_CFG | MIR_MAC_LO | MIR_MAC_HI | MIR_PEER_MAC_LO | MIR_PEER_MAC_HI
  | MIR_RX_BASE_LO | MIR_ERR_STATUS | MIR_ERR_ENABLE | MIR_ERR_FIRST | MIR_RX_BASE_HI | MIR_TX_FRAMES
  | MIR_RX_FRAMES | MIR_RX_DROP | MIR_HB_AGE | MIR_PEER_HEALTH | MIR_PEER_FRAME | MIR_PEER_EDITION
  | MIR_PEER_BOOT | MIR_PEER_ID_LO | MIR_PEER_ID_HI | MIR_LOST_COUNT | MIR_DEGRADED_COUNT
  | THM_ID | THM_STATE | THM_CFG | THM_LIMIT | THM_FORECAST | THM_HBM_FORECAST | THM_R_EST | THM_SLOPE
  | THM_ERR_STATUS | THM_ERR_ENABLE | THM_ERR_FIRST | THM_INLET | THM_OUTLET | THM_FLOW | THM_SHADE_ENTRIES
  | THM_HS_SEL | THM_HS_TEMP | THM_HS_RAW | THM_HS_PEAK | THM_LIFE | THM_HOURS | THM_PCYCLES | THM_CYC_SEL
  | THM_CYC_COUNT
  | PWR_ID | PWR_STATE | PWR_PGOOD | PWR_ERR_STATUS | PWR_ERR_ENABLE | PWR_ERR_FIRST | PWR_CAP | PWR_PKG
  | PWR_ENERGY | PWR_RAIL_SEL | PWR_RAIL_V | PWR_RAIL_I | PWR_RAIL_P | PWR_RAIL_AVS
  | MGT_ID | MGT_STATE | MGT_BOOT_COUNT | MGT_TIME_LO | MGT_TIME_HI | MGT_LEDGER_NEXT_LO | MGT_LEDGER_NEXT_HI
  | MGT_LEDGER_OLDEST_LO | MGT_ERR_STATUS | MGT_ERR_ENABLE | MGT_ERR_FIRST | MGT_LEDGER_OLDEST_HI
  | MGT_LEDGER_DROPPED | MGT_NET_IP | MGT_NET_CFG | MGT_UPDATE | MGT_SLOTS | MGT_TAKEOVERS | MGT_MBX_CTRL
  | MGT_MBX_STATUS | MGT_MBX_DATA
  | SEC_ID | SEC_STATE | SEC_KEY_SLOTS | SEC_ROLLBACK_SEL | SEC_ROLLBACK | SEC_XMSS_NEXT_LO
  | SEC_XMSS_NEXT_HI | SEC_XMSS_RESERVED_LO | SEC_ERR_STATUS | SEC_ERR_ENABLE | SEC_ERR_FIRST
  | SEC_XMSS_RESERVED_HI | SEC_ATTESTS | SEC_DEVICE_ID_LO | SEC_DEVICE_ID_HI | SEC_MEAS_SEL
  | SEC_MEAS_VERSION | SEC_MEAS_DIGEST
  deriving DecidableEq, Repr

/-- One row of a register map: offset in its block, unit stride and count (rings, ports, streams, …), words per unit,
access, reset value (R11; 0 where the map names a per-unit or sticky value, which the register's view gives) and the
writable bits (R10: reserved bits read as 0). -/
structure RegRow where
  reg : Reg
  offset : Nat
  stride : Nat
  units : Nat
  words : Nat
  access : Access
  reset : Nat
  mask : Nat
  deriving DecidableEq, Repr

namespace Machine

/-- The register map of the HIF_ block (R275). -/
def regRowsHIF : List RegRow :=
  [⟨.HIF_ID, 0x0, 0x0, 1, 1, .RO, 0x0, 0x0⟩,
   ⟨.HIF_STATUS, 0x4, 0x0, 1, 1, .RO, 0x0, 0x0⟩,
   ⟨.HIF_SETUP_LOCK, 0x8, 0x0, 1, 1, .WO, 0x0, 0x0⟩,
   ⟨.HIF_ERR_SUMMARY, 0x10, 0x0, 1, 1, .RO, 0x0, 0x0⟩,
   ⟨.HIF_ERR_VECTOR, 0x14, 0x0, 1, 1, .RWL, 0x0, 0x3F⟩,
   ⟨.HIF_NOTICE_RING, 0x18, 0x0, 1, 1, .RWL, 0x0, 0x8000073F⟩,
   ⟨.HIF_NOTICES_LOST, 0x1C, 0x0, 1, 1, .RO, 0x0, 0x0⟩,
   ⟨.HIF_ERR_STATUS, 0x20, 0x0, 1, 1, .W1C, 0x0, 0xFF⟩,
   ⟨.HIF_ERR_ENABLE, 0x24, 0x0, 1, 1, .RWL, 0xFF, 0xFF⟩,
   ⟨.HIF_ERR_FIRST, 0x28, 0x0, 1, 1, .RO, 0x0, 0x0⟩,
   ⟨.HIF_RESET_COUNT, 0x30, 0x0, 1, 1, .RO, 0x0, 0x0⟩,
   ⟨.HIF_PKTS_IN, 0x34, 0x0, 1, 1, .RO, 0x0, 0x0⟩,
   ⟨.HIF_PKTS_OUT, 0x38, 0x0, 1, 1, .RO, 0x0, 0x0⟩,
   ⟨.HIF_REJECTS, 0x3C, 0x0, 1, 1, .RO, 0x0, 0x0⟩,
   ⟨.HIF_SQ_BASE_LO, 0x1000, 0x20, 64, 1, .RWL, 0x0, 0xFFFFF000⟩,
   ⟨.HIF_SQ_BASE_HI, 0x1004, 0x20, 64, 1, .RWL, 0x0, 0xFFFFFFFF⟩,
   ⟨.HIF_SQ_CFG, 0x1008, 0x20, 64, 1, .RWL, 0x0, 0x801F003F⟩,
   ⟨.HIF_SQ_HEAD, 0x100C, 0x20, 64, 1, .RO, 0x0, 0x0⟩,
   ⟨.HIF_SQ_TAIL, 0x1010, 0x20, 64, 1, .RO, 0x0, 0x0⟩,
   ⟨.HIF_SQ_STATUS, 0x1014, 0x20, 64, 1, .RO, 0x0, 0x0⟩,
   ⟨.HIF_SQ_RESTART, 0x1018, 0x20, 64, 1, .WO, 0x0, 0x0⟩,
   ⟨.HIF_CQ_BASE_LO, 0x2000, 0x40, 64, 1, .RWL, 0x0, 0xFFFFF000⟩,
   ⟨.HIF_CQ_BASE_HI, 0x2004, 0x40, 64, 1, .RWL, 0x0, 0xFFFFFFFF⟩,
   ⟨.HIF_CQ_CFG, 0x2008, 0x40, 64, 1, .RWL, 0x0, 0x801F003F⟩,
   ⟨.HIF_CQ_STAT_LO, 0x200C, 0x40, 64, 1, .RWL, 0x0, 0xFFFFFFC0⟩,
   ⟨.HIF_CQ_STAT_HI, 0x2010, 0x40, 64, 1, .RWL, 0x0, 0xFFFFFFFF⟩,
   ⟨.HIF_CQ_MOD, 0x2014, 0x40, 64, 1, .RWL, 0x1, 0xFFFFFF⟩,
   ⟨.HIF_CQ_HEAD, 0x2018, 0x40, 64, 1, .RO, 0x0, 0x0⟩,
   ⟨.HIF_CQ_TAIL, 0x201C, 0x40, 64, 1, .RO, 0x0, 0x0⟩,
   ⟨.HIF_CQ_STATUS, 0x2020, 0x40, 64, 1, .RO, 0x0, 0x0⟩] ++
  [⟨.MSIX_TABLE, 0x8000, 0x10, 64, 4, .RW, 0x0, 0xFFFFFFFF⟩,
   ⟨.MSIX_PBA, 0x9000, 0x0, 1, 2, .RO, 0x0, 0x0⟩]

/-- The register map of the GFE_ block (R276). -/
def regRowsGFE : List RegRow :=
  [⟨.GFE_GRAPHS_LO, 0x0, 0x0, 1, 1, .RO, 0x0, 0x0⟩,
   ⟨.GFE_GRAPHS_HI, 0x4, 0x0, 1, 1, .RO, 0x0, 0x0⟩,
   ⟨.GFE_HELD, 0x8, 0x0, 1, 1, .RO, 0x0, 0x0⟩,
   ⟨.GFE_HELD_HI, 0xC, 0x0, 1, 1, .RO, 0x0, 0x0⟩,
   ⟨.GFE_GRAPH_SEL, 0x10, 0x0, 1, 1, .RW, 0x0, 0x3F⟩,
   ⟨.GFE_GRAPH_CFG, 0x14, 0x0, 1, 1, .RO, 0x0, 0x0⟩,
   ⟨.GFE_GRAPH_NEXT, 0x18, 0x0, 1, 1, .RO, 0x0, 0x0⟩,
   ⟨.GFE_GRAPH_DELIVERED, 0x1C, 0x0, 1, 1, .RO, 0x0, 0x0⟩]

/-- The register map of the CORE_ block (R109). -/
def regRowsCORE : List RegRow :=
  [⟨.CORE_ID, 0x0, 0x0, 1, 1, .RO, 0x0, 0x0⟩,
   ⟨.CORE_STATE, 0x4, 0x0, 1, 1, .RO, 0x0, 0x0⟩,
   ⟨.CORE_SEQ_PC, 0x8, 0x0, 1, 1, .RO, 0x0, 0x0⟩,
   ⟨.CORE_SLOTS, 0xC, 0x0, 1, 1, .RO, 0x0, 0x0⟩,
   ⟨.CORE_CLK, 0x10, 0x0, 1, 1, .RO, 0x0, 0x0⟩,
   ⟨.CORE_ERR_STATUS, 0x20, 0x0, 1, 1, .W1C, 0x0, 0x1FFF⟩,
   ⟨.CORE_ERR_ENABLE, 0x24, 0x0, 1, 1, .RWL, 0x1FFE, 0x1FFF⟩,
   ⟨.CORE_ERR_FIRST, 0x28, 0x0, 1, 1, .RO, 0x0, 0x0⟩,
   ⟨.CORE_ERR_ADDR, 0x2C, 0x0, 1, 1, .RO, 0x0, 0x0⟩,
   ⟨.CORE_ERR_STATION, 0x30, 0x0, 1, 1, .RO, 0x0, 0x0⟩,
   ⟨.CORE_CE_COUNT, 0x34, 0x0, 1, 1, .RO, 0x0, 0x0⟩,
   ⟨.CORE_UE_COUNT, 0x38, 0x0, 1, 1, .RO, 0x0, 0x0⟩,
   ⟨.CORE_ERR_INJECT, 0x3C, 0x0, 1, 1, .RO, 0x0, 0x0⟩,
   ⟨.CORE_SCRUB_PERIOD, 0x40, 0x0, 1, 1, .RWL, 0x40, 0x7FF⟩,
   ⟨.CORE_SCRUB_STATUS, 0x44, 0x0, 1, 1, .RO, 0x0, 0x0⟩,
   ⟨.CORE_STORE_STALL, 0x50, 0x0, 1, 1, .RO, 0x0, 0x0⟩,
   ⟨.CORE_TE_BUSY, 0x54, 0x0, 1, 1, .RO, 0x0, 0x0⟩,
   ⟨.CORE_VE_BUSY, 0x58, 0x0, 1, 1, .RO, 0x0, 0x0⟩,
   ⟨.CORE_AP_BUSY, 0x5C, 0x0, 1, 1, .RO, 0x0, 0x0⟩,
   ⟨.CORE_DM_BUSY, 0x60, 0x0, 1, 1, .RO, 0x0, 0x0⟩,
   ⟨.CORE_SELFTEST, 0x70, 0x0, 1, 1, .RO, 0x0, 0x0⟩,
   ⟨.CORE_FIT_SEL, 0x100, 0x0, 1, 1, .RW, 0x0, 0xF⟩,
   ⟨.CORE_FIT_CFG, 0x104, 0x0, 1, 1, .RO, 0x0, 0x0⟩,
   ⟨.CORE_FIT_RATIO, 0x108, 0x0, 1, 1, .RO, 0x1000, 0x0⟩,
   ⟨.CORE_FIT_SAT, 0x10C, 0x0, 1, 1, .RO, 0x0, 0x0⟩,
   ⟨.CORE_FIT_OOR, 0x110, 0x0, 1, 1, .RO, 0x0, 0x0⟩,
   ⟨.CORE_FIT_WRAP, 0x114, 0x0, 1, 1, .RO, 0x0, 0x0⟩,
   ⟨.CORE_FIT_NAN, 0x118, 0x0, 1, 1, .RO, 0x0, 0x0⟩,
   ⟨.CORE_FIT_WIDEN, 0x11C, 0x0, 1, 1, .RO, 0x0, 0x0⟩,
   ⟨.CORE_FIT_SKIPPED, 0x120, 0x0, 1, 1, .RO, 0x0, 0x0⟩] ++
  [⟨.CORE_FIT_DRIFT, 0x124, 0x0, 1, 1, .RO, 0x0, 0x0⟩,
   ⟨.CORE_FIT_CLEAR, 0x128, 0x0, 1, 1, .WO, 0x0, 0x0⟩]

/-- The register map of the TDE_ block (R153). -/
def regRowsTDE : List RegRow :=
  [⟨.TDE_ID, 0x0, 0x0, 1, 1, .RO, 0x0, 0x0⟩,
   ⟨.TDE_STATE, 0x4, 0x0, 1, 1, .RO, 0x0, 0x0⟩,
   ⟨.TDE_GRAPHS_LO, 0x8, 0x0, 1, 1, .RO, 0x0, 0x0⟩,
   ⟨.TDE_GRAPHS_HI, 0xC, 0x0, 1, 1, .RO, 0x0, 0x0⟩,
   ⟨.TDE_CARDS, 0x10, 0x0, 1, 1, .RO, 0x0, 0x0⟩,
   ⟨.TDE_FIRE_COUNT, 0x14, 0x0, 1, 1, .RO, 0x0, 0x0⟩,
   ⟨.TDE_STALL_COUNT, 0x18, 0x0, 1, 1, .RO, 0x0, 0x0⟩,
   ⟨.TDE_FOLD_COUNT, 0x1C, 0x0, 1, 1, .RO, 0x0, 0x0⟩,
   ⟨.TDE_ERR_STATUS, 0x20, 0x0, 1, 1, .W1C, 0x0, 0x1F⟩,
   ⟨.TDE_ERR_ENABLE, 0x24, 0x0, 1, 1, .RWL, 0x1F, 0x1F⟩,
   ⟨.TDE_LOAD_ERR, 0x28, 0x0, 1, 1, .RO, 0x0, 0x0⟩,
   ⟨.TDE_VERSION_BUMPS, 0x30, 0x0, 1, 1, .RO, 0x0, 0x0⟩,
   ⟨.TDE_TOKENS, 0x34, 0x0, 1, 1, .RO, 0x0, 0x0⟩,
   ⟨.TDE_GRAPH_SEL, 0x40, 0x0, 1, 1, .RW, 0x0, 0x3F⟩,
   ⟨.TDE_GRAPH_STATUS, 0x44, 0x0, 1, 1, .RO, 0x0, 0x0⟩,
   ⟨.TDE_GRAPH_OPENED, 0x48, 0x0, 1, 1, .RO, 0x0, 0x0⟩,
   ⟨.TDE_GRAPH_DONE, 0x4C, 0x0, 1, 1, .RO, 0x0, 0x0⟩,
   ⟨.TDE_GRAPH_WITHHELD, 0x50, 0x0, 1, 1, .RO, 0x0, 0x0⟩,
   ⟨.TDE_GRAPH_PLACEMENT, 0x54, 0x0, 1, 1, .RO, 0x0, 0x0⟩]

/-- The register map of the CAT_ block (R195). -/
def regRowsCAT : List RegRow :=
  [⟨.CAT_ID, 0x0, 0x0, 1, 1, .RO, 0x0, 0x0⟩,
   ⟨.CAT_STATE, 0x4, 0x0, 1, 1, .RO, 0x0, 0x0⟩,
   ⟨.CAT_REGION_BASE_LO, 0x8, 0x0, 1, 1, .RWL, 0x0, 0xFE000001⟩,
   ⟨.CAT_REGION_BASE_HI, 0xC, 0x0, 1, 1, .RWL, 0x0, 0xFFFF⟩,
   ⟨.CAT_ENTRIES_USED, 0x10, 0x0, 1, 1, .RO, 0x0, 0x0⟩,
   ⟨.CAT_ENTRIES_PEAK, 0x14, 0x0, 1, 1, .RO, 0x0, 0x0⟩,
   ⟨.CAT_RUNS_FREE, 0x18, 0x0, 1, 1, .RO, 0x19C00, 0x0⟩,
   ⟨.CAT_SEQ_LIVE, 0x1C, 0x0, 1, 1, .RO, 0x0, 0x0⟩,
   ⟨.CAT_ERR_STATUS, 0x20, 0x0, 1, 1, .W1C, 0x0, 0x1F⟩,
   ⟨.CAT_ERR_ENABLE, 0x24, 0x0, 1, 1, .RWL, 0x1F, 0x1F⟩,
   ⟨.CAT_ERR_HANDLE, 0x28, 0x0, 1, 1, .RO, 0x0, 0x0⟩,
   ⟨.CAT_ALLOC_FULL, 0x30, 0x0, 1, 1, .RO, 0x0, 0x0⟩,
   ⟨.CAT_ALLOC_SHORT, 0x34, 0x0, 1, 1, .RO, 0x0, 0x0⟩,
   ⟨.CAT_COW, 0x38, 0x0, 1, 1, .RO, 0x0, 0x0⟩,
   ⟨.CAT_PREEMPT, 0x3C, 0x0, 1, 1, .RO, 0x0, 0x0⟩,
   ⟨.CAT_ARCHIVE_OUT, 0x40, 0x0, 1, 1, .RO, 0x0, 0x0⟩,
   ⟨.CAT_ARCHIVE_IN, 0x44, 0x0, 1, 1, .RO, 0x0, 0x0⟩,
   ⟨.CAT_EXHAUSTED, 0x48, 0x0, 1, 1, .RO, 0x0, 0x0⟩,
   ⟨.CAT_STALL_US, 0x4C, 0x0, 1, 1, .RO, 0x0, 0x0⟩,
   ⟨.CAT_POOL_SEL, 0x50, 0x0, 1, 1, .RW, 0x0, 0xF⟩,
   ⟨.CAT_POOL_CFG, 0x54, 0x0, 1, 1, .RO, 0x0, 0x0⟩,
   ⟨.CAT_POOL_FREE, 0x58, 0x0, 1, 1, .RO, 0x0, 0x0⟩,
   ⟨.CAT_POOL_FRAMES, 0x5C, 0x0, 1, 1, .RO, 0x0, 0x0⟩,
   ⟨.CAT_POOL_SPLIT, 0x60, 0x0, 1, 1, .RO, 0x0, 0x0⟩,
   ⟨.CAT_POOL_WAITERS, 0x64, 0x0, 1, 1, .RO, 0x0, 0x0⟩,
   ⟨.CAT_SEQ_SEL, 0x70, 0x0, 1, 1, .RW, 0x0, 0xFFF⟩,
   ⟨.CAT_SEQ_STATE, 0x74, 0x0, 1, 1, .RO, 0x0, 0x0⟩,
   ⟨.CAT_SEQ_LENGTH, 0x78, 0x0, 1, 1, .RO, 0x0, 0x0⟩,
   ⟨.CAT_SEQ_SHELVES, 0x7C, 0x0, 1, 1, .RO, 0x0, 0x0⟩]

/-- The register map of the MC_ block (R213). -/
def regRowsMC : List RegRow :=
  [⟨.MC_ID, 0x0, 0x0, 1, 1, .RO, 0x0, 0x0⟩,
   ⟨.MC_STATE, 0x4, 0x0, 1, 1, .RO, 0x0, 0x0⟩,
   ⟨.MC_SET_AVAIL, 0x8, 0x0, 1, 1, .RO, 0xFF, 0x0⟩,
   ⟨.MC_CAPACITY, 0xC, 0x0, 1, 1, .RO, 0x4000, 0x0⟩,
   ⟨.MC_TEMP, 0x10, 0x0, 1, 1, .RO, 0x0, 0x0⟩,
   ⟨.MC_TRAIN_STATUS, 0x14, 0x0, 1, 1, .RO, 0x0, 0x0⟩,
   ⟨.MC_ERR_STATUS, 0x20, 0x0, 1, 1, .W1C, 0x0, 0x3F⟩,
   ⟨.MC_ERR_ENABLE, 0x24, 0x0, 1, 1, .RWL, 0x3E, 0x3F⟩,
   ⟨.MC_ERR_ADDR_LO, 0x28, 0x0, 1, 1, .RO, 0x0, 0x0⟩,
   ⟨.MC_ERR_ADDR_HI, 0x2C, 0x0, 1, 1, .RO, 0x0, 0x0⟩,
   ⟨.MC_CE_COUNT, 0x30, 0x0, 1, 1, .RO, 0x0, 0x0⟩,
   ⟨.MC_UE_COUNT, 0x34, 0x0, 1, 1, .RO, 0x0, 0x0⟩,
   ⟨.MC_CA_REPLAYS, 0x38, 0x0, 1, 1, .RO, 0x0, 0x0⟩,
   ⟨.MC_ROW_GLINTS, 0x3C, 0x0, 1, 1, .RO, 0x0, 0x0⟩,
   ⟨.MC_ROW_REPAIRS, 0x40, 0x0, 1, 1, .RO, 0x0, 0x0⟩,
   ⟨.MC_RETIRED_COUNT, 0x44, 0x0, 1, 1, .RO, 0x0, 0x0⟩,
   ⟨.MC_RETIRED_SEL, 0x48, 0x0, 1, 1, .RW, 0x0, 0x1FF⟩,
   ⟨.MC_RETIRED_ADDR, 0x4C, 0x0, 1, 1, .RO, 0x0, 0x0⟩,
   ⟨.MC_SCRUB_PERIOD, 0x50, 0x0, 1, 1, .RWL, 0x18, 0x1F⟩,
   ⟨.MC_SCRUB_POS, 0x54, 0x0, 1, 1, .RO, 0x0, 0x0⟩,
   ⟨.MC_SCRUB_PASSES, 0x58, 0x0, 1, 1, .RO, 0x0, 0x0⟩,
   ⟨.MC_RAW_WAITS, 0x5C, 0x0, 1, 1, .RO, 0x0, 0x0⟩,
   ⟨.MC_PC_SEL, 0x60, 0x0, 1, 1, .RW, 0x0, 0x1F⟩,
   ⟨.MC_PC_STATUS, 0x64, 0x0, 1, 1, .RO, 0x0, 0x0⟩,
   ⟨.MC_PC_CE, 0x68, 0x0, 1, 1, .RO, 0x0, 0x0⟩,
   ⟨.MC_PC_UE, 0x6C, 0x0, 1, 1, .RO, 0x0, 0x0⟩]

/-- The register map of the RC_ block (R213). -/
def regRowsRC : List RegRow :=
  [⟨.RC_ID, 0x0, 0x0, 1, 1, .RO, 0x0, 0x0⟩,
   ⟨.RC_STATE, 0x4, 0x0, 1, 1, .RO, 0x0, 0x0⟩,
   ⟨.RC_CTRL, 0x8, 0x0, 1, 1, .RWL, 0x1, 0x1⟩,
   ⟨.RC_LOOKUPS, 0x10, 0x0, 1, 1, .RO, 0x0, 0x0⟩,
   ⟨.RC_HITS, 0x14, 0x0, 1, 1, .RO, 0x0, 0x0⟩,
   ⟨.RC_STALE, 0x18, 0x0, 1, 1, .RO, 0x0, 0x0⟩,
   ⟨.RC_FILLS_DROPPED, 0x1C, 0x0, 1, 1, .RO, 0x0, 0x0⟩,
   ⟨.RC_ERR_STATUS, 0x20, 0x0, 1, 1, .W1C, 0x0, 0x7⟩,
   ⟨.RC_ERR_ENABLE, 0x24, 0x0, 1, 1, .RWL, 0x6, 0x7⟩,
   ⟨.RC_CE_COUNT, 0x28, 0x0, 1, 1, .RO, 0x0, 0x0⟩,
   ⟨.RC_UE_COUNT, 0x2C, 0x0, 1, 1, .RO, 0x0, 0x0⟩,
   ⟨.RC_WAYS_OFF, 0x30, 0x0, 1, 1, .RO, 0x0, 0x0⟩,
   ⟨.RC_TABLE_FULL, 0x34, 0x0, 1, 1, .RO, 0x0, 0x0⟩]

/-- The register map of the D2D_ block (R236). -/
def regRowsD2D : List RegRow :=
  [⟨.D2D_ID, 0x0, 0x0, 1, 1, .RO, 0x0, 0x0⟩,
   ⟨.D2D_FEATURE, 0x4, 0x0, 1, 1, .RO, 0x0, 0x0⟩,
   ⟨.D2D_ROUTE, 0x8, 0x0, 1, 1, .RO, 0x0, 0x0⟩,
   ⟨.D2D_ROLE, 0xC, 0x0, 1, 1, .RO, 0x0, 0x0⟩,
   ⟨.D2D_ERR_STATUS, 0x20, 0x0, 1, 1, .W1C, 0x0, 0x1FF⟩,
   ⟨.D2D_ERR_ENABLE, 0x24, 0x0, 1, 1, .RWL, 0x1FE, 0x1FF⟩,
   ⟨.D2D_ERR_FIRST, 0x28, 0x0, 1, 1, .RO, 0x0, 0x0⟩,
   ⟨.D2D_TEST, 0x30, 0x0, 1, 1, .RO, 0x0, 0x0⟩,
   ⟨.D2D_TEST_RESULT, 0x34, 0x0, 1, 1, .RO, 0x0, 0x0⟩,
   ⟨.D2D_PORT_SEL, 0x40, 0x0, 1, 1, .RW, 0x0, 0x3⟩,
   ⟨.D2D_PORT_STATUS, 0x44, 0x0, 1, 1, .RO, 0x0, 0x0⟩,
   ⟨.D2D_PORT_WIDTH, 0x48, 0x0, 1, 1, .RO, 0x0, 0x0⟩,
   ⟨.D2D_PORT_PEER_WIDTH, 0x4C, 0x0, 1, 1, .RO, 0x0, 0x0⟩,
   ⟨.D2D_PORT_PEER_ID, 0x50, 0x0, 1, 1, .RO, 0x0, 0x0⟩,
   ⟨.D2D_PORT_RETRAINS, 0x54, 0x0, 1, 1, .RO, 0x0, 0x0⟩,
   ⟨.D2D_PORT_CRC_ERR, 0x58, 0x0, 1, 1, .RO, 0x0, 0x0⟩,
   ⟨.D2D_PORT_REPLAYS, 0x5C, 0x0, 1, 1, .RO, 0x0, 0x0⟩,
   ⟨.D2D_PORT_TX_FLITS, 0x60, 0x0, 1, 1, .RO, 0x0, 0x0⟩,
   ⟨.D2D_PORT_RX_FLITS, 0x64, 0x0, 1, 1, .RO, 0x0, 0x0⟩,
   ⟨.D2D_PORT_GLINTS, 0x68, 0x0, 1, 1, .RO, 0x0, 0x0⟩]

/-- The register map of the SIN_ block (R309). -/
def regRowsSIN : List RegRow :=
  [⟨.SIN_ID, 0x0, 0x0, 1, 1, .RO, 0x0, 0x0⟩,
   ⟨.SIN_STATE, 0x4, 0x0, 1, 1, .RO, 0x0, 0x0⟩,
   ⟨.SIN_ARRIVAL_LO, 0x8, 0x0, 1, 1, .RO, 0x0, 0x0⟩,
   ⟨.SIN_ARRIVAL_HI, 0xC, 0x0, 1, 1, .RO, 0x0, 0x0⟩,
   ⟨.SIN_DEC_BUSY, 0x10, 0x0, 1, 1, .RO, 0x0, 0x0⟩,
   ⟨.SIN_ROB_USED, 0x14, 0x0, 1, 1, .RO, 0x0, 0x0⟩,
   ⟨.SIN_BUF_USED, 0x18, 0x0, 1, 1, .RO, 0x0, 0x0⟩,
   ⟨.SIN_ERR_STATUS, 0x20, 0x0, 1, 1, .W1C, 0x0, 0xFF⟩,
   ⟨.SIN_ERR_ENABLE, 0x24, 0x0, 1, 1, .RWL, 0xCA, 0xFF⟩,
   ⟨.SIN_ERR_FIRST, 0x28, 0x0, 1, 1, .RO, 0x0, 0x0⟩,
   ⟨.SIN_CE_COUNT, 0x2C, 0x0, 1, 1, .RO, 0x0, 0x0⟩,
   ⟨.SIN_P_CFG, 0x400, 0x40, 8, 1, .RWL, 0x0, 0xFFFFFFFF⟩,
   ⟨.SIN_P_STATUS, 0x404, 0x40, 8, 1, .RO, 0x0, 0x0⟩,
   ⟨.SIN_P_RX, 0x408, 0x40, 8, 1, .RO, 0x0, 0x0⟩,
   ⟨.SIN_P_CE, 0x40C, 0x40, 8, 1, .RO, 0x0, 0x0⟩,
   ⟨.SIN_P_DROP, 0x410, 0x40, 8, 1, .RO, 0x0, 0x0⟩,
   ⟨.SIN_P_UNMATCHED, 0x414, 0x40, 8, 1, .RO, 0x0, 0x0⟩,
   ⟨.SIN_P_OVERFLOW, 0x418, 0x40, 8, 1, .RO, 0x0, 0x0⟩,
   ⟨.SIN_P_FILT, 0x420, 0x40, 8, 8, .RWL, 0x0, 0xFFFFFFFF⟩,
   ⟨.SIN_S_CFG, 0x1000, 0x80, 14, 1, .RWL, 0x0, 0xFFFFFFFF⟩,
   ⟨.SIN_S_SIZE, 0x1004, 0x80, 14, 1, .RWL, 0x8700F00, 0xFFFFFFFF⟩,
   ⟨.SIN_S_RATIO, 0x1008, 0x80, 14, 1, .RWL, 0x40, 0xFFFFFFFF⟩,
   ⟨.SIN_S_BUDGET_CAP, 0x100C, 0x80, 14, 1, .RWL, 0x4E20, 0xFFFFFFFF⟩,
   ⟨.SIN_S_MEAN, 0x1010, 0x80, 14, 1, .RO, 0x0, 0x0⟩,
   ⟨.SIN_S_BUF, 0x1014, 0x80, 14, 1, .RWL, 0x0, 0x1FF⟩,
   ⟨.SIN_S_SILENCE, 0x1018, 0x80, 14, 1, .RWL, 0x64, 0xFFFFFFFF⟩,
   ⟨.SIN_S_SEED_LO, 0x101C, 0x80, 14, 1, .RWL, 0x0, 0xFFFFFFFF⟩,
   ⟨.SIN_S_SEED_HI, 0x1020, 0x80, 14, 1, .RWL, 0x0, 0xFFFFFFFF⟩,
   ⟨.SIN_S_BLACK, 0x1024, 0x80, 14, 1, .RWL, 0x0, 0xFFFF⟩,
   ⟨.SIN_S_WB0, 0x1028, 0x80, 14, 1, .RWL, 0x10001000, 0xFFFFFFFF⟩] ++
  [⟨.SIN_S_WB1, 0x102C, 0x80, 14, 1, .RWL, 0x1000, 0xFFFF⟩,
   ⟨.SIN_S_CCM0, 0x1030, 0x80, 14, 1, .RWL, 0x1000, 0xFFFFFFFF⟩,
   ⟨.SIN_S_CCM1, 0x1034, 0x80, 14, 1, .RWL, 0x0, 0xFFFFFFFF⟩,
   ⟨.SIN_S_CCM2, 0x1038, 0x80, 14, 1, .RWL, 0x1000, 0xFFFFFFFF⟩,
   ⟨.SIN_S_CCM3, 0x103C, 0x80, 14, 1, .RWL, 0x0, 0xFFFFFFFF⟩,
   ⟨.SIN_S_CCM4, 0x1040, 0x80, 14, 1, .RWL, 0x1000, 0xFFFF⟩,
   ⟨.SIN_S_PT, 0x1044, 0x80, 14, 8, .RWL, 0x0, 0xFFFFFFFF⟩,
   ⟨.SIN_S_STAMP, 0x1064, 0x80, 14, 1, .RWL, 0x0, 0x8000FFFF⟩,
   ⟨.SIN_S_INDEX_LO, 0x1068, 0x80, 14, 1, .RO, 0x0, 0x0⟩,
   ⟨.SIN_S_INDEX_HI, 0x106C, 0x80, 14, 1, .RO, 0x0, 0x0⟩,
   ⟨.SIN_S_SAMPLES, 0x1070, 0x80, 14, 1, .RO, 0x0, 0x0⟩,
   ⟨.SIN_S_PLACEHOLDERS, 0x1074, 0x80, 14, 1, .RO, 0x0, 0x0⟩,
   ⟨.SIN_S_STATUS, 0x1078, 0x80, 14, 1, .RO, 0x0, 0x0⟩,
   ⟨.SIN_S_OVERRUNS, 0x107C, 0x80, 14, 1, .RO, 0x0, 0x0⟩,
   ⟨.SIN_B_CFG, 0x2000, 0x40, 16, 1, .RWL, 0x0, 0xE0FFFF0F⟩,
   ⟨.SIN_B_EDGES, 0x2004, 0x40, 16, 1, .RWL, 0xFFFFFFFF, 0xFFFFFFFF⟩,
   ⟨.SIN_B_BASE, 0x2008, 0x40, 16, 1, .RWL, 0x0, 0xFFFFFFFF⟩,
   ⟨.SIN_B_SPOT, 0x200C, 0x40, 16, 1, .RWL, 0x0, 0x3FFFFFFF⟩,
   ⟨.SIN_B_BAND, 0x2010, 0x40, 16, 1, .RWL, 0x0, 0x7FF⟩,
   ⟨.SIN_B_NORM, 0x2014, 0x40, 16, 3, .RWL, 0x3F80, 0xFFFFFFFF⟩,
   ⟨.SIN_B_SCALE, 0x2020, 0x40, 16, 1, .RWL, 0x3F800000, 0xFFFFFFFF⟩,
   ⟨.SIN_B_AUG0, 0x2024, 0x40, 16, 1, .RWL, 0x0, 0xFFFFFFFF⟩,
   ⟨.SIN_B_AUG1, 0x2028, 0x40, 16, 1, .RWL, 0x0, 0xFFFF00FF⟩,
   ⟨.SIN_B_SPOT_LO, 0x202C, 0x40, 16, 1, .RWL, 0x0, 0xFFFFF000⟩,
   ⟨.SIN_B_SPOT_HI, 0x2030, 0x40, 16, 1, .RWL, 0x0, 0xFFFF⟩,
   ⟨.SIN_B_SPOT_AGE, 0x2034, 0x40, 16, 1, .RWL, 0x186A0, 0xFFFFFFFF⟩,
   ⟨.SIN_B_SAT, 0x2038, 0x40, 16, 1, .RO, 0x0, 0x0⟩,
   ⟨.SIN_B_SPOT_MISSED, 0x203C, 0x40, 16, 1, .RO, 0x0, 0x0⟩]

/-- The register map of the ALN_ block (R344). -/
def regRowsALN : List RegRow :=
  [⟨.ALN_ID, 0x0, 0x0, 1, 1, .RO, 0x0, 0x0⟩,
   ⟨.ALN_STATE, 0x4, 0x0, 1, 1, .RO, 0x0, 0x0⟩,
   ⟨.ALN_ERR_STATUS, 0x20, 0x0, 1, 1, .W1C, 0x0, 0xFF⟩,
   ⟨.ALN_ERR_ENABLE, 0x24, 0x0, 1, 1, .RWL, 0xBE, 0xFF⟩,
   ⟨.ALN_ERR_FIRST, 0x28, 0x0, 1, 1, .RO, 0x0, 0x0⟩,
   ⟨.ALN_CE_COUNT, 0x2C, 0x0, 1, 1, .RO, 0x0, 0x0⟩,
   ⟨.ALN_EGO_YAW_ID, 0x30, 0x0, 1, 1, .RWL, 0x0, 0xFFFFFFFF⟩,
   ⟨.ALN_EGO_YAW_FMT, 0x34, 0x0, 1, 1, .RWL, 0x0, 0x800001FF⟩,
   ⟨.ALN_EGO_YAW_SCALE, 0x38, 0x0, 1, 1, .RWL, 0x0, 0xFFFFFFFF⟩,
   ⟨.ALN_EGO_SPEED_ID, 0x3C, 0x0, 1, 1, .RWL, 0x0, 0xFFFFFFFF⟩,
   ⟨.ALN_EGO_SPEED_FMT, 0x40, 0x0, 1, 1, .RWL, 0x0, 0x800001FF⟩,
   ⟨.ALN_EGO_SPEED_SCALE, 0x44, 0x0, 1, 1, .RWL, 0x0, 0xFFFFFFFF⟩,
   ⟨.ALN_MERGE_CFG, 0x50, 0x0, 1, 1, .RWL, 0x3040, 0xBF073FFF⟩,
   ⟨.ALN_MERGE_EDGES, 0x54, 0x0, 1, 1, .RWL, 0xFFFFFFFF, 0xFFFFFFFF⟩,
   ⟨.ALN_MERGE_DONE, 0x58, 0x0, 1, 1, .RO, 0x0, 0x0⟩,
   ⟨.ALN_C_SEL, 0x60, 0x0, 1, 1, .RW, 0x0, 0x1F3F⟩,
   ⟨.ALN_C_VALUE, 0x64, 0x0, 1, 1, .RO, 0x0, 0x0⟩,
   ⟨.ALN_G_CFG, 0x100, 0x40, 8, 1, .RWL, 0x0, 0xFFBFBF3F⟩,
   ⟨.ALN_G_MEMBERS, 0x104, 0x40, 8, 1, .RWL, 0x0, 0xFFFFFF⟩,
   ⟨.ALN_G_REF_ORDER, 0x108, 0x40, 8, 1, .RWL, 0xFFFFFFF0, 0xFFFFFFFF⟩,
   ⟨.ALN_G_WAIT, 0x10C, 0x40, 8, 1, .RWL, 0x2EE0, 0xFFFFFFFF⟩,
   ⟨.ALN_G_PERIOD, 0x110, 0x40, 8, 1, .RWL, 0xC350, 0xFFFFFFFF⟩,
   ⟨.ALN_G_REC_LO, 0x114, 0x40, 8, 1, .RWL, 0x0, 0xFFFFF800⟩,
   ⟨.ALN_G_REC_HI, 0x118, 0x40, 8, 1, .RWL, 0x0, 0xFFFF⟩,
   ⟨.ALN_G_STATUS, 0x11C, 0x40, 8, 1, .RO, 0x1F000000, 0x0⟩,
   ⟨.ALN_G_SETS, 0x120, 0x40, 8, 1, .RO, 0x0, 0x0⟩,
   ⟨.ALN_G_MISSING, 0x124, 0x40, 8, 1, .RO, 0x0, 0x0⟩,
   ⟨.ALN_G_DROPPED, 0x128, 0x40, 8, 1, .RO, 0x0, 0x0⟩,
   ⟨.ALN_G_REF_CHANGES, 0x12C, 0x40, 8, 1, .RO, 0x0, 0x0⟩,
   ⟨.ALN_G_CONTRA_LIMIT, 0x130, 0x40, 8, 1, .RWL, 0x1000, 0xFFFFFFFF⟩] ++
  [⟨.ALN_G_PERIOD_FIT, 0x134, 0x40, 8, 1, .RO, 0x0, 0x0⟩,
   ⟨.ALN_S_CFG, 0x400, 0x40, 12, 1, .RWL, 0x1000000, 0x7F000000⟩,
   ⟨.ALN_S_STATE, 0x404, 0x40, 12, 1, .RO, 0x0, 0x0⟩,
   ⟨.ALN_S_RATE, 0x408, 0x40, 12, 1, .RO, 0x0, 0x0⟩,
   ⟨.ALN_S_DEPART, 0x40C, 0x40, 12, 1, .RO, 0x0, 0x0⟩,
   ⟨.ALN_S_ADRIFT, 0x410, 0x40, 12, 1, .RO, 0x0, 0x0⟩,
   ⟨.ALN_S_SURPLUS, 0x414, 0x40, 12, 1, .RO, 0x0, 0x0⟩,
   ⟨.ALN_S_LATE, 0x418, 0x40, 12, 1, .RO, 0x0, 0x0⟩]

/-- The register map of the PRM_ block (R345). -/
def regRowsPRM : List RegRow :=
  [⟨.PRM_ID, 0x0, 0x0, 1, 1, .RO, 0x0, 0x0⟩,
   ⟨.PRM_STATE, 0x4, 0x0, 1, 1, .RO, 0x0, 0x0⟩,
   ⟨.PRM_CFG, 0x8, 0x0, 1, 1, .RWL, 0x0, 0xBF070000⟩,
   ⟨.PRM_BEV_SIZE, 0xC, 0x0, 1, 1, .RWL, 0x0, 0x7FF07FF⟩,
   ⟨.PRM_BEV_CELL, 0x10, 0x0, 1, 1, .RWL, 0x0, 0xFFFFFFFF⟩,
   ⟨.PRM_BEV_ORIGIN_X, 0x14, 0x0, 1, 1, .RWL, 0x0, 0xFFFFFFFF⟩,
   ⟨.PRM_BEV_ORIGIN_Y, 0x18, 0x0, 1, 1, .RWL, 0x0, 0xFFFFFFFF⟩,
   ⟨.PRM_BEV_EDGE, 0x1C, 0x0, 1, 1, .RWL, 0xFFFF, 0xFFFF⟩,
   ⟨.PRM_ERR_STATUS, 0x20, 0x0, 1, 1, .W1C, 0x0, 0x7⟩,
   ⟨.PRM_ERR_ENABLE, 0x24, 0x0, 1, 1, .RWL, 0x6, 0x7⟩,
   ⟨.PRM_BEV_CAMS, 0x28, 0x0, 1, 1, .RWL, 0x0, 0xFFFF⟩,
   ⟨.PRM_PROJECTIONS, 0x2C, 0x0, 1, 1, .RO, 0x0, 0x0⟩,
   ⟨.PRM_Z, 0x40, 0x0, 1, 8, .RWL, 0x0, 0xFFFFFFFF⟩,
   ⟨.PRM_C_CFG, 0x400, 0x80, 16, 1, .RWL, 0x0, 0xC0000000⟩,
   ⟨.PRM_C_SIZE, 0x404, 0x80, 16, 1, .RWL, 0x0, 0x1FFF1FFF⟩,
   ⟨.PRM_C_EXT, 0x408, 0x80, 16, 12, .RWL, 0x0, 0xFFFFFFFF⟩,
   ⟨.PRM_C_INTR, 0x438, 0x80, 16, 4, .RWL, 0x0, 0xFFFFFFFF⟩,
   ⟨.PRM_C_D, 0x448, 0x80, 16, 8, .RWL, 0x0, 0xFFFFFFFF⟩,
   ⟨.PRM_C_LIMIT, 0x468, 0x80, 16, 1, .RWL, 0x0, 0xFFFFFFFF⟩,
   ⟨.PRM_L_CFG, 0x1000, 0x40, 4, 1, .RWL, 0x0, 0xFF00FFFF⟩,
   ⟨.PRM_L_EXT, 0x1004, 0x40, 4, 12, .RWL, 0x0, 0xFFFFFFFF⟩,
   ⟨.PRM_L_EDGES, 0x1034, 0x40, 4, 1, .RWL, 0xFFFFFFFF, 0xFFFFFFFF⟩,
   ⟨.PRM_L_POINTS, 0x1038, 0x40, 4, 1, .RO, 0x0, 0x0⟩]

/-- The register map of the PLN_ block (R381). -/
def regRowsPLN : List RegRow :=
  [⟨.PLN_ID, 0x0, 0x0, 1, 1, .RO, 0x0, 0x0⟩,
   ⟨.PLN_STATE, 0x4, 0x0, 1, 1, .RO, 0x0, 0x0⟩,
   ⟨.PLN_CFG, 0x8, 0x0, 1, 1, .RWL, 0xFFFF, 0xBF00FFFF⟩,
   ⟨.PLN_SLICES, 0xC, 0x0, 1, 1, .RWL, 0x1F4000F, 0xFFFF000F⟩,
   ⟨.PLN_CHECK, 0x10, 0x0, 1, 1, .RWL, 0xFF04FF, 0xFFFFFF⟩,
   ⟨.PLN_WF, 0x14, 0x0, 1, 1, .RWL, 0x4010, 0x1FFFF⟩,
   ⟨.PLN_SEARCH, 0x18, 0x0, 1, 1, .RWL, 0x40100, 0xF03FF⟩,
   ⟨.PLN_OUT, 0x1C, 0x0, 1, 1, .RWL, 0xC801F4, 0xFFFFFFFF⟩,
   ⟨.PLN_ERR_STATUS, 0x20, 0x0, 1, 1, .W1C, 0x0, 0x7F⟩,
   ⟨.PLN_ERR_ENABLE, 0x24, 0x0, 1, 1, .RWL, 0x76, 0x7F⟩,
   ⟨.PLN_ERR_FIRST, 0x28, 0x0, 1, 1, .RO, 0x0, 0x0⟩,
   ⟨.PLN_CE_COUNT, 0x2C, 0x0, 1, 1, .RO, 0x0, 0x0⟩,
   ⟨.PLN_WINDOW, 0x30, 0x0, 1, 1, .RWL, 0x2000, 0x3FFF⟩,
   ⟨.PLN_MAP_ID, 0x40, 0x0, 1, 1, .RO, 0x0, 0x0⟩,
   ⟨.PLN_MAP_NODES, 0x44, 0x0, 1, 1, .RO, 0x0, 0x0⟩,
   ⟨.PLN_MAP_EDGES, 0x48, 0x0, 1, 1, .RO, 0x0, 0x0⟩,
   ⟨.PLN_EDITION, 0x4C, 0x0, 1, 1, .RO, 0x0, 0x0⟩,
   ⟨.PLN_EDITION_ROUND, 0x50, 0x0, 1, 1, .RO, 0x0, 0x0⟩,
   ⟨.PLN_WINDOW_EDGES, 0x54, 0x0, 1, 1, .RO, 0x0, 0x0⟩,
   ⟨.PLN_ROUNDS, 0x58, 0x0, 1, 1, .RO, 0x0, 0x0⟩,
   ⟨.PLN_RECHECKS, 0x5C, 0x0, 1, 1, .RO, 0x0, 0x0⟩,
   ⟨.PLN_PARTIAL, 0x60, 0x0, 1, 1, .RO, 0x0, 0x0⟩,
   ⟨.PLN_FALLBACK, 0x64, 0x0, 1, 1, .RO, 0x0, 0x0⟩,
   ⟨.PLN_REVAL_FAIL, 0x68, 0x0, 1, 1, .RO, 0x0, 0x0⟩,
   ⟨.PLN_MISMATCH, 0x6C, 0x0, 1, 1, .RO, 0x0, 0x0⟩,
   ⟨.PLN_LAST_EXPAND, 0x70, 0x0, 1, 1, .RO, 0x0, 0x0⟩,
   ⟨.PLN_LAST_FOUND, 0x74, 0x0, 1, 1, .RO, 0x0, 0x0⟩,
   ⟨.PLN_LAST_TIME, 0x78, 0x0, 1, 1, .RO, 0x0, 0x0⟩,
   ⟨.PLN_REQ_QUEUE, 0x7C, 0x0, 1, 1, .RO, 0x0, 0x0⟩]

/-- The register map of the LAN_ block (R417). -/
def regRowsLAN : List RegRow :=
  [⟨.LAN_ID, 0x0, 0x0, 1, 1, .RO, 0x0, 0x0⟩,
   ⟨.LAN_STATE, 0x4, 0x0, 1, 1, .RO, 0x100, 0x0⟩,
   ⟨.LAN_CAUSE, 0x8, 0x0, 1, 1, .RO, 0xFFFF0001, 0x0⟩,
   ⟨.LAN_PROMISE, 0xC, 0x0, 1, 1, .RO, 0x0, 0x0⟩,
   ⟨.LAN_CLOCK, 0x10, 0x0, 1, 1, .RO, 0x0, 0x0⟩,
   ⟨.LAN_SUPPLY, 0x14, 0x0, 1, 1, .RO, 0x0, 0x0⟩,
   ⟨.LAN_ERR_STATUS, 0x20, 0x0, 1, 1, .RO, 0x0, 0x0⟩,
   ⟨.LAN_ERR_ENABLE, 0x24, 0x0, 1, 1, .RO, 0x3FF, 0x0⟩,
   ⟨.LAN_ERR_FIRST, 0x28, 0x0, 1, 1, .RO, 0x0, 0x0⟩,
   ⟨.LAN_VERDICTS, 0x30, 0x0, 1, 1, .RO, 0x0, 0x0⟩,
   ⟨.LAN_LATE, 0x34, 0x0, 1, 1, .RO, 0x0, 0x0⟩,
   ⟨.LAN_MISMATCH, 0x38, 0x0, 1, 1, .RO, 0x0, 0x0⟩,
   ⟨.LAN_LAST_LAT, 0x3C, 0x0, 1, 1, .RO, 0x0, 0x0⟩,
   ⟨.LAN_SHADOW_DISAGREE, 0x40, 0x0, 1, 1, .RO, 0x0, 0x0⟩,
   ⟨.LAN_COVERAGE, 0x44, 0x0, 1, 1, .RO, 0x0, 0x0⟩,
   ⟨.LAN_CHUNKS, 0x48, 0x0, 1, 1, .RO, 0x0, 0x0⟩,
   ⟨.LAN_ABORTS, 0x4C, 0x0, 1, 1, .RO, 0x0, 0x0⟩,
   ⟨.LAN_PERIOD, 0x50, 0x0, 1, 1, .RO, 0x64, 0x0⟩,
   ⟨.LAN_LIMITS, 0x54, 0x0, 1, 1, .RO, 0xBB80096, 0x0⟩,
   ⟨.LAN_FB_FRAME, 0x58, 0x0, 1, 1, .RO, 0x0, 0x0⟩,
   ⟨.LAN_FB_AGE, 0x5C, 0x0, 1, 1, .RO, 0x0, 0x0⟩,
   ⟨.LAN_RECORD_NEXT, 0x60, 0x0, 1, 1, .RO, 0x0, 0x0⟩,
   ⟨.LAN_BIST, 0x64, 0x0, 1, 1, .RO, 0x0, 0x0⟩]

/-- The register map of the MIR_ block (R438). -/
def regRowsMIR : List RegRow :=
  [⟨.MIR_ID, 0x0, 0x0, 1, 1, .RO, 0x0, 0x0⟩,
   ⟨.MIR_STATE, 0x4, 0x0, 1, 1, .RO, 0x0, 0x0⟩,
   ⟨.MIR_CFG, 0x8, 0x0, 1, 1, .RWL, 0x0, 0xFF000000⟩,
   ⟨.MIR_MAC_LO, 0xC, 0x0, 1, 1, .RWL, 0x0, 0xFFFFFFFF⟩,
   ⟨.MIR_MAC_HI, 0x10, 0x0, 1, 1, .RWL, 0x0, 0xFFFF⟩,
   ⟨.MIR_PEER_MAC_LO, 0x14, 0x0, 1, 1, .RWL, 0x0, 0xFFFFFFFF⟩,
   ⟨.MIR_PEER_MAC_HI, 0x18, 0x0, 1, 1, .RWL, 0x0, 0xFFFF⟩,
   ⟨.MIR_RX_BASE_LO, 0x1C, 0x0, 1, 1, .RWL, 0x0, 0xFFFFC001⟩,
   ⟨.MIR_ERR_STATUS, 0x20, 0x0, 1, 1, .W1C, 0x0, 0xFF⟩,
   ⟨.MIR_ERR_ENABLE, 0x24, 0x0, 1, 1, .RWL, 0xDC, 0xFF⟩,
   ⟨.MIR_ERR_FIRST, 0x28, 0x0, 1, 1, .RO, 0x0, 0x0⟩,
   ⟨.MIR_RX_BASE_HI, 0x2C, 0x0, 1, 1, .RWL, 0x0, 0xFFFF⟩,
   ⟨.MIR_TX_FRAMES, 0x30, 0x0, 1, 1, .RO, 0x0, 0x0⟩,
   ⟨.MIR_RX_FRAMES, 0x34, 0x0, 1, 1, .RO, 0x0, 0x0⟩,
   ⟨.MIR_RX_DROP, 0x38, 0x0, 1, 1, .RO, 0x0, 0x0⟩,
   ⟨.MIR_HB_AGE, 0x3C, 0x0, 1, 1, .RO, 0x0, 0x0⟩,
   ⟨.MIR_PEER_HEALTH, 0x40, 0x0, 1, 1, .RO, 0x0, 0x0⟩,
   ⟨.MIR_PEER_FRAME, 0x44, 0x0, 1, 1, .RO, 0x0, 0x0⟩,
   ⟨.MIR_PEER_EDITION, 0x48, 0x0, 1, 1, .RO, 0x0, 0x0⟩,
   ⟨.MIR_PEER_BOOT, 0x4C, 0x0, 1, 1, .RO, 0x0, 0x0⟩,
   ⟨.MIR_PEER_ID_LO, 0x50, 0x0, 1, 1, .RO, 0x0, 0x0⟩,
   ⟨.MIR_PEER_ID_HI, 0x54, 0x0, 1, 1, .RO, 0x0, 0x0⟩,
   ⟨.MIR_LOST_COUNT, 0x58, 0x0, 1, 1, .RO, 0x0, 0x0⟩,
   ⟨.MIR_DEGRADED_COUNT, 0x5C, 0x0, 1, 1, .RO, 0x0, 0x0⟩]

/-- The register map of the THM_ block (R463). -/
def regRowsTHM : List RegRow :=
  [⟨.THM_ID, 0x0, 0x0, 1, 1, .RO, 0x0, 0x0⟩,
   ⟨.THM_STATE, 0x4, 0x0, 1, 1, .RO, 0x0, 0x0⟩,
   ⟨.THM_CFG, 0x8, 0x0, 1, 1, .RWL, 0x282C00, 0x80FF7F00⟩,
   ⟨.THM_LIMIT, 0xC, 0x0, 1, 1, .RO, 0x1680168, 0x0⟩,
   ⟨.THM_FORECAST, 0x10, 0x0, 1, 1, .RO, 0x0, 0x0⟩,
   ⟨.THM_HBM_FORECAST, 0x14, 0x0, 1, 1, .RO, 0x0, 0x0⟩,
   ⟨.THM_R_EST, 0x18, 0x0, 1, 1, .RO, 0x320, 0x0⟩,
   ⟨.THM_SLOPE, 0x1C, 0x0, 1, 1, .RO, 0x0, 0x0⟩,
   ⟨.THM_ERR_STATUS, 0x20, 0x0, 1, 1, .W1C, 0x0, 0xFF⟩,
   ⟨.THM_ERR_ENABLE, 0x24, 0x0, 1, 1, .RWL, 0xFC, 0xFF⟩,
   ⟨.THM_ERR_FIRST, 0x28, 0x0, 1, 1, .RO, 0x0, 0x0⟩,
   ⟨.THM_INLET, 0x30, 0x0, 1, 1, .RO, 0x0, 0x0⟩,
   ⟨.THM_OUTLET, 0x34, 0x0, 1, 1, .RO, 0x0, 0x0⟩,
   ⟨.THM_FLOW, 0x38, 0x0, 1, 1, .RO, 0x0, 0x0⟩,
   ⟨.THM_SHADE_ENTRIES, 0x3C, 0x0, 1, 1, .RO, 0x0, 0x0⟩,
   ⟨.THM_HS_SEL, 0x40, 0x0, 1, 1, .RW, 0x0, 0x1F⟩,
   ⟨.THM_HS_TEMP, 0x44, 0x0, 1, 1, .RO, 0x0, 0x0⟩,
   ⟨.THM_HS_RAW, 0x48, 0x0, 1, 1, .RO, 0x0, 0x0⟩,
   ⟨.THM_HS_PEAK, 0x4C, 0x0, 1, 1, .RO, 0x0, 0x0⟩,
   ⟨.THM_LIFE, 0x50, 0x0, 1, 1, .RO, 0x0, 0x0⟩,
   ⟨.THM_HOURS, 0x54, 0x0, 1, 1, .RO, 0x0, 0x0⟩,
   ⟨.THM_PCYCLES, 0x58, 0x0, 1, 1, .RO, 0x0, 0x0⟩,
   ⟨.THM_CYC_SEL, 0x5C, 0x0, 1, 1, .RW, 0x0, 0x37⟩,
   ⟨.THM_CYC_COUNT, 0x60, 0x0, 1, 1, .RO, 0x0, 0x0⟩]

/-- The register map of the PWR_ block (R464). -/
def regRowsPWR : List RegRow :=
  [⟨.PWR_ID, 0x0, 0x0, 1, 1, .RO, 0x0, 0x0⟩,
   ⟨.PWR_STATE, 0x4, 0x0, 1, 1, .RO, 0x0, 0x0⟩,
   ⟨.PWR_PGOOD, 0x8, 0x0, 1, 1, .RO, 0x0, 0x0⟩,
   ⟨.PWR_ERR_STATUS, 0x20, 0x0, 1, 1, .W1C, 0x0, 0x1F⟩,
   ⟨.PWR_ERR_ENABLE, 0x24, 0x0, 1, 1, .RWL, 0x1E, 0x1F⟩,
   ⟨.PWR_ERR_FIRST, 0x28, 0x0, 1, 1, .RO, 0x0, 0x0⟩,
   ⟨.PWR_CAP, 0x30, 0x0, 1, 1, .RO, 0x168, 0x0⟩,
   ⟨.PWR_PKG, 0x34, 0x0, 1, 1, .RO, 0x0, 0x0⟩,
   ⟨.PWR_ENERGY, 0x38, 0x0, 1, 1, .RO, 0x0, 0x0⟩,
   ⟨.PWR_RAIL_SEL, 0x40, 0x0, 1, 1, .RW, 0x0, 0xF⟩,
   ⟨.PWR_RAIL_V, 0x44, 0x0, 1, 1, .RO, 0x0, 0x0⟩,
   ⟨.PWR_RAIL_I, 0x48, 0x0, 1, 1, .RO, 0x0, 0x0⟩,
   ⟨.PWR_RAIL_P, 0x4C, 0x0, 1, 1, .RO, 0x0, 0x0⟩,
   ⟨.PWR_RAIL_AVS, 0x50, 0x0, 1, 1, .RO, 0x0, 0x0⟩]

/-- The register map of the MGT_ block (R493). -/
def regRowsMGT : List RegRow :=
  [⟨.MGT_ID, 0x0, 0x0, 1, 1, .RO, 0x0, 0x0⟩,
   ⟨.MGT_STATE, 0x4, 0x0, 1, 1, .RO, 0x0, 0x0⟩,
   ⟨.MGT_BOOT_COUNT, 0x8, 0x0, 1, 1, .RO, 0x0, 0x0⟩,
   ⟨.MGT_TIME_LO, 0xC, 0x0, 1, 1, .RO, 0x0, 0x0⟩,
   ⟨.MGT_TIME_HI, 0x10, 0x0, 1, 1, .RO, 0x0, 0x0⟩,
   ⟨.MGT_LEDGER_NEXT_LO, 0x14, 0x0, 1, 1, .RO, 0x0, 0x0⟩,
   ⟨.MGT_LEDGER_NEXT_HI, 0x18, 0x0, 1, 1, .RO, 0x0, 0x0⟩,
   ⟨.MGT_LEDGER_OLDEST_LO, 0x1C, 0x0, 1, 1, .RO, 0x0, 0x0⟩,
   ⟨.MGT_ERR_STATUS, 0x20, 0x0, 1, 1, .W1C, 0x0, 0x7F⟩,
   ⟨.MGT_ERR_ENABLE, 0x24, 0x0, 1, 1, .RWL, 0x7E, 0x7F⟩,
   ⟨.MGT_ERR_FIRST, 0x28, 0x0, 1, 1, .RO, 0x0, 0x0⟩,
   ⟨.MGT_LEDGER_OLDEST_HI, 0x2C, 0x0, 1, 1, .RO, 0x0, 0x0⟩,
   ⟨.MGT_LEDGER_DROPPED, 0x30, 0x0, 1, 1, .RO, 0x0, 0x0⟩,
   ⟨.MGT_NET_IP, 0x34, 0x0, 1, 1, .RWL, 0x0, 0xFFFFFFFF⟩,
   ⟨.MGT_NET_CFG, 0x38, 0x0, 1, 1, .RWL, 0x0, 0x8000FFFF⟩,
   ⟨.MGT_UPDATE, 0x3C, 0x0, 1, 1, .RO, 0x0, 0x0⟩,
   ⟨.MGT_SLOTS, 0x40, 0x0, 1, 1, .RO, 0x0, 0x0⟩,
   ⟨.MGT_TAKEOVERS, 0x44, 0x0, 1, 1, .RO, 0x0, 0x0⟩,
   ⟨.MGT_MBX_CTRL, 0x100, 0x0, 1, 1, .RW, 0x0, 0x8000FFFF⟩,
   ⟨.MGT_MBX_STATUS, 0x104, 0x0, 1, 1, .RO, 0x0, 0x0⟩,
   ⟨.MGT_MBX_DATA, 0x400, 0x0, 1, 256, .RW, 0x0, 0xFFFFFFFF⟩]

/-- The register map of the SEC_ block (R493). -/
def regRowsSEC : List RegRow :=
  [⟨.SEC_ID, 0x0, 0x0, 1, 1, .RO, 0x0, 0x0⟩,
   ⟨.SEC_STATE, 0x4, 0x0, 1, 1, .RO, 0x0, 0x0⟩,
   ⟨.SEC_KEY_SLOTS, 0x8, 0x0, 1, 1, .RO, 0x0, 0x0⟩,
   ⟨.SEC_ROLLBACK_SEL, 0xC, 0x0, 1, 1, .RW, 0x1, 0x7⟩,
   ⟨.SEC_ROLLBACK, 0x10, 0x0, 1, 1, .RO, 0x0, 0x0⟩,
   ⟨.SEC_XMSS_NEXT_LO, 0x14, 0x0, 1, 1, .RO, 0x0, 0x0⟩,
   ⟨.SEC_XMSS_NEXT_HI, 0x18, 0x0, 1, 1, .RO, 0x0, 0x0⟩,
   ⟨.SEC_XMSS_RESERVED_LO, 0x1C, 0x0, 1, 1, .RO, 0x0, 0x0⟩,
   ⟨.SEC_ERR_STATUS, 0x20, 0x0, 1, 1, .W1C, 0x0, 0x1F⟩,
   ⟨.SEC_ERR_ENABLE, 0x24, 0x0, 1, 1, .RWL, 0x1F, 0x1F⟩,
   ⟨.SEC_ERR_FIRST, 0x28, 0x0, 1, 1, .RO, 0x0, 0x0⟩,
   ⟨.SEC_XMSS_RESERVED_HI, 0x2C, 0x0, 1, 1, .RO, 0x0, 0x0⟩,
   ⟨.SEC_ATTESTS, 0x30, 0x0, 1, 1, .RO, 0x0, 0x0⟩,
   ⟨.SEC_DEVICE_ID_LO, 0x34, 0x0, 1, 1, .RO, 0x0, 0x0⟩,
   ⟨.SEC_DEVICE_ID_HI, 0x38, 0x0, 1, 1, .RO, 0x0, 0x0⟩,
   ⟨.SEC_MEAS_SEL, 0x40, 0x0, 1, 1, .RW, 0x1, 0x7⟩,
   ⟨.SEC_MEAS_VERSION, 0x44, 0x0, 1, 1, .RO, 0x0, 0x0⟩,
   ⟨.SEC_MEAS_DIGEST, 0x48, 0x0, 1, 8, .RO, 0x0, 0x0⟩]

/-- The register map of a block kind. -/
def regRows (b : Block) : List RegRow :=
  match b with
  | .HIF => regRowsHIF
  | .GFE => regRowsGFE
  | .CORE => regRowsCORE
  | .TDE => regRowsTDE
  | .CAT => regRowsCAT
  | .MC => regRowsMC
  | .RC => regRowsRC
  | .D2D => regRowsD2D
  | .SIN => regRowsSIN
  | .ALN => regRowsALN
  | .PRM => regRowsPRM
  | .PLN => regRowsPLN
  | .LAN => regRowsLAN
  | .MIR => regRowsMIR
  | .THM => regRowsTHM
  | .PWR => regRowsPWR
  | .MGT => regRowsMGT
  | .SEC => regRowsSEC

/-- Every block kind. -/
def allBlocks : List Block :=
  [.HIF, .GFE, .CORE, .TDE, .CAT, .MC, .RC, .D2D, .SIN, .ALN, .PRM, .PLN, .LAN, .MIR, .THM, .PWR, .MGT, .SEC]

/-- The block kind of a register: its name's prefix. -/
def regBlock (r : Reg) : Block :=
  match r with
  | .HIF_ID | .HIF_STATUS | .HIF_SETUP_LOCK | .HIF_ERR_SUMMARY | .HIF_ERR_VECTOR | .HIF_NOTICE_RING |
    .HIF_NOTICES_LOST | .HIF_ERR_STATUS | .HIF_ERR_ENABLE | .HIF_ERR_FIRST | .HIF_RESET_COUNT |
    .HIF_PKTS_IN | .HIF_PKTS_OUT | .HIF_REJECTS | .HIF_SQ_BASE_LO | .HIF_SQ_BASE_HI | .HIF_SQ_CFG |
    .HIF_SQ_HEAD | .HIF_SQ_TAIL | .HIF_SQ_STATUS | .HIF_SQ_RESTART | .HIF_CQ_BASE_LO | .HIF_CQ_BASE_HI |
    .HIF_CQ_CFG | .HIF_CQ_STAT_LO | .HIF_CQ_STAT_HI | .HIF_CQ_MOD | .HIF_CQ_HEAD | .HIF_CQ_TAIL |
    .HIF_CQ_STATUS | .MSIX_TABLE | .MSIX_PBA => .HIF
  | .GFE_GRAPHS_LO | .GFE_GRAPHS_HI | .GFE_HELD | .GFE_HELD_HI | .GFE_GRAPH_SEL | .GFE_GRAPH_CFG |
    .GFE_GRAPH_NEXT | .GFE_GRAPH_DELIVERED => .GFE
  | .CORE_ID | .CORE_STATE | .CORE_SEQ_PC | .CORE_SLOTS | .CORE_CLK | .CORE_ERR_STATUS | .CORE_ERR_ENABLE |
    .CORE_ERR_FIRST | .CORE_ERR_ADDR | .CORE_ERR_STATION | .CORE_CE_COUNT | .CORE_UE_COUNT |
    .CORE_ERR_INJECT | .CORE_SCRUB_PERIOD | .CORE_SCRUB_STATUS | .CORE_STORE_STALL | .CORE_TE_BUSY |
    .CORE_VE_BUSY | .CORE_AP_BUSY | .CORE_DM_BUSY | .CORE_SELFTEST | .CORE_FIT_SEL | .CORE_FIT_CFG |
    .CORE_FIT_RATIO | .CORE_FIT_SAT | .CORE_FIT_OOR | .CORE_FIT_WRAP | .CORE_FIT_NAN | .CORE_FIT_WIDEN |
    .CORE_FIT_SKIPPED | .CORE_FIT_DRIFT | .CORE_FIT_CLEAR => .CORE
  | .TDE_ID | .TDE_STATE | .TDE_GRAPHS_LO | .TDE_GRAPHS_HI | .TDE_CARDS | .TDE_FIRE_COUNT |
    .TDE_STALL_COUNT | .TDE_FOLD_COUNT | .TDE_ERR_STATUS | .TDE_ERR_ENABLE | .TDE_LOAD_ERR |
    .TDE_VERSION_BUMPS | .TDE_TOKENS | .TDE_GRAPH_SEL | .TDE_GRAPH_STATUS | .TDE_GRAPH_OPENED |
    .TDE_GRAPH_DONE | .TDE_GRAPH_WITHHELD | .TDE_GRAPH_PLACEMENT => .TDE
  | .CAT_ID | .CAT_STATE | .CAT_REGION_BASE_LO | .CAT_REGION_BASE_HI | .CAT_ENTRIES_USED |
    .CAT_ENTRIES_PEAK | .CAT_RUNS_FREE | .CAT_SEQ_LIVE | .CAT_ERR_STATUS | .CAT_ERR_ENABLE |
    .CAT_ERR_HANDLE | .CAT_ALLOC_FULL | .CAT_ALLOC_SHORT | .CAT_COW | .CAT_PREEMPT | .CAT_ARCHIVE_OUT |
    .CAT_ARCHIVE_IN | .CAT_EXHAUSTED | .CAT_STALL_US | .CAT_POOL_SEL | .CAT_POOL_CFG | .CAT_POOL_FREE |
    .CAT_POOL_FRAMES | .CAT_POOL_SPLIT | .CAT_POOL_WAITERS | .CAT_SEQ_SEL | .CAT_SEQ_STATE |
    .CAT_SEQ_LENGTH | .CAT_SEQ_SHELVES => .CAT
  | .MC_ID | .MC_STATE | .MC_SET_AVAIL | .MC_CAPACITY | .MC_TEMP | .MC_TRAIN_STATUS | .MC_ERR_STATUS |
    .MC_ERR_ENABLE | .MC_ERR_ADDR_LO | .MC_ERR_ADDR_HI | .MC_CE_COUNT | .MC_UE_COUNT | .MC_CA_REPLAYS |
    .MC_ROW_GLINTS | .MC_ROW_REPAIRS | .MC_RETIRED_COUNT | .MC_RETIRED_SEL | .MC_RETIRED_ADDR |
    .MC_SCRUB_PERIOD | .MC_SCRUB_POS | .MC_SCRUB_PASSES | .MC_RAW_WAITS | .MC_PC_SEL | .MC_PC_STATUS |
    .MC_PC_CE | .MC_PC_UE => .MC
  | .RC_ID | .RC_STATE | .RC_CTRL | .RC_LOOKUPS | .RC_HITS | .RC_STALE | .RC_FILLS_DROPPED |
    .RC_ERR_STATUS | .RC_ERR_ENABLE | .RC_CE_COUNT | .RC_UE_COUNT | .RC_WAYS_OFF | .RC_TABLE_FULL => .RC
  | .D2D_ID | .D2D_FEATURE | .D2D_ROUTE | .D2D_ROLE | .D2D_ERR_STATUS | .D2D_ERR_ENABLE | .D2D_ERR_FIRST |
    .D2D_TEST | .D2D_TEST_RESULT | .D2D_PORT_SEL | .D2D_PORT_STATUS | .D2D_PORT_WIDTH |
    .D2D_PORT_PEER_WIDTH | .D2D_PORT_PEER_ID | .D2D_PORT_RETRAINS | .D2D_PORT_CRC_ERR | .D2D_PORT_REPLAYS |
    .D2D_PORT_TX_FLITS | .D2D_PORT_RX_FLITS | .D2D_PORT_GLINTS => .D2D
  | .SIN_ID | .SIN_STATE | .SIN_ARRIVAL_LO | .SIN_ARRIVAL_HI | .SIN_DEC_BUSY | .SIN_ROB_USED |
    .SIN_BUF_USED | .SIN_ERR_STATUS | .SIN_ERR_ENABLE | .SIN_ERR_FIRST | .SIN_CE_COUNT | .SIN_P_CFG |
    .SIN_P_STATUS | .SIN_P_RX | .SIN_P_CE | .SIN_P_DROP | .SIN_P_UNMATCHED | .SIN_P_OVERFLOW |
    .SIN_P_FILT | .SIN_S_CFG | .SIN_S_SIZE | .SIN_S_RATIO | .SIN_S_BUDGET_CAP | .SIN_S_MEAN | .SIN_S_BUF |
    .SIN_S_SILENCE | .SIN_S_SEED_LO | .SIN_S_SEED_HI | .SIN_S_BLACK | .SIN_S_WB0 | .SIN_S_WB1 |
    .SIN_S_CCM0 | .SIN_S_CCM1 | .SIN_S_CCM2 | .SIN_S_CCM3 | .SIN_S_CCM4 | .SIN_S_PT | .SIN_S_STAMP |
    .SIN_S_INDEX_LO | .SIN_S_INDEX_HI | .SIN_S_SAMPLES | .SIN_S_PLACEHOLDERS | .SIN_S_STATUS |
    .SIN_S_OVERRUNS | .SIN_B_CFG | .SIN_B_EDGES | .SIN_B_BASE | .SIN_B_SPOT | .SIN_B_BAND | .SIN_B_NORM |
    .SIN_B_SCALE | .SIN_B_AUG0 | .SIN_B_AUG1 | .SIN_B_SPOT_LO | .SIN_B_SPOT_HI | .SIN_B_SPOT_AGE |
    .SIN_B_SAT | .SIN_B_SPOT_MISSED => .SIN
  | .ALN_ID | .ALN_STATE | .ALN_ERR_STATUS | .ALN_ERR_ENABLE | .ALN_ERR_FIRST | .ALN_CE_COUNT |
    .ALN_EGO_YAW_ID | .ALN_EGO_YAW_FMT | .ALN_EGO_YAW_SCALE | .ALN_EGO_SPEED_ID | .ALN_EGO_SPEED_FMT |
    .ALN_EGO_SPEED_SCALE | .ALN_MERGE_CFG | .ALN_MERGE_EDGES | .ALN_MERGE_DONE | .ALN_C_SEL |
    .ALN_C_VALUE | .ALN_G_CFG | .ALN_G_MEMBERS | .ALN_G_REF_ORDER | .ALN_G_WAIT | .ALN_G_PERIOD |
    .ALN_G_REC_LO | .ALN_G_REC_HI | .ALN_G_STATUS | .ALN_G_SETS | .ALN_G_MISSING | .ALN_G_DROPPED |
    .ALN_G_REF_CHANGES | .ALN_G_CONTRA_LIMIT | .ALN_G_PERIOD_FIT | .ALN_S_CFG | .ALN_S_STATE |
    .ALN_S_RATE | .ALN_S_DEPART | .ALN_S_ADRIFT | .ALN_S_SURPLUS | .ALN_S_LATE => .ALN
  | .PRM_ID | .PRM_STATE | .PRM_CFG | .PRM_BEV_SIZE | .PRM_BEV_CELL | .PRM_BEV_ORIGIN_X |
    .PRM_BEV_ORIGIN_Y | .PRM_BEV_EDGE | .PRM_ERR_STATUS | .PRM_ERR_ENABLE | .PRM_BEV_CAMS |
    .PRM_PROJECTIONS | .PRM_Z | .PRM_C_CFG | .PRM_C_SIZE | .PRM_C_EXT | .PRM_C_INTR | .PRM_C_D |
    .PRM_C_LIMIT | .PRM_L_CFG | .PRM_L_EXT | .PRM_L_EDGES | .PRM_L_POINTS => .PRM
  | .PLN_ID | .PLN_STATE | .PLN_CFG | .PLN_SLICES | .PLN_CHECK | .PLN_WF | .PLN_SEARCH | .PLN_OUT |
    .PLN_ERR_STATUS | .PLN_ERR_ENABLE | .PLN_ERR_FIRST | .PLN_CE_COUNT | .PLN_WINDOW | .PLN_MAP_ID |
    .PLN_MAP_NODES | .PLN_MAP_EDGES | .PLN_EDITION | .PLN_EDITION_ROUND | .PLN_WINDOW_EDGES | .PLN_ROUNDS |
    .PLN_RECHECKS | .PLN_PARTIAL | .PLN_FALLBACK | .PLN_REVAL_FAIL | .PLN_MISMATCH | .PLN_LAST_EXPAND |
    .PLN_LAST_FOUND | .PLN_LAST_TIME | .PLN_REQ_QUEUE => .PLN
  | .LAN_ID | .LAN_STATE | .LAN_CAUSE | .LAN_PROMISE | .LAN_CLOCK | .LAN_SUPPLY | .LAN_ERR_STATUS |
    .LAN_ERR_ENABLE | .LAN_ERR_FIRST | .LAN_VERDICTS | .LAN_LATE | .LAN_MISMATCH | .LAN_LAST_LAT |
    .LAN_SHADOW_DISAGREE | .LAN_COVERAGE | .LAN_CHUNKS | .LAN_ABORTS | .LAN_PERIOD | .LAN_LIMITS |
    .LAN_FB_FRAME | .LAN_FB_AGE | .LAN_RECORD_NEXT | .LAN_BIST => .LAN
  | .MIR_ID | .MIR_STATE | .MIR_CFG | .MIR_MAC_LO | .MIR_MAC_HI | .MIR_PEER_MAC_LO | .MIR_PEER_MAC_HI |
    .MIR_RX_BASE_LO | .MIR_ERR_STATUS | .MIR_ERR_ENABLE | .MIR_ERR_FIRST | .MIR_RX_BASE_HI |
    .MIR_TX_FRAMES | .MIR_RX_FRAMES | .MIR_RX_DROP | .MIR_HB_AGE | .MIR_PEER_HEALTH | .MIR_PEER_FRAME |
    .MIR_PEER_EDITION | .MIR_PEER_BOOT | .MIR_PEER_ID_LO | .MIR_PEER_ID_HI | .MIR_LOST_COUNT |
    .MIR_DEGRADED_COUNT => .MIR
  | .THM_ID | .THM_STATE | .THM_CFG | .THM_LIMIT | .THM_FORECAST | .THM_HBM_FORECAST | .THM_R_EST |
    .THM_SLOPE | .THM_ERR_STATUS | .THM_ERR_ENABLE | .THM_ERR_FIRST | .THM_INLET | .THM_OUTLET |
    .THM_FLOW | .THM_SHADE_ENTRIES | .THM_HS_SEL | .THM_HS_TEMP | .THM_HS_RAW | .THM_HS_PEAK | .THM_LIFE |
    .THM_HOURS | .THM_PCYCLES | .THM_CYC_SEL | .THM_CYC_COUNT => .THM
  | .PWR_ID | .PWR_STATE | .PWR_PGOOD | .PWR_ERR_STATUS | .PWR_ERR_ENABLE | .PWR_ERR_FIRST | .PWR_CAP |
    .PWR_PKG | .PWR_ENERGY | .PWR_RAIL_SEL | .PWR_RAIL_V | .PWR_RAIL_I | .PWR_RAIL_P | .PWR_RAIL_AVS => .PWR
  | .MGT_ID | .MGT_STATE | .MGT_BOOT_COUNT | .MGT_TIME_LO | .MGT_TIME_HI | .MGT_LEDGER_NEXT_LO |
    .MGT_LEDGER_NEXT_HI | .MGT_LEDGER_OLDEST_LO | .MGT_ERR_STATUS | .MGT_ERR_ENABLE | .MGT_ERR_FIRST |
    .MGT_LEDGER_OLDEST_HI | .MGT_LEDGER_DROPPED | .MGT_NET_IP | .MGT_NET_CFG | .MGT_UPDATE | .MGT_SLOTS |
    .MGT_TAKEOVERS | .MGT_MBX_CTRL | .MGT_MBX_STATUS | .MGT_MBX_DATA => .MGT
  | .SEC_ID | .SEC_STATE | .SEC_KEY_SLOTS | .SEC_ROLLBACK_SEL | .SEC_ROLLBACK | .SEC_XMSS_NEXT_LO |
    .SEC_XMSS_NEXT_HI | .SEC_XMSS_RESERVED_LO | .SEC_ERR_STATUS | .SEC_ERR_ENABLE | .SEC_ERR_FIRST |
    .SEC_XMSS_RESERVED_HI | .SEC_ATTESTS | .SEC_DEVICE_ID_LO | .SEC_DEVICE_ID_HI | .SEC_MEAS_SEL |
    .SEC_MEAS_VERSION | .SEC_MEAS_DIGEST => .SEC

/-- The row of a register. -/
def regRow (r : Reg) : RegRow :=
  ((regRows (regBlock r)).find? (fun x => x.reg = r)).getD ⟨r, 0, 0, 1, 1, .RO, 0, 0⟩

/-- A register of the package: its name, the unit that carries it (core 0 … 31, die 0 … 3 or, for D2D_, 4 + hub, or
hub 0, 1), the ring, port or stream (management's own copy of a select register: 1), and the word. -/
structure RegAddr where
  reg : Reg
  inst : Nat
  unit : Nat
  word : Nat
  deriving DecidableEq, Repr

/-- The key of a register in the register table. -/
def RegAddr.key (a : RegAddr) : Nat := ((a.reg.ctorIdx * 64 + a.inst) * 64 + a.unit) * 512 + a.word

/-- The register at an offset of a block. -/
def findReg (rows : List RegRow) (inst o : Nat) : Option RegAddr :=
  match rows with
  | [] => none
  | r :: rest =>
    let d := o - r.offset
    if r.offset ≤ o ∧ r.stride = 0 ∧ d < 4 * r.words then some ⟨r.reg, inst, 0, d / 4⟩
    else if r.offset ≤ o ∧ 0 < r.stride ∧ d / r.stride < r.units ∧ d % r.stride < 4 * r.words then
      some ⟨r.reg, inst, d / r.stride, d % r.stride / 4⟩
    else findReg rest inst o

/-- R241: the hub-die part of BAR0 (offsets 0x000_0000 … 0x07F_FFFF) of hub `h`. -/
def decodeHubOffset (h o : Nat) : Option RegAddr :=
  match o / 0x10000 with
  | 0x00 => if 0x4000 ≤ o ∧ o < 0x8000 then findReg regRowsGFE h (o - 0x4000) else findReg regRowsHIF h o
  | 0x10 => findReg regRowsSIN h (o - 0x100000)
  | 0x11 => findReg regRowsALN h (o - 0x110000)
  | 0x12 => findReg regRowsPRM h (o - 0x120000)
  | 0x20 => findReg regRowsPLN h (o - 0x200000)
  | 0x30 => findReg regRowsMIR h (o - 0x300000)
  | 0x31 => findReg regRowsTHM 0 (o - 0x310000)
  | 0x32 => findReg regRowsPWR 0 (o - 0x320000)
  | 0x33 => findReg regRowsMGT h (o - 0x330000)
  | 0x34 => findReg regRowsSEC h (o - 0x340000)
  | 0x40 => findReg regRowsLAN h (o - 0x400000)
  | 0x50 => findReg regRowsD2D (4 + h) (o - 0x500000)
  | _ => none

/-- R241: the window of Talxon die `n`. -/
def decodeDieOffset (n o : Nat) : Option RegAddr :=
  match o / 0x10000 with
  | 0x00 => findReg regRowsTDE n o
  | 0x20 => findReg regRowsCAT n (o - 0x200000)
  | 0x28 => findReg regRowsMC n (o - 0x280000)
  | 0x2C => findReg regRowsRC n (o - 0x2C0000)
  | 0x30 => findReg regRowsD2D n (o - 0x300000)
  | b => if 0x10 ≤ b ∧ b < 0x18 then findReg regRowsCORE (8 * n + (b - 0x10)) (o % 0x10000) else none

/-- Where a BAR0 offset of a link lands: a register, through the other hub's view (R242) or not. -/
inductive Bar0Target where
  | reg (a : RegAddr)
  | otherView (a : Option RegAddr)
  | reserved
  deriving DecidableEq, Repr

/-- R241: the BAR0 map of hub `h`'s link. -/
def decodeBar0 (h o : Nat) : Bar0Target :=
  if o < 0x800000 then
    match decodeHubOffset h o with
    | some a => .reg a
    | none => .reserved
  else if o < 0x1000000 then .otherView (decodeHubOffset (1 - h) (o - 0x800000))
  else if o < 0x2000000 then
    match decodeDieOffset ((o - 0x1000000) / 0x400000) ((o - 0x1000000) % 0x400000) with
    | some a => .reg a
    | none => .reserved
  else .reserved

end Machine
end Sys2Proof
end

