-- ==== Sys2Proof/Machine/State.lean ====
section
/-! DEFINITION. The state of the AE32: plain data, one structure per block of the manual, and the state after
reset. Where a structure gives a field a value with `:=`, that is its value after a power-on reset. -/

namespace Sys2Proof.Machine

/-! ### The ledger and the packets (R248 … R254, R470) -/

/-- One entry waiting for the ledger writer (R471): the event, its die code, its detail fields and when it arose. -/
structure LogEntry where
  ev : Event
  die : Nat
  detail : List Nat
  at_ : Nat
  deriving DecidableEq, Repr

/-- A completion packet (R253): header fields and payload. -/
structure Completion where
  kind : Nat            -- 0x80 DONE, 0x81 ARCHIVE_OUT, 0x82 NOTICE
  link : Nat
  cq : Nat
  tag : Nat
  status : Nat
  cmdType : Nat
  sq : Nat              -- 0xFF when none
  frame : Nat := 0
  graph : Nat := 0xFF
  result : List Byte := []
  payload : List Byte := []
  /-- part number and whether parts 0 … already went out (R254) -/
  part : Nat := 0
  epoch : Nat := 0
  /-- the reduced-diagnostic-coverage flag (R409): the manual gives it no place in the packet (log 32) -/
  reduced : Bool := false
  deriving DecidableEq, Repr

/-- A command packet that the front end has taken (R247): header, payload, its ring, and what is left of it. -/
structure Packet where
  link : Nat
  sq : Nat
  header : List Byte
  payload : List Byte
  poisoned : Bool := false
  /-- the resets that its link had seen when it was read (R239) -/
  epoch : Nat := 0
  /-- CACHE_OP and CONFIG: entries done so far, their statuses, and QUERY records (R263, R264) -/
  doneOps : Nat := 0
  statuses : List (Nat × Nat) := []
  records : List Byte := []
  deriving DecidableEq, Repr

/-! ### Cores and their engines (R73 … R111) -/

/-- CORE_STATE.run (R109). -/
inductive CoreRun where
  | RESET | IDLE | RUNNING | HALTED | SELFTEST | DVFS
  deriving DecidableEq, Repr

/-- One accumulator element (R76): its value, its path tag, its wrap mark and its poison mark (R107).
+0.0 with the FP32 tag after reset (DESIGN CHOICE, log 7). -/
structure Acc where
  val : Word := 0
  isInt : Bool := false
  wrap : Bool := false
  poison : Bool := false
  deriving DecidableEq, Repr

/-- One weight set of the tensor engine (R73): the tile record loaded into it; `expand` when TE_XLOAD loaded
half `half` of it as BF16 (R78). -/
structure WSet where
  record : List Byte
  expand : Bool := false
  half : Nat := 0
  poison : Bool := false
  deriving DecidableEq, Repr

/-- The fields of a station instruction word (R99), with the strides of its SEQ_LOOPs already added to its addresses
(R102). -/
structure IWord where
  op : Nat := 0xF0
  fmtA : Nat := 0
  fmtB : Nat := 0
  fmtO : Nat := 0
  swap : Bool := false
  keep : Bool := false
  fit : Bool := false
  endPass : Bool := false
  waitEn : Bool := false
  waitFlag : Nat := 0
  postEn : Bool := false
  postFlag : Nat := 0
  a : Nat := 0
  b : Nat := 0
  o : Nat := 0
  dim0 : Nat := 0
  dim1 : Nat := 0
  dim2 : Nat := 0
  imm : Nat := 0
  deriving DecidableEq, Repr

/-- One SEQ_LOOP in progress (R102): its body, its strides and the iteration running. -/
structure LoopFrame where
  first : Nat
  len : Nat
  total : Nat
  strideA : Nat
  strideO : Nat
  iter : Nat := 0
  deriving DecidableEq, Repr

/-- The attention pipeline (R83, R176 … R178): query rows, running maximum and sum, value accumulators, the
descriptor of the pass, the next block and the pins it holds. -/
structure ApState where
  fmt : Nat := 0
  d : Nat := 0
  rows : List (List F32) := []
  runMax : List F32 := []
  runSum : List F32 := []
  val : List (List F32) := []
  nextPos : Nat := 0
  started : Bool := false
  pins : List Nat := []
  poison : Bool := false
  deriving DecidableEq, Repr

/-- The frame counters of the fit monitor (R58), with the elements they are compared against (R59). -/
structure FitCounts where
  sat : Nat := 0
  oor : Nat := 0
  wrap : Nat := 0
  nan : Nat := 0
  outs : Nat := 0
  ins : Nat := 0
  deriving DecidableEq, Repr

/-- One station slot of a core (R96, R109, R111). -/
structure Slot where
  valid : Bool := false
  graph : Nat := 0
  station : Nat := 0
  copy : Nat := 0
  progStart : Nat := 0
  progLen : Nat := 0
  rerunStart : Nat := 0
  rerunLen : Nat := 0
  fitMode : Nat := 0
  widenGroup : Nat := 0xFFF
  ratio : Nat := 4096
  /-- fit_ratio_n set by CONFIG, in force from the next frame (R60), with that frame's number -/
  nextRatio : Option (Nat × Nat) := none
  counts : FitCounts := {}
  /-- the counts of the first pass, once SEQ_FIT_CHECK has reported (R66) -/
  first : Option FitCounts := none
  last : FitCounts := {}
  widenTotal : Nat := 0
  skippedTotal : Nat := 0
  drift : Nat := 0
  deriving DecidableEq, Repr

/-- A slot that has fired and waits for the sequencer (R129, R130). -/
structure ReadyPass where
  frame : Nat
  rank : Nat
  station : Nat
  copy : Nat
  slot : Nat
  graph : Nat
  firedAt : Nat := 0
  /-- shelves pinned for its fused attention descriptors (R179) -/
  pins : List Nat := []
  deriving DecidableEq, Repr

/-- One core (R73 … R111). -/
structure CoreState where
  run : CoreRun := .RESET
  /-- the core's next pass waits for the targeted self-test that an aborted pass called for (R106, R148) -/
  testHold : Bool := false
  /-- the core halts for a DVFS step, or on a stopped clock, in the middle of a pass (R24) -/
  dvfsPass : Bool := false
  slot : Nat := 0
  graph : Nat := 0
  frame : Nat := 0
  station : Nat := 0
  copy : Nat := 0
  firedAt : Nat := 0
  pc : Nat := 0
  rerun : Bool := false
  /-- SEQ_FIT_CHECK has reported and waits for the group decision (R103) -/
  waitDecision : Bool := false
  loops : List LoopFrame := []
  flags : Tbl Nat := []
  /-- the sequencer has been stopped by an error; CORE_SEQ_PC stays -/
  stopped : Bool := false
  queueTe : List IWord := []
  queueVe : List IWord := []
  queueAp : List IWord := []
  queueDm0 : List IWord := []
  queueDm1 : List IWord := []
  active : Option WSet := none
  loading : Option WSet := none
  acc : Tbl Acc := []
  ap : ApState := {}
  prog : Tbl (BitVec 128) := []
  slots : Tbl Slot := []
  ready : List ReadyPass := []
  /-- tiles sent by the running pass, per output position (R513) -/
  sent : Tbl Nat := []
  /-- releases that a WIDEN station keeps until its group decision, per input position (R62, R126) -/
  bound : Tbl Nat := []
  /-- shelves pinned for the running pass's fused attention descriptors, until SEQ_END (R179) -/
  pins : List Nat := []
  /-- the running pass has read poison (R107) -/
  poisoned : Bool := false
  /-- corrected errors per bank since `ceSince` (R105: more than 64 within 1 s) -/
  ceBank : Tbl Nat := []
  ceSince : Nat := 0
  scrubLine : Nat := 0
  /-- the next line of the cluster scrubber (R94), kept with the lowest core of the cluster -/
  clusterLine : Nat := 0
  /-- the signature of the running pass (R392): sum of line hashes, lines -/
  sigSum : BitVec 64 := 0
  sigLines : Nat := 0
  /-- CORE_SELFTEST: tests, failed unit, result (R109) -/
  tests : Nat := 0
  failedUnit : Nat := 0
  testResult : Nat := 0
  deriving DecidableEq, Repr

/-! ### Graphs, stations and the dependence engines (R112 … R153) -/

/-- The graph header (R113, R510). -/
structure GraphHeader where
  stations : Nat := 0
  edges : Nat := 0
  buffers : Nat := 0
  trigger : Nat := 0
  safety : Nat := 0
  checking : Nat := 0
  copies : Nat := 1
  policy : Nat := 0
  slackGuard : Nat := 2000
  deadline : Nat := 0
  timeoutMs : Nat := 0
  inFlight : Nat := 0
  period : Nat := 0
  kvHeads : Nat := 0
  headDim : Nat := 0
  attnFmt : Nat := 0
  deriving DecidableEq, Repr

/-- A task card (R120). -/
structure Card where
  station : Nat := 0
  graph : Nat := 0
  flags : Nat := 0
  rank : Nat := 0
  fitMode : Nat := 0
  slot : Nat := 0
  core : Nat := 0
  widenGroup : Nat := 0xFFF
  progStart : Nat := 0
  progLen : Nat := 0
  passTimeout : Nat := 0
  fitRatio : Nat := 4096
  energy : Nat := 0
  rerunCycles : Nat := 0
  restUs : Nat := 0
  stagingLine : Nat := 0
  stagingLines : Nat := 0
  nIn : Nat := 0
  nOut : Nat := 0
  stateBuf : Nat := 0xFFFF
  inEdges : List Nat := []
  outEdges : List Nat := []
  alts : List Nat := []
  altStreamed : Nat := 0
  weightBytes : Nat := 0
  weightOffset : Nat := 0
  rerunStart : Nat := 0
  rerunLen : Nat := 0
  deriving DecidableEq, Repr

/-- An edge entry (R122). -/
structure Edge where
  kind : Nat := 0
  fmt : Nat := 0
  producer : Nat := 0xFFFF
  consumer : Nat := 0xFFFF
  depth : Nat := 0
  foldDepth : Nat := 0
  slotBytes : Nat := 0
  frameTiles : Nat := 0
  rxLine : Nat := 0
  buffer : Nat := 0
  deriving DecidableEq, Repr

/-- A buffer entry (R511) with what the device keeps of it: where it lies now, its version (R136) and, for a state
buffer, which half is COMMITTED (R140). -/
structure Buffer where
  addr : Nat := 0
  bytes : Nat := 0
  home : Nat := 0xFF
  alt : Nat := 0xFF
  isState : Bool := false
  initOffset : Nat := 0xFFFFFFFF
  altAddr : Nat := 0
  at_ : Nat := 0
  version : Nat := 0
  committedHigh : Bool := false
  deriving DecidableEq, Repr

/-- A store-map entry (R512). -/
structure MapEntry where
  core : Nat := 0
  owner : Nat := 0
  copy : Nat := 0
  kind : Nat := 0
  store : Nat := 0
  level : Nat := 0
  line : Nat := 0
  lines : Nat := 0
  deriving DecidableEq, Repr

/-- A fold record (R512). -/
structure FoldRec where
  station : Nat := 0
  copy : Nat := 0
  level : Nat := 0
  slot : Nat := 0
  progStart : Nat := 0
  rerunStart : Nat := 0
  map : List MapEntry := []
  deriving DecidableEq, Repr

/-- A forecast entry (R512). -/
structure Forecast where
  station : Nat := 0
  copy : Nat := 0
  energy : Nat := 0
  passCycles : Nat := 0
  fireUs : Nat := 0
  deriving DecidableEq, Repr

/-- A parsed bundle (R112). -/
structure Bundle where
  header : GraphHeader := {}
  cards : List Card := []
  programs : List (List (BitVec 128) × List (BitVec 128)) := []
  edges : List Edge := []
  buffers : List Buffer := []
  storeMap : List MapEntry := []
  folds : List FoldRec := []
  forecasts : List Forecast := []
  inline : List Nat := []
  weightsOff : Nat := 0
  initOff : Nat := 0
  initLen : Nat := 0
  deriving DecidableEq, Repr

/-- Where a station runs now (R150): core, slot, programs, level 0 home … 3 die_alt, STREAMED or not, placed or not. -/
structure Place where
  core : Nat := 0
  slot : Nat := 0
  progStart : Nat := 0
  rerunStart : Nat := 0
  level : Nat := 0
  streamed : Bool := false
  placed : Bool := true
  deriving DecidableEq, Repr

/-- A tile on a stream (R124): header, payload and scale block as bytes. -/
structure Tile where
  stream : Nat := 0
  seq : Nat := 0
  frame : Nat := 0
  fmt : Nat := 0
  last : Bool := false
  poisoned : Bool := false
  widened : Bool := false
  scales : Bool := false
  groupLen : Nat := 0
  scaleFmt : Nat := 0
  rows : Nat := 0
  cols : Nat := 0
  graph : Nat := 0
  producer : Nat := 0xFFFF
  /-- payload and scale block, without the 128 B of header and padding -/
  body : List Byte := []
  deriving DecidableEq, Repr

/-- A tile in a receive slot (R126): its slot and what R80 needs of its header. -/
structure RxTile where
  slot : Nat
  frame : Nat
  seq : Nat
  fmt : Nat
  last : Bool
  widened : Bool
  poisoned : Bool
  rows : Nat
  cols : Nat
  groupLen : Nat
  scaleFmt : Nat
  deriving DecidableEq, Repr

/-- One stream edge of one copy (R125 … R127): credits of the producer, tiles and credits in flight, the receive side. -/
structure Stream where
  edge : Nat
  copy : Nat
  credits : Nat
  depth : Nat
  rxLine : Nat
  inFlight : List Tile := []
  creditsBack : Nat := 0
  rx : List RxTile := []
  nextSlot : Nat := 0
  /-- tiles of `rx` that DM_RECV has bound in the running pass -/
  read : Nat := 0
  expFrame : Nat := 0
  expSeq : Nat := 0
  /-- the expected frame is open at the receive side (a tile of it has arrived and its last has not) -/
  inFrame : Bool := false
  /-- the lowest frame number that a new frame on the stream may have (R125) -/
  minFrame : Nat := 0
  /-- a stream without a producer station (0xFFFF): tiles of the intake and the prism that wait for credits, and the lowest
  frame whose tiles are not made yet (R307, R334) -/
  queued : List Tile := []
  nextMade : Nat := 0
  deriving DecidableEq, Repr

/-- The per-entry state of a SEQ_STEP (R168 … R172). -/
structure StepEntry where
  seq : Nat
  newTokens : Nat
  inputRow : Nat
  status : Nat := 0
  /-- still in the step (not removed at admission) -/
  live : Bool := true
  deriving DecidableEq, Repr

/-- What one lantern has said of a frame (R26, R389). -/
structure VerdictRec where
  judged : Bool := false
  onTime : Bool := false
  /-- verdict returned, or counted late by R26 -/
  back : Bool := false
  latency : Nat := 0
  checkFail : Bool := false
  deriving DecidableEq, Repr

/-- An open frame of a graph (R128 … R145, R258). -/
structure Frame where
  num : Nat
  openedAt : Nat := 0
  /-- the ring and tag of the GRAPH_RUN or SEQ_STEP; none for FRAME_SET frames -/
  link : Nat := 0
  sq : Nat := 0xFF
  tag : Nat := 0xFFFFFFFF
  epoch : Nat := 0
  /-- the frame set that opened it (R322): group and set number -/
  setGroup : Nat := 0
  setNum : Nat := 0
  missing : Nat := 0
  closedAt : Nat := 0
  steps : Option (List StepEntry) := none
  cacheTimeoutMs : Nat := 20
  /-- passes: (station, copy) -/
  fired : List (Nat × Nat) := []
  ended : List (Nat × Nat) := []
  aborted : List (Nat × Nat) := []
  /-- tokens present at the consumer: (edge, copy) -/
  tokens : List (Nat × Nat) := []
  /-- widen groups: (group, copy, station, crossed) reports, and decisions (group, copy, rerun) -/
  reports : List (Nat × Nat × Nat × Bool) := []
  decisions : List (Nat × Nat × Bool) := []
  widened : List Nat := []
  skipped : List Nat := []
  stateWritten : List Nat := []
  /-- tiles that reached the output stage, per edge (R126) -/
  outTiles : List Tile := []
  /-- the planner has taken its edition token (R351), and what it handed over -/
  planned : Bool := false
  edition : Nat := 0
  coverage : Nat := 65535
  trajectory : List Byte := []
  /-- status codes that apply (R67, R272) -/
  codes : List Nat := []
  pairDone : Bool := false
  pairMatched : Bool := false
  handedOver : Bool := false
  handoverAt : Nat := 0
  verdictA : VerdictRec := {}
  verdictB : VerdictRec := {}
  withheld : Bool := false
  /-- a checker mismatch has been reported (R397) -/
  mismatch : Bool := false
  /-- the kinds of failed results whose suspects are under test (R398) -/
  suspected : List Nat := []
  /-- hubs whose merge unit has worked on the frame (R337) -/
  merged : List Nat := []
  /-- envelope entries that a comparator has tested: (entry, hub) (R395) -/
  compared : List (Nat × Nat) := []
  timedOut : Bool := false
  /-- completed at the front end, in frame order (R138) -/
  released : Bool := false
  deriving DecidableEq, Repr

/-- TDE_GRAPH_STATUS.state (R153). -/
inductive GraphRun where
  | notLoaded | loading | running | unloading | paused
  deriving DecidableEq, Repr

/-- A loaded graph (R117). -/
structure Graph where
  num : Nat
  state : GraphRun := .running
  image0 : Nat := 0
  image1 : Option Nat := none
  imageLen : Nat := 0
  /-- the arguments of its GRAPH_LOAD (header bytes 16 … 63) and the digest of its bundle header (R420) -/
  args : List Byte := []
  digest : List Byte := []
  out : Nat := 0
  out2 : Nat := 0
  bundle : Bundle := {}
  places : List Place := []
  streams : List Stream := []
  frames : List Frame := []
  nextFrame : Nat := 0
  lastDone : Nat := 0
  /-- when its last frame was admitted (R450) -/
  admittedAt : Option Nat := none
  doneCount : Nat := 0
  delivered : Nat := 0
  withheld : Nat := 0
  placement : Nat := 0
  loadedAt : Nat := 0
  stateReset : Bool := false
  unplaceable : Bool := false
  parityCards : List (Nat × Nat) := []
  /-- the last frame delivered with a code of class 0x00xx, and when (R300) -/
  lastUsable : Option (Nat × Nat) := none
  /-- NAN_SEEN rate limit (R61): (station, copy, frame last logged) -/
  nanLogged : List (Nat × Nat × Nat) := []
  /-- the packet that waits for an unload or a return home to end -/
  waiter : Option Packet := none
  deriving DecidableEq, Repr

/-- A token on the CTRL channel (R131). -/
structure Token where
  graph : Nat
  frame : Nat
  edge : Nat
  copy : Nat
  deriving DecidableEq, Repr

/-- What a version rise releases once every die has acknowledged it (R136). -/
inductive VersionThen where
  | token (t : Token)
  | put (id : Nat)
  | fold
  /-- a set record (R323): its frames open once every die knows it -/
  | record
  deriving DecidableEq, Repr

/-- A rise of a buffer version on its way (R136): dies still to hear, dies still to acknowledge. -/
structure VersionMove where
  graph : Nat
  buffer : Nat
  version : Nat
  home : Nat
  toSend : List Nat
  toAck : List Nat
  arrived : List Nat := []
  since : Nat
  then_ : VersionThen
  deriving DecidableEq, Repr

/-- A frame that waits for admission (R128): a SEQ_STEP or GRAPH_RUN packet, or a closed frame set. -/
structure FrameReq where
  graph : Nat
  link : Nat := 0
  sq : Nat := 0xFF
  tag : Nat := 0xFFFFFFFF
  epoch : Nat := 0
  setGroup : Nat := 0
  setNum : Nat := 0
  /-- the frame number given at the opening of a frame set (R318) -/
  setFrame : Option Nat := none
  missing : Nat := 0
  closedAt : Nat := 0
  steps : Option (List StepEntry) := none
  cacheTimeoutMs : Nat := 20
  /-- the frame of a set whose leading aligner was lost: it completes INVALID (R342) -/
  invalid : Bool := false
  deriving DecidableEq, Repr

/-- A stall report or other fault that waits for its targeted self-test (R147, R148, R398, R399). -/
structure TestReq where
  /-- a unit: core c as c, the uncore of die d as 32 + d, the planner, intake, comparator of hub h as 36, 38, 40 + h -/
  unit : Nat
  /-- 0 stall, 1 engine error, 2 checker mismatch, 3 mesh parity, 4 CE storm, 5 store UE, 6 lift of a fence -/
  cause : Nat
  at_ : Nat
  deriving DecidableEq, Repr

/-- All graphs, what is in flight between stations, and the fold in progress. -/
structure GraphsState where
  graphs : List Graph := []
  requests : List FrameReq := []
  tokens : List Token := []
  versions : List VersionMove := []
  folding : Bool := false
  tests : List TestReq := []
  /-- targeted self-tests that run -/
  testing : List TestReq := []
  /-- units whose test has passed since their fence (R146) -/
  liftable : List Nat := []
  /-- fences in force: cores, clusters, dies (R143) -/
  fencedCores : List Nat := []
  fencedClusters : List Nat := []
  fencedDies : List Nat := []
  deriving DecidableEq, Repr

/-! ### Attention and the shelf cache (R154 … R195) -/

/-- The states of a shelf entry (R162). -/
inductive ShelfSt where
  | UNUSED | FILLING | FULL | COPYING | ARCHIVING | RESTORING | DRAINING | QUARANTINED
  deriving DecidableEq, Repr

/-- A shelf entry (R162). `before` is the state before ARCHIVING (R165). -/
structure Shelf where
  addr : Nat := 0
  st : ShelfSt := .UNUSED
  cls : Nat := 0
  pool : Nat := 0
  flags : Nat := 0
  refs : Nat := 0
  pins : Nat := 0
  tokens : Nat := 0
  queue : Nat := 0
  before : ShelfSt := .UNUSED
  deriving DecidableEq, Repr

/-- The states of a sequence (R163). -/
inductive SeqSt where
  | CLOSED | LIVE | IN_STEP | ARCHIVING | ARCHIVED | RESTORING | LOST
  deriving DecidableEq, Repr

/-- A sequence record (R163). -/
structure SeqRec where
  pool : Nat := 0
  st : SeqSt := .CLOSED
  priority : Nat := 0
  layers : Nat := 0
  bound : Bool := false
  sealed_ : Bool := false
  graph : Nat := 0
  length : Nat := 0
  basePos : Nat := 0
  window : Nat := 0
  perFrame : Nat := 0
  admission : Nat := 0
  epoch : Nat := 0
  chunks : Nat := 0
  digest : List Byte := List.replicate 16 0
  parent : Nat := 0xFFFF
  deriving DecidableEq, Repr

/-- A shelf list (R164): list runs in order, entries of the first run already unmapped, and the live entries
(class, handle) in ascending position. -/
structure ShelfList where
  /-- the position at which the first entry starts (log 20) -/
  start : Nat := 0
  skip : Nat := 0
  runs : List Nat := []
  entries : List (Nat × Nat) := []
  deriving DecidableEq, Repr

/-- A frame of a pool (R156): FREE, WHOLE, SPLIT with its short shelves (first 16-token unit, class), or lost to
quarantine (R165). -/
inductive PoolFrame where
  | free
  | whole
  | split (parts : List (Nat × Nat))
  | lost
  deriving DecidableEq, Repr

/-- A pool (R154). -/
structure Pool where
  die : Nat := 0
  base : Nat := 0
  frames : Nat := 0
  shelfBytes : Nat := 0
  heads : Nat := 0
  d : Nat := 0
  fmt : Nat := 5
  boundOnly : Bool := false
  altDie : Nat := 0xFF
  archiveLink : Nat := 0
  archiveRing : Nat := 0
  use : Tbl PoolFrame := []
  /-- POOL_CREATE's flag byte and its arguments as the restart record keeps them (R420) -/
  args : List Byte := []
  /-- frames reserved by BIND and not yet in use, per sequence (R175) -/
  reserved : Tbl Nat := []
  deriving DecidableEq, Repr

/-- A stalled append (R186 … R189). -/
structure Stall where
  graph : Nat
  frame : Nat
  entry : Nat
  seq : Nat
  layer : Nat
  since : Nat
  restarted : Nat
  timeoutMs : Nat
  deriving DecidableEq, Repr

/-- A copy-on-write in progress (R183). -/
structure CowCopy where
  seq : Nat
  layer : Nat
  index : Nat
  source : Nat
  dest : Nat
  graph : Nat
  frame : Nat
  entry : Nat
  deriving DecidableEq, Repr

/-- An append that has not been written yet: the packed K and V of the positions left (R170). -/
structure PendingAppend where
  graph : Nat
  frame : Nat
  entry : Nat
  seq : Nat
  layer : Nat
  done : Nat
  total : Nat
  kv : List Byte
  poison : Bool := false
  deriving DecidableEq, Repr

/-- An archive in progress (R187, R191): next layer, shelf and chunk; the data bytes that have gone out. -/
structure ArchiveJob where
  seq : Nat
  pool : Nat
  layer : Nat := 0
  offset : Nat := 0
  chunk : Nat := 0
  data : List Byte := []
  /-- the requester that is its own victim (R188): graph, frame and step entry -/
  own : Option (Nat × Nat × Nat) := none
  deriving DecidableEq, Repr

/-- A restore in progress (R192). -/
structure RestoreJob where
  seq : Nat
  next : Nat
  data : List Byte
  layers : List Nat := []
  /-- shelf packed streams not yet complete: layer, first position, tokens, bytes so far -/
  layer : Nat := 0
  first : Nat := 0
  tokens : Nat := 0
  shelf : List Byte := []
  deriving DecidableEq, Repr

/-- One catalogue partition (R159). Keys: shelves by entry, records by seq_id, lists by seq_id × 128 + layer. -/
structure CatState where
  run : Nat := 0            -- 0 RESET, 1 NO_REGION, 2 RUNNING, 3 LOST
  shelves : Tbl Shelf := []
  lists : Tbl ShelfList := []
  usedRuns : List Nat := []
  /-- counters of R195 -/
  peak : Nat := 0
  allocFull : Nat := 0
  allocShort : Nat := 0
  cow : Nat := 0
  preempt : Nat := 0
  archiveOut : Nat := 0
  archiveIn : Nat := 0
  exhausted : Nat := 0
  stallUs : Nat := 0
  /-- shelves whose count would have gone below 0, not yet reported (R193) -/
  countErrs : List Nat := []
  deriving DecidableEq, Repr

/-- The shelf cache of the package. -/
structure ShelfCache where
  cats : Tbl CatState := []
  pools : Tbl Pool := []
  seqs : Tbl SeqRec := []
  admitCount : Nat := 0
  stalls : List Stall := []
  cows : List CowCopy := []
  appends : List PendingAppend := []
  archives : List ArchiveJob := []
  restores : List RestoreJob := []
  deriving DecidableEq, Repr

/-! ### HBM stacks, controllers and remote caches (R196 … R213) -/

/-- A replay episode of a pseudo-channel (R203): failed replays so far. -/
structure PcState where
  /-- 0 normal, 1 replaying, 2 set lost, 3 fenced (MC_PC_STATUS) -/
  st : Nat := 0
  replays : Nat := 0
  ce : Nat := 0
  ue : Nat := 0
  /-- HBM_CE rate limit (R200): when it was last logged, and the count since -/
  ceLogged : Option Nat := none
  ceSince : Nat := 0
  /-- addresses of the writes in the 64-entry queue (R205) -/
  writeQueue : List Nat := []
  /-- next bank that the per-bank refresh serves (R206) -/
  refreshBank : Nat := 0
  refreshes : Nat := 0
  deriving DecidableEq, Repr

/-- A row under test (R201): pseudo-channel, bank, row, and the address that asked for it. -/
structure RowTest where
  addr : Nat
  started : Bool := false
  deriving DecidableEq, Repr

/-- The controller and keeper of one stack (R207, R213). -/
structure McState where
  run : Nat := 0            -- 0 RESET, 1 TRAINING, 2 TESTING, 3 READY, 4 FAILED
  refresh : Nat := 0        -- 0 normal, 1 doubled, 2 quadrupled
  scrubbing : Bool := false
  setAvail : Nat := 0xFF
  /-- sets fenced or lost now (R204); cleared at cold boot -/
  lostSets : List Nat := []
  temp : Int := 0
  trained : Nat := 0
  laneRepairs : Nat := 0
  height : Nat := 0
  present : Bool := false
  /-- row glints: (row key, management-local time of the last one) (R202) -/
  glints : List (Nat × Nat) := []
  glintCount : Nat := 0
  /-- rows repaired and 4 KiB blocks retired, as stack offset ÷ 4,096 and row keys; copies of the sticky region -/
  repairs : List Nat := []
  retired : List Nat := []
  scrubPos : Nat := 0
  scrubPasses : Nat := 0
  pcs : Tbl PcState := []
  rowTests : List RowTest := []
  /-- since when the temperature has been 3 °C below the threshold of the present rate (R206) -/
  coolSince : Option Nat := none
  lastCalibration : Nat := 0
  deriving DecidableEq, Repr

/-- One line of a remote cache (R210): its tag; the data is what the line held when it was filled. -/
structure RcLine where
  addr : Nat
  graph : Nat
  buffer : Nat
  version : Nat
  way : Nat
  data : List Byte
  deriving DecidableEq, Repr

/-- A fill in flight (R212). -/
structure RcFill where
  addr : Nat
  graph : Nat
  buffer : Nat
  version : Nat
  /-- a write of this die to the same line was accepted meanwhile -/
  overtaken : Bool := false
  deriving DecidableEq, Repr

/-- The remote cache of one die (R210 … R213). -/
structure RcState where
  lines : List RcLine := []
  fills : List RcFill := []
  /-- tree pseudo-LRU bits per set (R210) -/
  plru : Tbl Nat := []
  wayErrors : Tbl Nat := []
  waysOff : Nat := 0
  /-- range table: graph, buffer (R211) -/
  ranges : List (Nat × Nat) := []
  deriving DecidableEq, Repr

/-- Stacks and caches of the package. -/
structure MemState where
  mcs : Tbl McState := []
  rcs : Tbl RcState := []
  deriving DecidableEq, Repr

/-! ### On-die network and die-to-die links (R214 … R236) -/

/-- One die-to-die port (R232 … R236). Ports of a die: index die × 4 + port, die code 0 … 5 (R216). -/
structure PortState where
  /-- D2D_PORT_STATUS.state -/
  st : Nat := 0
  width : Word := 0
  peerWidth : Word := 0
  peerId : Word := 0
  role : Nat := 0
  retrains : Nat := 0
  /-- failed exchanges of this bring-up, and those without a word (R233) -/
  tries : Nat := 0
  sidebandFails : Nat := 0
  /-- the loop-back test of R229 has not been run since the fence -/
  untested : Bool := false
  crcErr : Nat := 0
  replays : Nat := 0
  txFlits : Nat := 0
  rxFlits : Nat := 0
  glints : Nat := 0
  /-- replays since `replaySince` and when D2D_LINK_MARGINAL was last logged (R228) -/
  replaySec : Nat := 0
  replaySince : Nat := 0
  marginalAt : Option Nat := none
  /-- consecutive failures of one flit (R228) -/
  flitFails : Nat := 0
  fenced : Bool := false
  /-- fenced until the next warm or power-on reset (R229) -/
  lasting : Bool := false
  deriving DecidableEq, Repr

/-- A message inside a die's mesh (R216, R219): the node it is at, and the message. -/
structure MeshMsg where
  die : Nat
  x : Nat
  y : Nat
  msg : NetMsg
  deriving DecidableEq, Repr

/-- A read without its response (R220): the requester's node, the transaction number, and since when. -/
structure OpenRead where
  die : Nat
  x : Nat
  y : Nat
  tag : Nat
  since : Nat
  msg : NetMsg
  deriving DecidableEq, Repr

/-- The network of the package. Route tables: 3-bit entries of destination d in bits [3 d + 2 : 3 d] (R221). -/
structure NetState where
  ports : Tbl PortState := []
  routes : Tbl Nat := []
  feature : Nat := 0
  messages : List MeshMsg := []
  delivered : List MeshMsg := []
  reads : List OpenRead := []
  /-- loop-back tests that run (R234): die, port, mode, and the port's state before -/
  portTests : List (Nat × Nat × Nat × Nat) := []
  /-- dies whose mesh test has been asked for (R220) -/
  meshTests : List Nat := []
  /-- links under a persistent fault report (R153): 4 × die + port -/
  linkTests : List Nat := []
  deriving DecidableEq, Repr

/-! ### The host link (R237 … R276) -/

/-- HIF_SQ_STATUS.state (R275). -/
inductive SqRun where
  | DISABLED | IDLE | FETCHING | HELD | ERROR
  deriving DecidableEq, Repr

/-- A submission ring (R244 … R250, R268). -/
structure SqState where
  run : SqRun := .DISABLED
  head : Nat := 0
  tail : Nat := 0
  heldType : Nat := 0
  /-- packets taken whose effect is not finished, oldest first -/
  taken : List Packet := []
  /-- packets taken whose (last) completion has not been written: what the order flag waits for (R268) -/
  outstanding : Nat := 0
  /-- since when the packet at the head has extended past the doorbelled tail (R250) -/
  shortSince : Option Nat := none
  /-- the tag of that packet's header -/
  shortTag : Nat := 0xFFFFFFFF
  deriving DecidableEq, Repr

/-- A completion ring (R248, R249, R269). -/
structure CqState where
  enabled : Bool := false
  head : Nat := 0
  tail : Nat := 0
  written : Nat := 0
  /-- completions that wait for room, oldest first -/
  queue : List Completion := []
  /-- completions written since the last interrupt, and when the first of them was written -/
  unsignalled : Nat := 0
  firstAt : Option Nat := none
  /-- full since, and whether this episode has been logged -/
  fullSince : Option Nat := none
  fullLogged : Bool := false
  deriving DecidableEq, Repr

/-- One PCIe endpoint with its link (R238, R241, R274). -/
structure LinkState where
  up : Bool := false
  d3hot : Bool := false
  perst : Bool := true
  rate : Nat := 0
  width : Nat := 0
  /-- a hub die that has failed is lost until the next package reset (R419) -/
  lost : Bool := false
  /-- Function Level Resets and PERST_N resets seen; completions of packets of an earlier epoch are discarded (R239) -/
  epoch : Nat := 0
  /-- HIF_ERR_SUMMARY.restarted (R270) -/
  restarted : Bool := false
  deriving DecidableEq, Repr

/-- HIF_STATUS.stage (R275). -/
inductive Stage where
  | RESET | BOOT | READY | RESTARTING | STOPPED
  deriving DecidableEq, Repr

/-- What the block sends outside (one list in order of sending, so that a host, a bus or a board can be attached):
writes to host memory, MSI-X messages, CAN FD messages of a lantern, mirror-link frames, Ikisan datagrams and the answers to ARP and ICMP echo, AVSBus
requests. -/
inductive Output where
  | hostWrite (link addr : Nat) (data : List Byte)
  | msix (link vector : Nat)
  | can (lantern id : Nat) (data : List Byte)
  | mirror (hub : Nat) (payload : List Byte)
  | datagram (hub ip port : Nat) (data : List Byte)
  | arpReply (hub ip : Nat)
  | echoReply (hub ip : Nat) (data : List Byte)
  | avs (rail mv : Nat)
  deriving DecidableEq, Repr

/-- The host links. Rings: key link × 64 + ring. -/
structure HifState where
  stage : Stage := .RESET
  bootStage : Nat := 0
  hostReady : Bool := false
  locked : Bool := false
  /-- TENSOR_PUT packets whose buffer versions are not yet acknowledged everywhere (R136): number, packet, versions left -/
  puts : List (Nat × Packet × Nat) := []
  putNext : Nat := 0
  /-- HIF_ERR_SUMMARY.blocks (R270, R275) -/
  summary : Nat := 0
  links : Tbl LinkState := []
  sqs : Tbl SqState := []
  cqs : Tbl CqState := []
  /-- the value that the last HIF_ERR_SUMMARY_READ returned -/
  readReturn : Word := 0
  deriving DecidableEq, Repr

/-! ### Sensor ports and the intake pipeline (R277 … R309) -/

/-- Where a sample stands in the intake (R289, R290): being received, complete and waiting for its pipeline or decoder, in a
decoder, decoded, or finished as far as its reception goes. -/
inductive SampleSt where
  | receiving | ready | decoding | decoded | done
  deriving DecidableEq, Repr

/-- The kinds of R292. -/
inductive Kind where
  | DATA | EMPTY | DECODE_OVERRUN | DIM_IMPLAUSIBLE | LOST
  deriving DecidableEq, Repr

/-- A point of a sweep: its row as R306 sends it, and its time in ns after the sweep's sensor stamp (R283). -/
structure SweepPoint where
  row : List F32
  ns : Int
  deriving DecidableEq, Repr

/-- A sample between its begin and its release (R290), with what has been received of it. -/
structure Sample where
  id : Nat
  stream : Nat                 -- hub-local, 0 … 11
  index : Nat
  arrival : Nat := 0
  stamp : Nat := 0
  st : SampleSt := .receiving
  kind : Kind := .DATA
  hwError : Bool := false
  /-- it holds one of the 64 reorder entries -/
  entry : Bool := true
  width : Nat := 0
  height : Nat := 0
  /-- CSI-2 lines (packed bytes), or the bytes of a compressed, point or host sample -/
  lines : List (List Byte) := []
  data : List Byte := []
  /-- bytes received, and bytes of the input buffer that it holds (R291) -/
  got : Nat := 0
  held : Nat := 0
  total : Nat := 0
  imageNo : Nat := 0
  /-- the first embedded data packet has been read (R280) -/
  embedded : Bool := false
  points : List SweepPoint := []
  lastAzimuth : Option Int := none
  lastSeq : Option Nat := none
  gap : Bool := false
  /-- the planes of R297, 16-bit values in row order -/
  planes : List (List Nat) := []
  decoder : Option Nat := none
  decodeSince : Nat := 0
  /-- the spotlight regions read at the frame start, per binding: x0, y0, x1, y1, priority (R300) -/
  spots : List (Nat × List (List Nat)) := []
  /-- HOST: the last part, once taken -/
  host : Bool := false
  last : Option Packet := none
  /-- the aligner has answered: group and set, and the frames that the set serves (R307, R319) -/
  assigned : Bool := false
  set : Option (Nat × Nat) := none
  frames : List (Nat × Nat) := []
  /-- its tiles are made -/
  sent : Bool := false
  deriving DecidableEq, Repr

/-- One hub-local stream (R287, R296, R308). -/
structure StreamSt where
  /-- next index of a port stream; last index of a HOST stream -/
  next : Nat := 0
  silent : Bool := false
  lastKind : Nat := 0
  gaps : Nat := 0
  /-- decode times in intake cycles of the last 32 samples that completed within budget -/
  times : List Nat := []
  loggedAt : Option Nat := none
  /-- when its last sample began, or when it was enabled -/
  lastBegin : Nat := 0
  deriving DecidableEq, Repr

/-- One port (R279 … R285). -/
structure PortSt where
  up : Bool := false
  /-- CAN: bus-off, error-passive -/
  busOff : Bool := false
  passive : Bool := false
  /-- CSI-2: bytes in the line queue while the pipeline waits on credits (R291) -/
  lineQueue : Nat := 0
  deriving DecidableEq, Repr

/-- A kept CAN frame (R285), as its 128 B record holds it. -/
structure CanRecord where
  arrival : Nat
  id : Nat
  ext : Bool
  fd : Bool
  brs : Bool
  esi : Bool
  data : List Byte
  deriving DecidableEq, Repr

/-- A report of an intake to the leading aligner (R312): a sample's begin, or its completion with its kind. -/
structure SampleReport where
  id : Nat
  stream : Nat
  arrival : Nat
  begins : Bool
  kind : Kind := .DATA
  deriving DecidableEq, Repr

/-- The intake of one hub. -/
structure IntakeState where
  run : Nat := 0
  arrivalBase : Nat := 0
  nextId : Nat := 0
  samples : List Sample := []
  /-- compressed and point samples in the order they became ready -/
  ready : List Nat := []
  streams : Tbl StreamSt := []
  ports : Tbl PortSt := []
  /-- history rings of the auxiliary streams, oldest first, at most 4,096 records -/
  can0 : List CanRecord := []
  can1 : List CanRecord := []
  reports : List SampleReport := []
  deriving DecidableEq, Repr

/-! ### Frame sets, projection and fusion (R310 … R345) -/

/-- The states of a member stream (R326). -/
inductive AlignSt where
  | OFF | ACQUIRING | ADMITTED | ADRIFT | REFERENCE
  deriving DecidableEq, Repr

/-- One stream's alignment (R315, R326): its fits as lists of (own time, slot time) in ns, newest last. -/
structure AlignStream where
  st : AlignSt := .OFF
  arrivalFit : List (Int × Int) := []
  sensorFit : List (Int × Int) := []
  frozen : Bool := false
  /-- the first reference of the group maps with rate 1 and offset 0 (R317) -/
  identity : Bool := false
  run : Nat := 0
  cause : Nat := 0
  depart : Int := 0
  /-- set and arrival stamp of the last member sample (R319) -/
  lastSet : Option (Nat × Nat) := none
  /-- ADMITTED from this set on (R326) -/
  admitFrom : Nat := 0
  deriving DecidableEq, Repr

/-- A stream's sample in a set (R319, R325): the stream, the identity of its sample in its intake, and what is known of it. -/
structure Member where
  stream : Nat
  id : Nat
  arrival : Nat
  stamp : Nat := 0
  mapped : Option Int := none
  kind : Nat := 0
  done : Bool := false
  judged : Bool := false
  drift : Bool := false
  consistent : Bool := false
  deriving DecidableEq, Repr

/-- A frame set between its creation and the admission of its frames (R318 … R324). `num` is the number of its slot. -/
structure FrameSet where
  num : Nat
  frames : List (Nat × Nat)        -- graph, frame number
  tau : Int
  predicted : Bool := true
  ref : Nat := 0xFF
  refChanged : Bool := false
  noRef : Bool := false
  dtPrev : Int := 0
  members : List Member := []
  firstDone : Option Nat := none
  waitUs : Nat
  closed : Bool := false
  missing : Nat := 0
  egoMissing : Bool := false
  yaw : F32 := 0
  speed : F32 := 0
  deriving DecidableEq, Repr

/-- One set group (R310). -/
structure GroupSt where
  nextSet : Nat := 0
  sets : List FrameSet := []
  /-- number and slot time of the newest set -/
  last : Option (Nat × Int) := none
  /-- reference intervals in ns, newest last, at most 64 (R318), and the last reference sample's slot time -/
  intervals : List Int := []
  lastRefTau : Option Int := none
  ref : Nat := 0x1F
  hadRef : Bool := false
  noRef : Bool := false
  /-- an episode of R320, and the slots that were not created -/
  dropping : Bool := false
  dropped : List Nat := []
  egoEpisode : Bool := false
  deriving DecidableEq, Repr

/-- A contradiction counter (R338): its value and whether it may raise again (R339). -/
structure ContraSt where
  value : Nat := 0
  fired : Bool := false
  deriving DecidableEq, Repr

/-- The merge unit of one hub (R337 … R340). -/
structure MergeSt where
  counters : Tbl ContraSt := []
  done : Nat := 0
  /-- digest of the last merge: frame and digest of output and counter updates -/
  digest : Option (Nat × List Byte) := none
  deriving DecidableEq, Repr

/-- A sweep in the point store of a hub's prism (R334): of a sample of the intake. -/
structure Sweep where
  hub : Nat
  stream : Nat
  id : Nat
  points : List SweepPoint
  deriving DecidableEq, Repr

/-- Alignment, prism and merge of the package. Streams are package streams 0 … 23. -/
structure AlignState where
  streams : Tbl AlignStream := []
  groups : Tbl GroupSt := []
  merges : Tbl MergeSt := []
  store : List Sweep := []
  deriving DecidableEq, Repr

/-! ### The planner (R346 … R381) -/

/-- A road map (R346, R347): where its image lies, and its header. -/
structure RoadMap where
  addr : Nat := 0
  len : Nat := 0
  id : Nat := 0
  nodes : Nat := 0
  edges : Nat := 0
  boxes : Nat := 0
  nodeOff : Nat := 0
  edgeOff : Nat := 0
  boxOff : Nat := 0
  deriving DecidableEq, Repr

/-- The edition header (R350). -/
structure EditionHdr where
  frame : Nat := 0
  tau : Int := 0
  originX : Int := 0
  originY : Int := 0
  poseX : Int := 0
  poseY : Int := 0
  heading : Nat := 0
  startMs : Nat := 0
  start : Nat := 0
  goal : Nat := 0
  candidates : Nat := 0
  budget : Nat := 0
  deriving DecidableEq, Repr

/-- An edition bank (R354): cells by slice × 2^20 + row × 1,024 + column; an unlisted cell costs 0. The graph's cells and
the overlay as it stood: the cost is the higher (R352). -/
structure Bank where
  edition : Nat := 0
  hdr : EditionHdr := {}
  cells : Tbl Nat := []
  overlay : Tbl Nat := []
  deriving DecidableEq, Repr

/-- The change list of a staged edition, and the corner of its grid (R354). -/
structure Changes where
  edition : Nat
  cells : List Nat
  overflow : Bool
  originX : Int
  originY : Int
  deriving DecidableEq, Repr

/-- What is staged (R353). -/
inductive Staging where
  | graph (graph frame base : Nat) (hdr : EditionHdr) (takenAt : Nat)
  | delta (entries : List Nat)
  | roadmap (map : RoadMap)
  deriving DecidableEq, Repr

/-- An edition that has its number: `planners` are those it changes (bit h). -/
structure StageJob where
  edition : Nat
  planners : Nat
  what : Staging
  deriving DecidableEq, Repr

/-- Whom a round serves (R377): a frame, or a PLAN_REQ by its number. -/
inductive RoundFor where
  | frame (graph frame : Nat)
  | request (id : Nat)
  deriving DecidableEq, Repr

/-- A PLAN_REQ at the planners it names (R262, R377). -/
structure PlanRequest where
  id : Nat
  pkt : Packet
  planners : Nat
  takenAt : Nat
  deriving DecidableEq, Repr

/-- The phases of R360; in `search` the search has ended when the stage of `output` begins. -/
inductive RoundPhase where
  | check | recheck | wavefront | search | output
  deriving DecidableEq, Repr

/-- The settings that a round runs with (R381). -/
structure PlanSet where
  n : Nat := 16
  delta : Nat := 500
  block : Nat := 255
  riskWeight : Nat := 4
  outside : Nat := 255
  k : Nat := 16
  maxPasses : Nat := 64
  maxExpand : Nat := 256
  nodeLimit : Nat := 4
  guard : Nat := 500
  decel : Nat := 200
  max : Nat := 8192
  deriving DecidableEq, Repr

/-- A footprint box (R346). -/
structure FootBox where
  cx : Int := 0
  cy : Int := 0
  heading : Nat := 0
  halfL : Nat := 0
  halfW : Nat := 0
  t : Nat := 0
  deriving DecidableEq, Repr

/-- An active edge and what its checker holds (R355). -/
structure ActiveEdge where
  num : Nat := 0
  src : Nat := 0
  dst : Nat := 0
  base : Nat := 0
  duration : Nat := 0
  boxes : List FootBox := []
  deriving DecidableEq, Repr

/-- A node of the window, or the goal (R346). -/
structure MapNode where
  num : Nat := 0
  x : Int := 0
  y : Int := 0
  first : Nat := 0
  count : Nat := 0
  deriving DecidableEq, Repr

/-- A candidate: its path as (edge, departure slice, departure time), its final cost and whether it ends at the goal. -/
structure Candidate where
  path : List (Nat × Nat × Nat)
  cost : Nat
  goal : Bool
  deriving DecidableEq, Repr

/-- A round in progress (R360). -/
structure Round where
  for_ : RoundFor
  phase : RoundPhase := .check
  /-- both planners run it; which leads -/
  paired : Bool := false
  leader : Nat := 0
  set : PlanSet := {}
  start : Nat := 0
  goal : Nat := 0
  startMs : Nat := 0
  wanted : Nat := 0
  startedAt : Nat := 0
  limit : Option Nat := none
  er : Nat := 0
  es : Nat := 0
  eout : Nat := 0
  window : List ActiveEdge := []
  nodes : List MapNode := []
  /-- m[i][s] of each active edge, a list of slices for each box (R357) -/
  costs : List (Nat × List (List Nat)) := []
  /-- cost-to-go less than 2^32 by cell; unlisted cells are unreached (R362) -/
  wave : Tbl Nat := []
  passes : Nat := 0
  incomplete : Bool := false
  found : List Candidate := []
  partialPath : Option Candidate := none
  expansions : Nat := 0
  /-- the search stopped at the limit; the limit passed before the search -/
  stopped : Bool := false
  missed : Bool := false
  deriving DecidableEq, Repr

/-- The cuts of R360: the edition a PLAN_REQ of both planners starts from, e_s, the stop count, that no search ran, e_out. -/
inductive CutKind where
  | er | es | stop | missed | eout
  deriving DecidableEq, Repr

/-- A cut value for a planner. -/
structure Cut where
  for_ : RoundFor
  kind : CutKind
  value : Nat
  deriving DecidableEq, Repr

/-- A round handed over, whose pair compare is still to come (R375). -/
structure Handed where
  for_ : RoundFor
  hub : Nat
  record : List Byte
  status : Nat
  deriving DecidableEq, Repr

/-- PLN_STATE.run (R381). -/
inductive PlanRun where
  | RESET | NO_MAP | READY | MAP_LOST
  deriving DecidableEq, Repr

/-- One planner. -/
structure PlannerState where
  run : PlanRun := .RESET
  map : RoadMap := {}
  nextMap : Option RoadMap := none
  banks : List Bank := []
  newest : Nat := 0
  overlay : Tbl Nat := []
  changes : List Changes := []
  /-- the next staged edition's change list counts as overflowed (R379) -/
  spoiled : Bool := false
  staging : List StageJob := []
  windowEdges : Nat := 0
  round : Option Round := none
  /-- frame rounds whose editions are staged: graph, frame, edition, when its token was taken -/
  frameRounds : List (Nat × Nat × Nat × Nat) := []
  requests : List PlanRequest := []
  cuts : List Cut := []
  lastReleased : List Byte := []
  lastRound : Nat := 0
  deriving DecidableEq, Repr

/-- Both planners, and the edition numbers of the leader (R353). -/
structure PlannersState where
  pl : Tbl PlannerState := []
  lastNumber : Nat := 0
  nextRequest : Nat := 0
  /-- PLAN_REQs that are taken and not completed -/
  active : List PlanRequest := []
  /-- MAP_EDITION packets whose planners have not all staged: edition, packet, planners left -/
  waiting : List (Nat × Packet × List Nat) := []
  /-- on the CTRL channel: editions and cuts for a planner, digests for the leader (none: no digest) -/
  orders : List (Nat × StageJob) := []
  cuts : List (Nat × Cut) := []
  digests : List (RoundFor × Option (List Byte)) := []
  handed : List Handed := []
  deriving DecidableEq, Repr

/-! ### Lanterns, checking and the single-fault promise (R382 … R417) -/

/-- LAN_STATE.run (R417). -/
inductive LanRun where
  | RESET | BOOT | RUNNING | SAFE | FAILED | UPDATING
  deriving DecidableEq, Repr

/-- What a lantern says of a frame (R389, R390). -/
structure Verdict where
  onTime : Bool
  latency : Nat
  passed : Bool
  deriving DecidableEq, Repr

/-- A frame that a lantern times and judges (R388 … R396). -/
structure LanFrame where
  graph : Nat
  frame : Nat
  /-- when its start message arrived; none when it was lost (R387) or has not come -/
  start : Option Nat := none
  /-- a result of its checking has failed (R396) -/
  failed : Bool := false
  /-- the kinds of results that have failed -/
  kinds : List Nat := []
  /-- a late verdict has been sent at the deadline (R390) -/
  late : Bool := false
  /-- LANTERN_DISAGREE has been logged (R396) -/
  disagreed : Bool := false
  /-- the hand-over has arrived -/
  handed : Bool := false
  verdict : Option Verdict := none
  /-- envelope results received: (entry, hub, elements outside, passed) -/
  envelopes : List (Nat × Nat × Nat × Bool) := []
  /-- signatures received: (station, copy, sum, lines, widened) -/
  signatures : List (Nat × Nat × BitVec 64 × Nat × Bool) := []
  pair : Option Bool := none
  merge : Option Bool := none
  deriving DecidableEq, Repr

/-- A unit of the in-field self-test (R402 … R406). -/
structure TestUnit where
  /-- chunks passed in the period; the next one is at the head of its queue -/
  passed : Nat := 0
  /-- consecutive periods uncovered, and covered since it was starved -/
  missed : Nat := 0
  good : Nat := 3
  starved : Bool := false
  windowEnd : Nat := 0
  /-- a chunk runs; it is the rerun of one that failed -/
  running : Bool := false
  rerun : Bool := false
  deriving DecidableEq, Repr

/-- One entry of a lantern's event record (R416), as its 64 bytes hold it: `boot` and `at_` are the lantern's own boot count and
time. -/
structure RecEntry where
  ev : Event
  detail : List Nat
  seq : Nat
  boot : Nat
  at_ : Nat
  deriving DecidableEq, Repr

/-- One lantern. -/
structure Lantern where
  run : LanRun := .RESET
  /-- since when it runs: it judges the frames whose start message came after that (R419) -/
  since : Nat := 0
  config : LnfConfig := {}
  /-- boots of the lantern itself -/
  boots : Nat := 0
  /-- FAULT pin asserted (low), its cause and the graph of the cause (LAN_CAUSE), the causes that have not ended -/
  fault : Bool := true
  cause : Nat := 1
  causeGraph : Nat := 0xFFFF
  causes : List Nat := [1]
  active : Bool := true
  /-- the heartbeats: own output, peer heard when, peer lost, periods out of bounds in a row -/
  hbOut : Bool := false
  peerHeard : Option Nat := none
  peerLost : Bool := false
  badPeriods : Nat := 0
  /-- own clock against the hub reference in ppm, and out of bounds -/
  clockDev : Int := 0
  clockBad : Bool := false
  /-- the active management processor: last heard, silent and noted so since when -/
  mpHeard : Option Nat := none
  mpSilentAt : Option Nat := none
  frames : List LanFrame := []
  lastJudged : Nat := 0
  /-- frames judged since it runs (R485) -/
  judged : Nat := 0
  /-- stored trajectory (R27): record, its frame, when it was stored -/
  stored : List Byte := []
  storedFrame : Nat := 0
  storedAt : Nat := 0
  /-- per safety-relevant graph: consecutive usable frames (R411), and when the last one came (R410) -/
  usable : Tbl Nat := []
  lastUsable : Tbl Nat := []
  /-- units covered in the last period, periods completed, period in ms, when the period began -/
  coveredUnits : Nat := 0
  periods : Nat := 0
  periodMs : Nat := 100
  periodAt : Nat := 0
  /-- the conditions of R458: within ratings, and since when none of them holds -/
  withinRatings : Bool := true
  ratingsSince : Option Nat := none
  /-- LAN_PROMISE.holds as last reported (R409) -/
  promiseHeld : Bool := false
  /-- LAN_ERR_STATUS: bit → time it may fall (R417); conditions that last; LAN_ERR_FIRST -/
  errHold : Tbl Nat := []
  errLast : List Nat := []
  errFirst : Nat := 0
  sramCe : Nat := 0
  gaps : Nat := 0
  record : List RecEntry := []
  recordNext : Nat := 0
  trajSeq : Nat := 0
  /-- times of the warm resets it requested (R427), newest first; one since which no frame was usable -/
  warmRequests : List Nat := []
  warmWait : Option Nat := none
  /-- it holds PWR_OFF_REQ_N low, since when -/
  pwrOff : Option Nat := none
  /-- since when a sudden flow loss lasts, in its own clock (R455) -/
  lossAt : Option Nat := none
  compareTest : Bool := false
  bist : Nat := 0
  /-- its own flash (R382): the active LNF slot, slots 0 and 1, and those that an update has erased since manufacture -/
  slot : Nat := 0
  images : Tbl (Tbl Byte) := []
  erased : List Nat := []
  lastLat : Nat := 0
  verdicts : Nat := 0
  late : Nat := 0
  mismatch : Nat := 0
  shadowDisagree : Nat := 0
  chunks : Nat := 0
  aborts : Nat := 0
  deriving DecidableEq, Repr

/-- A station's signature on its way to a lantern (R392, R393). -/
structure SigMsg where
  lantern : Nat
  graph : Nat
  frame : Nat
  station : Nat
  copy : Nat
  sum : BitVec 64
  lines : Nat
  widened : Bool
  deriving DecidableEq, Repr

/-- A comparator's verdict and count on its way to a lantern (R395). -/
structure EnvMsg where
  lantern : Nat
  graph : Nat
  frame : Nat
  entry : Nat
  hub : Nat
  outside : Nat
  passed : Bool
  deriving DecidableEq, Repr

/-- The suspects of a checker mismatch under test (R398, R401): units left, units passed, whether one has failed, and for
a SHADOW mismatch the entry and its count. -/
structure Suspects where
  left : List Nat
  passed : List Nat := []
  failed : Bool := false
  shadow : Option (Nat × Nat) := none
  deriving DecidableEq, Repr

/-- What checking keeps for the package. Glints per unit (numbered as in `TestReq`), as the checked-frame counts at which
they came (R400). -/
structure SafetyState where
  lanterns : Tbl Lantern := []
  units : Tbl TestUnit := []
  checked : Nat := 0
  sigs : List SigMsg := []
  envs : List EnvMsg := []
  glints : Tbl (List Nat) := []
  suspects : List Suspects := []
  /-- hub units treated as lost (R399) -/
  lostUnits : List Nat := []
  deriving DecidableEq, Repr

/-! ### Resets, the restart record and the mirror twin (R418 … R438) -/

/-- The restart record (R420). -/
structure RestartRecord where
  generation : Nat := 0
  regions : List (Nat × Nat) := []
  /-- graph, GRAPH_LOAD arguments (header bytes 16 … 63), digest of the bundle header -/
  graphs : List (Nat × List Byte × List Byte) := []
  /-- pool_id and POOL_CREATE arguments: die, frames, base, shelf bytes, heads, d, format, alternate, archive -/
  pools : List (Nat × List Nat) := []
  /-- seq_id, OPEN arguments, BIND arguments -/
  seqs : List (Nat × List Nat × List Nat) := []
  deriving DecidableEq, Repr

/-- The keeper store of one Talxon die (R420, R456, R466). -/
structure KeeperStore where
  record : Option RestartRecord := none
  shade : Nat := 0
  cause : Nat := 0
  loss : Bool := false
  glints : Tbl (List Nat) := []
  drifts : Tbl Nat := []
  deriving DecidableEq, Repr

/-- Where a package reset stands. -/
inductive ResetPhase where
  | porstLow | coldBoot | running | warmRequested | warmRestart | stopped
  deriving DecidableEq, Repr

/-- Resets (R418 … R427). -/
structure RecoveryState where
  phase : ResetPhase := .porstLow
  /-- who requested the warm reset: 0, 1 a lantern, 2 the fault manager, 3 a host RESET message, 4 UPDATE_ACTIVATE HUBS -/
  requester : Nat := 0
  requestedAt : Nat := 0
  assertedAt : Nat := 0
  /-- DOWN frames a lantern still has to send: lantern, frames sent, cause code -/
  down : List (Nat × Nat × Nat) := []
  keepers : Tbl KeeperStore := []
  /-- dies in reset, with the time they left reset and whether this is the second try of an update (R419, R486) -/
  dieResets : List (Nat × Nat × Bool) := []
  /-- lanterns restarting (R418): lantern, since -/
  lanRestarts : List (Nat × Nat) := []
  deriving DecidableEq, Repr

/-- One mirror-link port (R429, R431, R435). -/
structure MirPort where
  up : Bool := false
  /-- since when the port is enabled, and when it last carried a HEARTBEAT and an EXCHANGE -/
  enAt : Nat := 0
  hbAt : Option Nat := none
  exAt : Option Nat := none
  seqHb : Nat := 0
  seqEx : Nat := 0
  seqDown : Nat := 0
  rxIndex : Nat := 0
  deriving DecidableEq, Repr

/-- MIR_STATE.twin (R438). -/
inductive TwinSt where
  | UNKNOWN | ALIVE | DEGRADED | LOST | HUNG
  deriving DecidableEq, Repr

/-- The mirror twin (R429 … R434). -/
structure MirrorState where
  ports : Tbl MirPort := []
  twin : TwinSt := .UNKNOWN
  misses : Nat := 0
  /-- an EXCHANGE has arrived since the last release of the mirrored graph, and a release has happened -/
  heard : Bool := false
  released : Bool := false
  lead : Bool := false
  leadSince : Nat := 0
  /-- since when the device acts FOLLOW after a reset, and when it last heard a twin acting LEAD; the configured role applies -/
  roleAt : Nat := 0
  leadHeard : Option Nat := none
  roleSettled : Bool := false
  /-- both act LEAD, and so it has been logged -/
  conflict : Bool := false
  /-- restore rule: since when HEARTBEATs have come without a gap, EXCHANGEs in a row with run RUNNING -/
  hbSince : Option Nat := none
  runningEx : Nat := 0
  /-- status of the last released completion of the mirrored graph, and what the twin last sent -/
  lastStatus : Nat := 0
  peerBoot : Nat := 0
  peerFrame : Nat := 0
  /-- an EXCHANGE has ever arrived -/
  heardEx : Bool := false
  deriving DecidableEq, Repr

/-! ### Power, cooling and life (R439 … R464) -/

/-- A hot spot (0 … 21) or a stack (22 … 25) with its two sensors (R445, R446), in 0.125 °C. -/
structure SpotState where
  a : Int := 0
  b : Int := 0
  /-- a reading has been taken of each (the rate rule compares with the previous one) -/
  seenA : Bool := false
  seenB : Bool := false
  badA : Bool := false
  badB : Bool := false
  value : Int := 0
  status : Nat := 0
  peak : Int := 0
  splitAt : Option Nat := none
  /-- power filtered through tau (R449), in mW -/
  pFilt : Int := 0
  /-- the forecast peaks of levels 0 … 3 (R449), in µ°C -/
  forecast : List Int := []
  deriving DecidableEq, Repr

/-- One supply rail (R439 … R443). -/
structure RailState where
  good : Bool := false
  requested : Nat := 0
  measured : Nat := 0
  current : Nat := 0
  peak : Nat := 0
  held : Bool := false
  /-- consecutive requests without acknowledgement or confirmation, and all unacknowledged ones (saturating) -/
  fails : Nat := 0
  nacks : Nat := 0
  telemetryAt : Nat := 0
  confirmed : Nat := 0
  deriving DecidableEq, Repr

/-- The clock of one cluster (R24, R443, R450): cluster 2 n + j of Talxon die n; step in 100 MHz, 0 stopped. -/
structure ClusterClock where
  step : Nat := 9
  target : Option Nat := none
  deriving DecidableEq, Repr

/-- Rainflow counting of one die (R460): turning points not yet closed in 0.125 °C, half cycles per bin. -/
structure Rainflow where
  points : List Int := []
  halves : List Nat := [0, 0, 0, 0]
  deriving DecidableEq, Repr

/-- Life counters as the sticky region keeps them (R460, R473): µs powered, power cycles, half cycles by die code. -/
structure LifeCounters where
  poweredUs : Nat := 0
  powerCycles : Nat := 0
  halves : Tbl (List Nat) := []
  deriving DecidableEq, Repr

/-- The thermal controller, the supplies and the life counters. -/
structure ThermalState where
  spots : Tbl SpotState := []
  rails : Tbl RailState := []
  clocks : Tbl ClusterClock := []
  cap : Nat := 360
  /-- tray (R447): valid, last values (0.01 units), failures and good readings in a row -/
  trayOk : Bool := false
  inlet : Int := 0
  outlet : Int := 0
  flow : Nat := 0
  pumpOn : Bool := false
  trayFails : Nat := 0
  trayGood : Nat := 0
  trayLost : Bool := false
  /-- R_est in 0.1 mK/W, the last raw estimates newest first, and what the next step needs (R448) -/
  rEst : Nat := 0x320
  rRaw : List Nat := []
  /-- without a tray: a change of the 1 s average power: when, the junction and the power before it -/
  rStep : Option (Nat × Int × Nat) := none
  lastPower : Nat := 0
  shade : Nat := 0
  cause : Nat := 0
  /-- since when the lower level has satisfied R451, and since when the cause of level 3 has been gone -/
  lowerSince : Option Nat := none
  goneSince : Option Nat := none
  /-- THM_STATE.flow: 0 normal, 1 LOW, 2 LOSS, 3 unknown -/
  flowSt : Nat := 0
  rHighSince : Option Nat := none
  flowOkSince : Option Nat := none
  slowSince : Option Nat := none
  /-- hottest junction over the last 50 ms (time, m°C), slopes in mK/s over the last 200 ms, newest first -/
  junctions : List (Nat × Int) := []
  slopes : List Int := []
  /-- predicted package power in 0.1 W and predicted junction slope in mK/s of the last 20 refreshes, newest first -/
  predicted : List (Nat × Int) := []
  /-- every 10 ms: hottest junction in m°C, inlet in 0.01 °C, package power in 0.1 W; newest first, 1 s -/
  history : List (Int × Int × Nat) := []
  pkg10 : Nat := 0
  pkg100 : Nat := 0
  /-- package power samples of 1 ms in 0.1 W, newest first, at most 100 -/
  samples : List Nat := []
  energyMilli : Nat := 0
  overSince : Option Nat := none
  /-- life (R460): µs powered up to `upSince`, since when rails 0 … 5 are up, power cycles, rainflow per die code, the last
  write, the last 10 % mark -/
  poweredUs : Nat := 0
  upSince : Option Nat := none
  powerCycles : Nat := 0
  rain : Tbl Rainflow := []
  lifeWritten : Nat := 0
  lifeMark : Nat := 0
  /-- analog trips latched (spot), the trip part of PWR_OFF_REQ_N, and when rails 0 … 5 had fallen (R457) -/
  trips : List Nat := []
  tripLatch : Bool := false
  deriving DecidableEq, Repr

/-! ### Management, ledger, updates and trust (R465 … R493) -/

/-- What a hub's xSPI flash holds (R471 … R475): ledger entries by seq, the life counters of the sticky region and the USER partition
by offset, the two slots of each image kind (key kind × 2 + slot) by offset. -/
structure FlashState where
  ring : Tbl (List Byte) := []
  oldest : Nat := 0
  life : LifeCounters := {}
  user : Tbl Byte := []
  images : Tbl (Tbl Byte) := []
  /-- slots that an update has erased since manufacture -/
  erased : List Nat := []
  /-- 0 OK, 1 degraded (flash_ue seen), 2 absent -/
  health : Nat := 0
  deriving DecidableEq, Repr

/-- MGT_STATE.role (R493). -/
inductive MgtRole where
  | BOOT | ACTIVE | STANDBY
  deriving DecidableEq, Repr

/-- One management processor (R465 … R467). -/
structure HubMgt where
  role : MgtRole := .BOOT
  demoted : Bool := false
  /-- when it last heard a heartbeat of the active processor, and an acknowledgement of any Talxon die -/
  heardAt : Option Nat := none
  ackAt : Option Nat := none
  startedAt : Option Nat := none
  announced : Bool := false
  flash : FlashState := {}
  /-- XMSS^MT index reservation (R490): next, end, and the two records (counter, end) -/
  xmssNext : Nat := 0
  xmssEnd : Nat := 0
  xmssRecs : List (Nat × Nat) := [(0, 0), (0, 0)]
  attests : Nat := 0
  deriving DecidableEq, Repr

/-- How an Ikisan message came (R476, R480). -/
inductive IkVia where
  | ring (p : Packet)
  | port (ip port : Nat)
  | mailbox (hub : Nat)
  deriving DecidableEq, Repr

/-- An Ikisan message that waits. -/
structure IkMsg where
  via : IkVia
  bytes : List Byte
  deriving DecidableEq, Repr

/-- Who waits for an attestation report (R491): an ATTEST packet, or an Ikisan message. -/
inductive AttestFor where
  | packet (p : Packet)
  | message (m : IkMsg)
  deriving DecidableEq, Repr

/-- A slot record (R483): active slot B, pending, attempts left. -/
structure SlotRec where
  activeB : Bool := false
  pending : Bool := false
  attempts : Nat := 0
  /-- the inactive slot is being written (R485): bytes written so far, image length -/
  writing : Option (Nat × Nat) := none
  deriving DecidableEq, Repr

/-- What runs of one image kind (R493): version, rollback, payload digest, slot B. -/
structure Measure where
  version : Nat := 0
  rollback : Nat := 0
  digest : List Byte := List.replicate 32 0
  requires_ : List Nat := [0, 0, 0, 0, 0, 0]
  deriving DecidableEq, Repr

/-- OTP (R3, R482, R484): revoked key slots, the floor of each kind, the debugged fuse, the ordering code. -/
structure OtpState where
  revoked : List Nat := []
  floors : Tbl Nat := []
  debugged : Bool := false
  ordering : Nat := 1
  deriving DecidableEq, Repr

/-- MGT_UPDATE.phase (R493). -/
inductive UpdatePhase where
  | IDLE | WRITING | VERIFIED | ACTIVATING | PAUSED | DONE | ABORTED
  deriving DecidableEq, Repr

/-- An activation (R485, R486). -/
structure UpdateState where
  phase : UpdatePhase := .IDLE
  kind : Nat := 0
  unit : Nat := 0
  scope : Nat := 0
  /-- 0 the unit has not started, 1 it folds, 2 it is in reset or restart, 3 it settles -/
  step : Nat := 0
  since : Nat := 0
  judged : Nat := 0
  stopAfter : Bool := false
  deriving DecidableEq, Repr

/-- Management of the package. -/
structure MgtState where
  hubs : Tbl HubMgt := []
  active : Nat := 0
  /-- boots so far; one was made at manufacture (log 43) -/
  bootCount : Nat := 1
  bootAt : Nat := 0
  nextSeq : Nat := 0
  queue : List LogEntry := []
  droppedPending : Nat := 0
  takeovers : Nat := 0
  takenOver : Bool := false
  /-- a takeover in progress (R466): since, the dies that have accepted the new active processor -/
  takeover : Option Nat := none
  accepted : List Nat := []
  /-- TAKEOVER_DONE on its way to a lantern -/
  doneTo : List Nat := []
  /-- whom each Talxon die takes for active -/
  dieActive : Tbl Nat := []
  dieHeard : Tbl Nat := []
  inbox : List IkMsg := []
  /-- heartbeats on their way to a lantern (R466) -/
  beats : List Nat := []
  key : Option (List Byte) := none
  counter : Nat := 0
  nonce : Option (List Byte) := none
  slots : Tbl SlotRec := []
  meas : Tbl Measure := []
  otp : OtpState := {}
  update : UpdateState := {}
  attestWait : List AttestFor := []
  scopes : Nat := 0
  secBoot : Nat := 0
  /-- RESTORE_FACTORY has erased the USER partition since manufacture -/
  userErased : Bool := false
  deriving DecidableEq, Repr

/-! ### Pins (R494 … R503) -/

/-- The system pins and the reference clocks. -/
structure PinState where
  /-- PORST_N; it is low until the first PORST_RELEASE -/
  porst : Bool := false
  primary : Bool := false
  /-- the strap as sampled last (R465, R498) -/
  primarySampled : Bool := false
  /-- LAN_A_RST_N and LAN_B_RST_N high -/
  lanRstHigh : List Bool := [false, false]
  /-- PWR_OFF_REQ_N low -/
  pwrOff : Bool := false
  railsFellAt : Option Nat := none
  /-- dies whose clock monitor has found a fault (R385) -/
  clockBad : List Nat := []
  deriving DecidableEq, Repr

/-! ### The whole machine -/

/-- The state of the AE32. Each field belongs to one block of the manual; `pending` is the queue of commands that
wait (log 1), `now` the model's clock in µs (log 4) and `free` the count that names the next free value (log 5;
the model's own field). -/
structure State where
  pending : List Instr := []
  now : Nat := 0
  free : Nat := 0
  /-- the plain registers, by `RegAddr.key`; an unlisted register holds its reset value -/
  regs : Tbl Word := []
  /-- device memory, HBM and on-chip stores, by device address (R17); see `unlistedByte` -/
  mem : Tbl Byte := []
  /-- poison marks: store lines by address ÷ 128 (R92, R107), HBM by address ÷ 32 (R199) -/
  storePoison : Tbl Bool := []
  hbmPoison : Tbl Bool := []
  cores : Tbl CoreState := []
  graphs : GraphsState := {}
  cache : ShelfCache := {}
  hbm : MemState := {}
  net : NetState := {}
  hif : HifState := {}
  sin : Tbl IntakeState := []
  aln : AlignState := {}
  pln : PlannersState := {}
  lan : SafetyState := {}
  recovery : RecoveryState := {}
  mirror : MirrorState := {}
  thermal : ThermalState := {}
  mgt : MgtState := {}
  pins : PinState := {}
  /-- what the block has sent to the outside, oldest first -/
  outputs : List Output := []
  deriving DecidableEq, Repr

/-- Why the machine stops with a fault. -/
inductive Fault where
  /-- A command whose operand spells no packet of R252: raised by SQ_FETCH when the header operand has not 64 bytes.
  Safe: no such packet exists. -/
  | malformedHeader
  deriving DecidableEq, Repr

/-- Why the model refuses a command. -/
inductive Refusal where
  /-- Raised by the dispatch for a command without a meaning. Safe. -/
  | notModelled (mnemonic : String)
  deriving DecidableEq, Repr

/-- The machine before its first power-on: PORST_N low (R418, R498), every table at its reset value, nothing waiting. -/
def State.reset : State := {}

end Sys2Proof.Machine
end

