-- ==== Sys2Proof/Machine/Ops.lean ====
section
/-! DEFINITION. Shared operations: registers and their error reports, interrupts, the ledger queue, and the places of
stores and stacks in the device address map. -/

namespace Sys2Proof.Machine

/-! ### Registers -/

/-- The value that reset gives a register (R11). -/
def RegAddr.resetValue (a : RegAddr) : Word := BitVec.ofNat 32 (regRow a.reg).reset

/-- The plain value of a register. The table keeps the difference from the reset value, so that an unlisted register
holds its reset value. -/
def State.reg (s : State) (a : RegAddr) : Word := tblGet 0 s.regs a.key ^^^ a.resetValue

/-- Set the plain value of a register. -/
def State.setReg (s : State) (a : RegAddr) (v : Word) : State :=
  { s with regs := tblSet 0 s.regs a.key (v ^^^ a.resetValue) }

/-- The first word of a register of an instance. -/
abbrev ra (r : Reg) (inst : Nat) (unit : Nat := 0) (w : Nat := 0) : RegAddr := ⟨r, inst, unit, w⟩

/-- A counter that saturates at all ones. -/
def State.satReg (s : State) (a : RegAddr) (n : Nat := 1) : State := s.setReg a (satInc (s.reg a) n)

/-- A counter that wraps. -/
def State.wrapReg (s : State) (a : RegAddr) (n : Nat := 1) : State := s.setReg a (s.reg a + word n)

/-- Put a value into a field of a register. -/
def State.setField (s : State) (a : RegAddr) (hi lo v : Nat) : State := s.setReg a (putBits (s.reg a) hi lo v)

/-- A field of a register. -/
def State.field (s : State) (a : RegAddr) (hi lo : Nat) : Nat := bits (s.reg a) hi lo

/-! ### Interrupts (R248, R269, R270) -/

/-- The state of a link. -/
def State.link (s : State) (h : Nat) : LinkState := tblGet {} s.hif.links h

/-- Change a link. -/
def State.modLink (s : State) (h : Nat) (f : LinkState → LinkState) : State :=
  { s with hif := { s.hif with links := tblMod {} s.hif.links h f } }

/-- Send something to the outside. -/
def State.emit (s : State) (o : Output) : State := { s with outputs := s.outputs ++ [o] }

/-- Raise MSI-X vector `v` of link `h`: the message goes out when the link is up and in D0 (R238) and the table entry
is not masked; a masked vector is noted in the PBA, as PCIe defines it. -/
def State.msix (s : State) (h v : Nat) : State :=
  let l := s.link h
  if l.up && !l.d3hot && !l.lost then
    if (s.reg (ra .MSIX_TABLE h v 3)).getLsbD 0 then
      let p := ra .MSIX_PBA h 0 (v / 32)
      s.setReg p (s.reg p ||| word (2 ^ (v % 32)))
    else s.emit (.msix h v)
  else s

/-- Raise the error interrupt of one link (R270). -/
def State.errIrqLink (s : State) (h : Nat) : State :=
  if s.hif.hostReady then s.msix h (s.field (ra .HIF_ERR_VECTOR h) 5 0) else s

/-- Raise the error interrupt on both links (R270). -/
def State.errIrq (s : State) : State := (s.errIrqLink 0).errIrqLink 1

/-- The number of a block kind in HIF_ERR_SUMMARY.blocks (R275). -/
def blockBit (b : Block) : Nat := b.ctorIdx

/-- The status, enable and first-error registers of a block kind. -/
def blockErrRegs : Block → Option (Reg × Reg × Option Reg)
  | .HIF => some (.HIF_ERR_STATUS, .HIF_ERR_ENABLE, some .HIF_ERR_FIRST)
  | .CORE => some (.CORE_ERR_STATUS, .CORE_ERR_ENABLE, some .CORE_ERR_FIRST)
  | .TDE => some (.TDE_ERR_STATUS, .TDE_ERR_ENABLE, none)
  | .CAT => some (.CAT_ERR_STATUS, .CAT_ERR_ENABLE, none)
  | .MC => some (.MC_ERR_STATUS, .MC_ERR_ENABLE, none)
  | .RC => some (.RC_ERR_STATUS, .RC_ERR_ENABLE, none)
  | .D2D => some (.D2D_ERR_STATUS, .D2D_ERR_ENABLE, some .D2D_ERR_FIRST)
  | .SIN => some (.SIN_ERR_STATUS, .SIN_ERR_ENABLE, some .SIN_ERR_FIRST)
  | .ALN => some (.ALN_ERR_STATUS, .ALN_ERR_ENABLE, some .ALN_ERR_FIRST)
  | .PRM => some (.PRM_ERR_STATUS, .PRM_ERR_ENABLE, none)
  | .PLN => some (.PLN_ERR_STATUS, .PLN_ERR_ENABLE, some .PLN_ERR_FIRST)
  | .MIR => some (.MIR_ERR_STATUS, .MIR_ERR_ENABLE, some .MIR_ERR_FIRST)
  | .THM => some (.THM_ERR_STATUS, .THM_ERR_ENABLE, some .THM_ERR_FIRST)
  | .PWR => some (.PWR_ERR_STATUS, .PWR_ERR_ENABLE, some .PWR_ERR_FIRST)
  | .MGT => some (.MGT_ERR_STATUS, .MGT_ERR_ENABLE, some .MGT_ERR_FIRST)
  | .SEC => some (.SEC_ERR_STATUS, .SEC_ERR_ENABLE, some .SEC_ERR_FIRST)
  | .GFE | .LAN => none

/-- The instances of a block kind in the package. -/
def blockInstances : Block → List Nat
  | .CORE => List.range 32
  | .TDE | .CAT | .MC | .RC => [0, 1, 2, 3]
  | .D2D => [0, 1, 2, 3, 4, 5]
  | .THM | .PWR => [0]
  | _ => [0, 1]

/-- LAN_ERR_ENABLE (R417): every one of its ten error kinds is reported. -/
def lanErrMask : Nat := 0x3FF

/-- LAN_ERR_STATUS (R417): the bits that hold, except in a lantern that is FAILED or in RESET. -/
def Lantern.errStatus (l : Lantern) : Nat :=
  if l.run = .RESET ∨ l.run = .FAILED then 0 else (l.errHold.map (·.1) ++ l.errLast).foldl (fun a b => a ||| 2 ^ b) 0

/-- R270: whether an enabled error bit of a block kind is set on any die. -/
def State.blockErr (s : State) (b : Block) : Bool :=
  match blockErrRegs b with
  | some (st, en, _) => (blockInstances b).any fun i => (s.reg (ra st i) &&& s.reg (ra en i)) != 0
  | none =>
    if b = .LAN then [0, 1].any fun l => ((tblGet {} s.lan.lanterns l).errStatus &&& lanErrMask) != 0 else false

/-- Form the summary bit of a block kind anew; a bit that rises raises the error interrupt (R270). -/
def State.summarise (s : State) (b : Block) : State :=
  let now := s.blockErr b
  let old := bitN s.hif.summary (blockBit b)
  if now && !old then
    ({ s with hif := { s.hif with summary := s.hif.summary + 2 ^ (blockBit b) } }).errIrq
  else if old && !now then { s with hif := { s.hif with summary := s.hif.summary - 2 ^ (blockBit b) } }
  else s

/-- Report an error: capture it in the first-error register when no status bit is set (`info` above the kind byte),
set the status bit, and raise the error interrupt when the summary rises. -/
def State.raise (s : State) (b : Block) (inst bit : Nat) (info : Nat := 0) : State :=
  match blockErrRegs b with
  | none => s
  | some (st, _, fst) =>
    let s1 := match fst with
      | some f => if s.reg (ra st inst) = 0 then s.setReg (ra f inst) (word (info * 256 + bit + 1)) else s
      | none => s
    (s1.setReg (ra st inst) (s1.reg (ra st inst) ||| word (2 ^ bit))).summarise b

/-! ### The ledger queue (R471) -/

/-- R471: the queue of the ledger writer holds 4,096 entries. -/
def ledgerQueueMax : Nat := 4096

/-- Log an event. A full queue drops it: MGT_LEDGER_DROPPED counts it, and one LEDGER_DROPPED entry follows once
space returns (LEDGER_WRITE). -/
def State.log (s : State) (ev : Event) (die : Nat := 0xFF) (detail : List Nat := []) : State :=
  if s.mgt.queue.length < ledgerQueueMax then
    { s with mgt := { s.mgt with queue := s.mgt.queue ++ [{ ev := ev, die := die, detail := detail, at_ := s.now }] } }
  else
    ({ s with mgt := { s.mgt with droppedPending := s.mgt.droppedPending + 1 } }.satReg
      (ra .MGT_LEDGER_DROPPED s.mgt.active)).raise .MGT s.mgt.active 1

/-- A fresh free value (log 5) and the state that has used it. -/
def State.fresh (s : State) : BitVec 64 × State := (Config.freeValue s.free, { s with free := s.free + 1 })

/-! ### Device addresses (R14, R17, R18, R89) -/

/-- The device address of core `c`'s store. -/
def coreBase (c : Nat) : Nat := 0x800000000000 + c / 8 * 0x1000000000 + c % 8 * 0x1000000

/-- The device address of the store of core `c`'s cluster. -/
def clusterBase (c : Nat) : Nat := 0x800000000000 + c / 8 * 0x1000000000 + 0x10000000 + c % 8 / 4 * 0x1000000

/-- The store size: 16 MiB, 131,072 lines of 128 B (R89, R92). -/
def storeBytes : Nat := 0x1000000
/-- Lines of a store. -/
def storeLines : Nat := 131072

/-- The stack of an HBM address. -/
def stackOf (a : Nat) : Nat := a / 0x400000000
/-- The package's HBM: four stacks of 16 GiB from address 0. -/
def hbmEnd : Nat := 0x1000000000

/-- Whether a range lies in HBM. -/
def inHbm (a n : Nat) : Bool := a + n ≤ hbmEnd

/-- The store that an address lies in: its base address. -/
def storeBaseOf (a : Nat) : Option Nat :=
  if 0x800000000000 ≤ a ∧ a < 0x804000000000 then
    let w := a % 0x1000000000
    if w < 0x8000000 ∨ (0x10000000 ≤ w ∧ w < 0x12000000) then some (a / storeBytes * storeBytes) else none
  else none

/-- R17, R18: a range that touches no reserved address: it lies in HBM, or in core stores or cluster stores that
follow one another without a reserved address between. -/
def validRange (a n : Nat) : Bool :=
  if a < hbmEnd then inHbm a n
  else
    match storeBaseOf a, storeBaseOf (a + n - 1) with
    | some b, some e => b == e || (b / 0x1000000000 == e / 0x1000000000 &&
        ((b % 0x1000000000 < 0x8000000) == (e % 0x1000000000 < 0x8000000)))
    | _, _ => false

/-- The Talxon die that holds an address. -/
def dieOfAddr (a : Nat) : Nat := if a < hbmEnd then stackOf a else a / 0x1000000000 % 4

/-- The interleave set of an HBM address (R197). -/
def hbmSet (a : Nat) : Nat := bitsN a 33 31
/-- The row of an HBM address (R197). -/
def hbmRow (a : Nat) : Nat := bitsN a 30 17
/-- The bank of an HBM address (R197). -/
def hbmBank (a : Nat) : Nat := Nat.xor (bitsN a 16 12) (bitsN a 21 17)
/-- The pseudo-channel of an HBM address (R197). -/
def hbmPc (a : Nat) : Nat := 4 * hbmSet a + Nat.xor (bitsN a 9 8) (bitsN a 11 10)
/-- The column byte of an HBM address in its row (R197). -/
def hbmColumn (a : Nat) : Nat := bitsN a 11 10 * 256 + bitsN a 7 0

/-- Two ranges share a byte. -/
def overlaps (a n b m : Nat) : Bool := a < b + m && b < a + n && 0 < n && 0 < m

/-! ### Fences as the memory sees them -/

/-- A Talxon die is fenced (R145). -/
def State.dieFenced (s : State) (d : Nat) : Bool := s.graphs.fencedDies.contains d
/-- A core is fenced, itself or by its cluster or die (R143, R150). -/
def State.coreFenced (s : State) (c : Nat) : Bool :=
  s.graphs.fencedCores.contains c || s.graphs.fencedClusters.contains (c / 4) || s.graphs.fencedDies.contains (c / 8)
/-- The controller of a stack. -/
def State.mc (s : State) (n : Nat) : McState := tblGet {} s.hbm.mcs n
/-- Change the controller of a stack. -/
def State.modMc (s : State) (n : Nat) (f : McState → McState) : State :=
  { s with hbm := { s.hbm with mcs := tblMod {} s.hbm.mcs n f } }

/-- R204: the interleave set of an HBM address is fenced or lost, or its die is fenced. -/
def State.setFenced (s : State) (a : Nat) : Bool :=
  s.dieFenced (stackOf a) || (s.mc (stackOf a)).lostSets.contains (hbmSet a)

/-- R202: the 4 KiB block of an HBM address is retired. -/
def State.retired (s : State) (a : Nat) : Bool :=
  (s.mc (stackOf a)).retired.contains (a % 0x400000000 / 4096)

/-! ### Memory with poison -/

/-- A byte range of device memory reads as poisoned: a poison mark, or (HBM) a fenced set or a retired block
(R107, R199, R202, R204). -/
def State.rangePoison (s : State) (a n : Nat) : Bool :=
  if a < hbmEnd then
    (List.range ((a % 4096 + n + 4095) / 4096)).any (fun i => s.setFenced (a + 4096 * i) || s.retired (a + 4096 * i)) ||
    s.hbmPoison.any (fun e => e.2 && a / 32 ≤ e.1 && e.1 * 32 < a + n)
  else s.storePoison.any (fun e => e.2 && a / 128 ≤ e.1 && e.1 * 128 < a + n)

/-- Read device memory: bytes and poison. Every register of `mem` holds the bytes, whatever their poison. -/
def State.readMem (s : State) (a n : Nat) : List Byte × Bool := (memRead s.mem a n, s.rangePoison a n)

/-- Set poison marks over a range of keys of a poison table. -/
def poisonKeys (t : Tbl Bool) (k n : Nat) (p : Bool) : Tbl Bool :=
  tblSetList false t k (List.replicate n p)

/-- Clear every poison mark with a key in a range. -/
def clearKeys (t : Tbl Bool) (k n : Nat) : Tbl Bool := t.filter (fun e => e.1 < k || k + n ≤ e.1)

/-- Set or clear poison over a byte range: store lines of 128 B, HBM words of 32 B (R93, R199). -/
def State.markPoison (s : State) (a n : Nat) (p : Bool) : State :=
  if a < hbmEnd then
    if p then { s with hbmPoison := poisonKeys s.hbmPoison (a / 32) ((a % 32 + n + 31) / 32) true }
    else { s with hbmPoison := clearKeys s.hbmPoison (a / 32) ((a % 32 + n + 31) / 32) }
  else
    if p then { s with storePoison := poisonKeys s.storePoison (a / 128) ((a % 128 + n + 127) / 128) true }
    else { s with storePoison := clearKeys s.storePoison (a / 128) ((a % 128 + n + 127) / 128) }

/-- Write bytes that a fence or a retired block does not discard (R202, R204), one 4 KiB block at a time. -/
def writeBlocks (s : State) (a : Nat) (bs : List Byte) : Nat → State
  | 0 => s
  | fuel + 1 =>
    match bs with
    | [] => s
    | _ =>
      let n := 4096 - a % 4096
      let s1 := if a < hbmEnd ∧ (s.setFenced a ∨ s.retired a) then s
        else { s with mem := memWrite s.mem a (bs.take n) }
      writeBlocks s1 (a + n) (bs.drop n) fuel

/-- Write device memory with a poison mark: a write replaces the data and its poison (R107, R200). -/
def State.writeMem (s : State) (a : Nat) (bs : List Byte) (p : Bool := false) : State :=
  (writeBlocks s a bs (bs.length / 4096 + 2)).markPoison a bs.length p

/-! ### Cores -/

/-- The state of a core. -/
def State.core (s : State) (c : Nat) : CoreState := tblGet {} s.cores c
/-- Set the state of a core. -/
def State.setCore (s : State) (c : Nat) (x : CoreState) : State := { s with cores := tblSet {} s.cores c x }
/-- Change the state of a core. -/
def State.modCore (s : State) (c : Nat) (f : CoreState → CoreState) : State :=
  { s with cores := tblMod {} s.cores c f }

/-- The intake of a hub. -/
def State.intake (s : State) (h : Nat) : IntakeState := tblGet {} s.sin h
/-- Change the intake of a hub. -/
def State.modIntake (s : State) (h : Nat) (f : IntakeState → IntakeState) : State :=
  { s with sin := tblMod {} s.sin h f }

/-- A lantern. -/
def State.lantern (s : State) (l : Nat) : Lantern := tblGet {} s.lan.lanterns l
/-- Change a lantern. -/
def State.modLantern (s : State) (l : Nat) (f : Lantern → Lantern) : State :=
  { s with lan := { s.lan with lanterns := tblMod {} s.lan.lanterns l f } }

/-- Management-local time: µs since this boot (R470). -/
def State.mgtTime (s : State) : Nat := s.now - s.mgt.bootAt

/-- The management processor of a hub. -/
def State.hubMgt (s : State) (h : Nat) : HubMgt := tblGet {} s.mgt.hubs h
/-- Change the management processor of a hub. -/
def State.modHubMgt (s : State) (h : Nat) (f : HubMgt → HubMgt) : State :=
  { s with mgt := { s.mgt with hubs := tblMod {} s.mgt.hubs h f } }

/-- Ask the fault manager for a targeted self-test (R148, R398, R468 row 3). -/
def State.askTest (s : State) (unit cause : Nat) : State :=
  { s with graphs := { s.graphs with tests := s.graphs.tests ++ [{ unit := unit, cause := cause, at_ := s.now }] } }

end Sys2Proof.Machine
end

