-- ==== Sys2Proof/Machine/CacheOps.lean ====
section
/-! DEFINITION. Shared operations of the shelf cache: pool space (R156 … R158), shelf entries and their state changes
(R165), shelf lists (R164), pins, appends with growth and copy-on-write (R157, R170, R183), and the write-through of the
catalogue region (R160 … R164). -/

namespace Sys2Proof.Machine

/-! ### Pools -/

/-- The tokens of a shelf class: 256, 128, 64, 32, 16 (R162). -/
def classTokens (c : Nat) : Nat := 256 / 2 ^ c

/-- Bytes of an element of a pool (R154). -/
def Pool.elemBytes (p : Pool) : Nat := if p.fmt = 7 then 2 else 1
/-- The element format of a pool. -/
def Pool.elemFmt (p : Pool) : Fmt := if p.fmt = 5 then .e4m3 else if p.fmt = 6 then .e5m2 else .bf16
/-- Bytes of one head's K or V of one position. -/
def Pool.rowBytes (p : Pool) : Nat := p.d * p.elemBytes
/-- Bytes of K and V of one position, all heads (R155). -/
def Pool.tokenBytes (p : Pool) : Nat := 2 * p.heads * p.rowBytes
/-- A pool that POOL_CREATE made. -/
def Pool.exists_ (p : Pool) : Bool := p.frames != 0

/-- Frames not FREE. -/
def Pool.frameState (p : Pool) (f : Nat) : PoolFrame := tblGet .free p.use f
/-- FREE frames. -/
def Pool.freeCount (p : Pool) : Nat := p.frames - p.use.length
/-- Frames that BIND has reserved and that are still FREE. -/
def Pool.reservedTotal (p : Pool) : Nat := p.reserved.foldl (fun a e => a + e.2) 0
/-- The lowest-addressed FREE frame (R157). -/
def Pool.lowestFree (p : Pool) : Option Nat := (List.range p.frames).find? (fun f => p.frameState f = .free)

/-- A 16-token unit range of a SPLIT frame is free. -/
def partFree (parts : List (Nat × Nat)) (u n : Nat) : Bool :=
  parts.all (fun q => u + n ≤ q.1 || q.1 + 16 / 2 ^ q.2 ≤ u)

/-- The lowest free part of class `c` in the SPLIT frames: (frame, first unit) (R157). -/
def Pool.lowestPart (p : Pool) (c : Nat) : Option (Nat × Nat) :=
  let n := 16 / 2 ^ c
  p.use.findSome? fun e => match e.2 with
    | .split parts => ((List.range (2 ^ c)).find? (fun i => partFree parts (i * n) n)).map (fun i => (e.1, i * n))
    | _ => none

/-- Take a part of a SPLIT frame. -/
def Pool.takePart (p : Pool) (f u c : Nat) : Pool :=
  match p.frameState f with
  | .split parts => { p with use := tblSet .free p.use f (.split (parts ++ [(u, c)])) }
  | .free => { p with use := tblSet .free p.use f (.split [(u, c)]) }
  | _ => p

/-- R157: space for a shelf: a FREE frame, else the largest free part; `bound` serves a bound sequence from its reserve
(R158, R175). Answers (address, class) and the pool. -/
def Pool.takeSpace (p : Pool) (seq : Nat) (bound : Bool) : Option (Nat × Nat × Pool) :=
  if bound then
    if tblGet 0 p.reserved seq = 0 then none
    else p.lowestFree.map fun f =>
      (p.base + f * p.shelfBytes, 0,
        { p with use := tblSet .free p.use f .whole, reserved := tblMod 0 p.reserved seq (· - 1) })
  else if p.boundOnly then none
  else
    match p.lowestFree with
    | some f => some (p.base + f * p.shelfBytes, 0, { p with use := tblSet .free p.use f .whole })
    | none =>
      [1, 2, 3, 4].findSome? fun c => (p.lowestPart c).map fun (f, u) =>
        (p.base + f * p.shelfBytes + u * p.shelfBytes / 16, c, p.takePart f u c)

/-- The frame and the 16-token unit of an address in a pool. -/
def Pool.locate (p : Pool) (a : Nat) : Nat × Nat :=
  ((a - p.base) / p.shelfBytes, (a - p.base) % p.shelfBytes * 16 / p.shelfBytes)

/-- Give space back (R156): a WHOLE frame becomes FREE, a part leaves its SPLIT frame, which becomes FREE when it holds
none; with `lost` the frame is never handed out again (R165, R167). A bound sequence's frame returns to its reserve. -/
def Pool.giveSpace (p : Pool) (a c : Nat) (lost : Bool) (boundSeq : Option Nat) : Pool :=
  let (f, u) := p.locate a
  let st := match p.frameState f with
    | .split parts =>
      let r := parts.filter (fun q => q ≠ (u, c))
      if lost then PoolFrame.lost else if r = [] then .free else .split r
    | .lost => .lost
    | _ => if lost then .lost else .free
  let p1 := { p with use := tblSet .free p.use f st }
  match boundSeq with
  | some q => if lost then p1 else { p1 with reserved := tblMod 0 p1.reserved q (· + 1) }
  | none => p1

/-! ### Catalogue entries -/

/-- The die and the entry of a shelf handle (R159). -/
def handleDie (h : Nat) : Nat := h / 0x40000 % 4
/-- The entry of a shelf handle. -/
def handleEntry (h : Nat) : Nat := h % 0x40000

/-- The catalogue partition of a die. -/
def ShelfCache.cat (c : ShelfCache) (d : Nat) : CatState := tblGet {} c.cats d
/-- Change a catalogue partition. -/
def ShelfCache.modCat (c : ShelfCache) (d : Nat) (f : CatState → CatState) : ShelfCache :=
  { c with cats := tblMod {} c.cats d f }
/-- A pool. -/
def ShelfCache.pool (c : ShelfCache) (p : Nat) : Pool := tblGet {} c.pools p
/-- Change a pool. -/
def ShelfCache.modPool (c : ShelfCache) (p : Nat) (f : Pool → Pool) : ShelfCache :=
  { c with pools := tblMod {} c.pools p f }
/-- A sequence record. -/
def ShelfCache.seq (c : ShelfCache) (q : Nat) : SeqRec := tblGet {} c.seqs q
/-- Change a sequence record. -/
def ShelfCache.modSeq (c : ShelfCache) (q : Nat) (f : SeqRec → SeqRec) : ShelfCache :=
  { c with seqs := tblMod {} c.seqs q f }
/-- A shelf entry. -/
def ShelfCache.shelf (c : ShelfCache) (h : Nat) : Shelf := tblGet {} (c.cat (handleDie h)).shelves (handleEntry h)
/-- Change a shelf entry; an UNUSED entry holds nothing. -/
def ShelfCache.modShelf (c : ShelfCache) (h : Nat) (f : Shelf → Shelf) : ShelfCache :=
  c.modCat (handleDie h) fun k =>
    let t := tblMod {} k.shelves (handleEntry h) (fun x => let y := f x; if y.st = .UNUSED then {} else y)
    { k with shelves := t, peak := max k.peak t.length }

/-- The lowest key that a table does not list. -/
def lowestUnlisted {α : Type} (t : Tbl α) : Nat → Nat
  | n => match t with
    | [] => n
    | (k, _) :: r => if k = n then lowestUnlisted r (n + 1) else n

/-- R159, R194: catalogue entries per die. -/
def catEntries : Nat := 262144
/-- R160, R194: list runs per die. -/
def catRuns : Nat := 105472

/-- The lowest UNUSED entry of a die, as a handle. -/
def ShelfCache.newHandle (c : ShelfCache) (d : Nat) : Option Nat :=
  let e := lowestUnlisted (c.cat d).shelves 0
  if e < catEntries then some (d * 0x40000 + e) else none

/-- The lowest free list run of a die. -/
def CatState.newRun (k : CatState) : Option Nat := (List.range (k.usedRuns.length + 1)).find? (fun r =>
  r < catRuns && !k.usedRuns.contains r)

/-- The list of a sequence and layer. -/
def ShelfCache.list (c : ShelfCache) (q layer : Nat) : ShelfList :=
  tblGet {} (c.cat (c.pool (c.seq q).pool).die).lists (q * 128 + layer)
/-- Change the list of a sequence and layer. -/
def ShelfCache.modList (c : ShelfCache) (q layer : Nat) (f : ShelfList → ShelfList) : ShelfCache :=
  c.modCat (c.pool (c.seq q).pool).die fun k => { k with lists := tblMod {} k.lists (q * 128 + layer) f }

/-- The position after a list's last shelf. -/
def ShelfCache.listEnd (c : ShelfCache) (l : ShelfList) : Nat :=
  l.entries.foldl (fun a e => a + (c.shelf e.2).tokens) l.start

/-! ### Refs, pins and space (R165, R184, R193) -/

/-- A count that would go below 0: the shelf becomes QUARANTINED and the error waits to be reported (R193). -/
def ShelfCache.countError (c : ShelfCache) (h : Nat) : ShelfCache :=
  (c.modShelf h (fun x => { x with st := .QUARANTINED })).modCat (handleDie h) fun k =>
    { k with countErrs := k.countErrs ++ [h] }

/-- A shelf with refs 0 and pins 0 becomes UNUSED and its space returns to the pool (R165, R184); a QUARANTINED one's
space never returns. `boundSeq` is the bound sequence into whose reserve it returns. -/
def ShelfCache.reclaim (c : ShelfCache) (h : Nat) (boundSeq : Option Nat) : ShelfCache :=
  let x := c.shelf h
  if x.refs = 0 ∧ x.pins = 0 ∧ x.st ≠ .UNUSED then
    (c.modPool x.pool (fun p => p.giveSpace x.addr x.cls (x.st = .QUARANTINED) boundSeq)).modShelf h (fun _ => {})
  else c

/-- A shelf that a pin may be taken on (R165). -/
def Shelf.pinnable (x : Shelf) : Bool :=
  (x.st = .FILLING || x.st = .FULL || x.st = .ARCHIVING || x.st = .QUARANTINED) && x.pins < 65535

/-- Pin a shelf (R165). -/
def ShelfCache.pin (c : ShelfCache) (h : Nat) : ShelfCache := c.modShelf h (fun x => { x with pins := x.pins + 1 })

/-- Unpin a shelf (R165); a DRAINING shelf is reclaimed at its last unpin. -/
def ShelfCache.unpin (c : ShelfCache) (h : Nat) : ShelfCache :=
  if (c.shelf h).pins = 0 then c.countError h
  else (c.modShelf h (fun x => { x with pins := x.pins - 1 })).reclaim h none

/-- Unpin every shelf of a list. -/
def ShelfCache.unpinAll (c : ShelfCache) (hs : List Nat) : ShelfCache := hs.foldl ShelfCache.unpin c

/-- Unmap a shelf from one sequence (R165): refs fall; at 0 it drains or is reclaimed. -/
def ShelfCache.unmap (c : ShelfCache) (h : Nat) (boundSeq : Option Nat := none) : ShelfCache :=
  let x := c.shelf h
  if x.refs = 0 then c.countError h
  else
    let c1 := c.modShelf h fun x =>
      { x with refs := x.refs - 1
               st := if x.refs = 1 ∧ 0 < x.pins ∧ x.st ≠ .QUARANTINED then .DRAINING else x.st }
    c1.reclaim h boundSeq

/-- The bound sequence whose reserve a frame returns to. -/
def ShelfCache.boundOf (c : ShelfCache) (q : Nat) : Option Nat := if (c.seq q).bound then some q else none

/-- Free the runs of a list beyond those its entries need (R164). -/
def ShelfCache.trimRuns (c : ShelfCache) (q layer : Nat) : ShelfCache :=
  let l := c.list q layer
  let need := if l.entries = [] then 0 else (l.skip + l.entries.length + 62) / 63
  let gone := l.runs.drop need
  (c.modList q layer fun l =>
    { l with runs := l.runs.take need, skip := if l.entries = [] then 0 else l.skip }).modCat
    (c.pool (c.seq q).pool).die fun k => { k with usedRuns := k.usedRuns.filter (fun r => !gone.contains r) }

/-- Unmap the first shelf of a list: its position range goes (R171, R187). A first run whose 63 entries have all been
unmapped is freed. -/
def ShelfCache.unmapFirst (c : ShelfCache) (q layer : Nat) : ShelfCache :=
  match (c.list q layer).entries with
  | [] => c
  | (_, h) :: _ =>
    let n := (c.shelf h).tokens
    let c1 := c.unmap h (c.boundOf q)
    let l := c1.list q layer
    let full := l.skip + 1 = 63
    let c2 := c1.modList q layer fun l =>
      { l with start := l.start + n, entries := l.entries.drop 1
               skip := if full then 0 else l.skip + 1, runs := if full then l.runs.drop 1 else l.runs }
    (c2.modCat (c2.pool (c2.seq q).pool).die fun k =>
      if full then { k with usedRuns := k.usedRuns.filter (fun r => !(l.runs.take 1).contains r) } else k).trimRuns q layer

/-- Unmap the shelves of a list that lie wholly below a position, first to last (R171). -/
def ShelfCache.unmapBelow (c : ShelfCache) (q layer pos : Nat) : Nat → ShelfCache
  | 0 => c
  | n + 1 =>
    let l := c.list q layer
    match l.entries with
    | [] => c
    | (_, h) :: _ =>
      let x := c.shelf h
      if 0 < x.tokens ∧ l.start + x.tokens ≤ pos then (c.unmapFirst q layer).unmapBelow q layer pos n else c

/-- Cut one layer of a sequence back to a position: shelves wholly above it are unmapped, the shelf it falls in keeps
the positions below (R171). -/
def ShelfCache.cutLayer (c : ShelfCache) (q layer pos : Nat) : Nat → ShelfCache
  | 0 => c
  | n + 1 =>
    let l := c.list q layer
    match l.entries.getLast? with
    | none => c
    | some (_, h) =>
      let x := c.shelf h
      let e := c.listEnd l
      let first := e - x.tokens
      if pos ≤ first ∧ (pos < e ∨ x.tokens = 0) ∧ x.refs ≤ 1 then
        (((c.unmap h (c.boundOf q)).modList q layer fun l => { l with entries := l.entries.dropLast }).trimRuns
          q layer).cutLayer q layer pos n
      else if pos < e then
        c.modShelf h fun x =>
          { x with tokens := pos - first, st := if x.st = .FULL then .FILLING else x.st }
      else c

/-- Unmap every shelf of a sequence (CLOSE, R173). -/
def ShelfCache.unmapSeq (c : ShelfCache) (q : Nat) : ShelfCache :=
  (List.range (c.seq q).layers).foldl (fun c layer =>
    let hs := (c.list q layer).entries.map (·.2)
    let c1 := hs.foldl (fun c h => c.unmap h (c.boundOf q)) c
    (c1.modList q layer fun l => { l with entries := [] }).trimRuns q layer) c

/-! ### Appends (R155, R157, R170, R183) -/

/-- The byte runs of one position in a shelf: (address, bytes) per kv and head, from the position's packed K and V
(R155). -/
def tokenWrites (p : Pool) (x : Shelf) (t : Nat) (kv : List Byte) : List (Nat × List Byte) :=
  (List.range (2 * p.heads)).map fun i =>
    (x.addr + (i * classTokens x.cls + t) * p.rowBytes, (kv.drop (i * p.rowBytes)).take p.rowBytes)

/-- What an append met. -/
inductive AppendRes where
  | done | needSpace | copying | queued
  deriving DecidableEq, Repr

/-- R157: a new shelf at the end of a list, in a state of R165; none when space, entry or run is lacking. -/
def ShelfCache.growList (c : ShelfCache) (q layer : Nat) (st : ShelfSt) (replaceLast : Bool) :
    Option (ShelfCache × Nat) :=
  let r := c.seq q
  let p := c.pool r.pool
  match p.takeSpace q r.bound, c.newHandle p.die with
  | some (addr, cls, p'), some h =>
    let l := c.list q layer
    let needRun := !replaceLast && l.skip + l.entries.length + 1 > 63 * l.runs.length
    match needRun, (c.cat p.die).newRun with
    | true, none => none
    | _, run =>
      let c1 := { c with pools := tblSet {} c.pools r.pool p' }
      let c2 := c1.modShelf h fun _ =>
        { addr := addr, st := st, cls := cls, pool := r.pool, flags := if r.bound then 2 else 0, refs := 1 }
      let c3 := if replaceLast then c2
        else c2.modList q layer fun l =>
          { l with entries := l.entries ++ [(cls, h)]
                   runs := if needRun then l.runs ++ run.toList else l.runs }
      let c4 := c3.modCat p.die fun k =>
        { k with usedRuns := if needRun then k.usedRuns ++ run.toList else k.usedRuns
                 allocFull := k.allocFull + (if cls = 0 then 1 else 0)
                 allocShort := k.allocShort + (if cls = 0 then 0 else 1) }
      some (c4, h)
  | _, _ => none

/-- Append one position to the last shelf of a layer; answers the cache, the writes and what it met. -/
def ShelfCache.appendOne (c : ShelfCache) (q layer : Nat) (kv : List Byte) :
    ShelfCache × List (Nat × List Byte) × AppendRes :=
  let grow : ShelfCache × List (Nat × List Byte) × AppendRes :=
    match c.growList q layer .FILLING false with
    | none => (c, [], .needSpace)
    | some (c1, h) =>
      let x := c1.shelf h
      (c1.modShelf h (fun x => { x with tokens := 1, st := if classTokens x.cls = 1 then .FULL else .FILLING }),
        tokenWrites (c1.pool x.pool) x 0 kv, .done)
  match (c.list q layer).entries.getLast? with
  | none => grow
  | some (_, h) =>
    let x := c.shelf h
    let cap := classTokens x.cls
    if x.tokens = cap then grow
    else if (x.st = .FILLING ∧ x.refs = 1) ∨ x.st = .QUARANTINED then
      (c.modShelf h (fun x => { x with tokens := x.tokens + 1
                                       st := if x.st = .FILLING ∧ x.tokens + 1 = cap then .FULL else x.st }),
        tokenWrites (c.pool x.pool) x x.tokens kv, .done)
    else if x.st = .FILLING then (c, [], .copying)
    else (c, [], .queued)

/-- Carry an append on as far as it goes; answers the cache, the writes, the positions done and what stopped it. -/
def ShelfCache.appendMany (c : ShelfCache) (q layer tokenBytes : Nat) :
    Nat → List Byte → ShelfCache × List (Nat × List Byte) × Nat × AppendRes
  | 0, _ => (c, [], 0, .done)
  | n + 1, kv =>
    match c.appendOne q layer (kv.take tokenBytes) with
    | (c1, ws, .done) =>
      let (c2, ws2, k, r) := c1.appendMany q layer tokenBytes n (kv.drop tokenBytes)
      (c2, ws ++ ws2, k + 1, r)
    | (c1, _, r) => (c1, [], 0, r)

/-! ### The catalogue region in HBM (R160 … R164) -/

/-- R162: the 16 B of a shelf entry. -/
def Shelf.encode (x : Shelf) : List Byte :=
  toLe 4 (x.addr / 4096) ++ toLe 1 x.st.ctorIdx ++ toLe 1 x.cls ++ toLe 1 x.pool ++ toLe 1 x.flags ++
  toLe 2 x.refs ++ toLe 2 x.pins ++ toLe 2 x.tokens ++ toLe 2 x.queue

/-- R163: the 64 B of a sequence record. -/
def SeqRec.encode (q : Nat) (r : SeqRec) : List Byte :=
  toLe 2 q ++ toLe 1 r.pool ++ toLe 1 r.st.ctorIdx ++ toLe 1 r.priority ++ toLe 1 r.layers ++
  toLe 1 (b2n r.bound + 2 * b2n r.sealed_) ++ toLe 1 r.graph ++ toLe 4 r.length ++ toLe 4 r.basePos ++ toLe 4 r.window ++
  toLe 4 r.perFrame ++ toLe 8 r.admission ++ toLe 4 r.epoch ++ toLe 4 r.chunks ++ padTo 16 r.digest ++ toLe 2 r.parent ++
  toLe 6 0

/-- R164: a list head. -/
def ShelfList.encodeHead (l : ShelfList) : List Byte :=
  toLe 4 (match l.runs with
    | [] => 0x1FFFF
    | r :: _ => l.skip * 0x4000000 + r)

/-- R164: the runs of a list, as (run, 256 B); unmapped entries of the first run are 0. -/
def ShelfList.encodeRuns (l : ShelfList) : List (Nat × List Byte) :=
  let es := List.replicate l.skip 0 ++ l.entries.map (fun e => e.1 * 0x20000000 + e.2)
  (List.range l.runs.length).map fun i =>
    (nth 0 l.runs i, padTo 252 (((es.drop (63 * i)).take 63).flatMap (toLe 4)) ++
      toLe 4 (if i + 1 < l.runs.length then nth 0 l.runs (i + 1) else 0xFFFFFFFF))

/-- The keys at which two tables differ. -/
def tblDiff {α : Type} [DecidableEq α] (d : α) (a b : Tbl α) : List Nat :=
  ((a.map (·.1)).filter (fun k => tblGet d a k ≠ tblGet d b k)) ++
  ((b.map (·.1)).filter (fun k => tblGet d a k = d && tblGet d b k ≠ d))

/-- The catalogue region of a die, when it has one (R160). -/
def State.catRegion (s : State) (d : Nat) : Option Nat :=
  let lo := s.reg (ra .CAT_REGION_BASE_LO d)
  if lo.getLsbD 0 then
    some (bits lo 31 25 * 0x2000000 + s.field (ra .CAT_REGION_BASE_HI d) 15 0 * 0x100000000)
  else none

/-- The bytes of the catalogue region that change when a partition changes (R161). -/
def catWrites (base : Nat) (old new : CatState) : List (Nat × List Byte) :=
  ((tblDiff {} old.shelves new.shelves).map fun e => (base + 16 * e, (tblGet {} new.shelves e).encode)) ++
  (tblDiff {} old.lists new.lists).flatMap fun k =>
    let l := tblGet {} new.lists k
    (base + 0x440000 + 4 * k, l.encodeHead) :: l.encodeRuns.map (fun r => (base + 0x640000 + 256 * r.1, r.2))

/-- A catalogue error: CAT_ERR_HANDLE takes the handle of the first one (R195). -/
def State.catError (s : State) (d bit h : Nat) : State :=
  let s1 := if s.reg (ra .CAT_ERR_STATUS d) = 0 then s.setReg (ra .CAT_ERR_HANDLE d) (word (h % 0x100000)) else s
  s1.raise .CAT d bit

/-- Put a changed cache into the state: the changed entries, records and lists are written through to HBM (R161), and
count errors are reported (R193). -/
def State.setCache (s : State) (c : ShelfCache) : State :=
  let ws := [0, 1, 2, 3].flatMap fun d => match s.catRegion d with
    | some base => catWrites base (s.cache.cat d) (c.cat d) ++
        ((tblDiff {} s.cache.seqs c.seqs).filter (fun q => (c.pool (c.seq q).pool).die = d)).map
          (fun q => (base + 0x400000 + 64 * q, (c.seq q).encode q))
    | none => []
  let errs := [0, 1, 2, 3].flatMap fun d => (c.cat d).countErrs
  let c1 := [0, 1, 2, 3].foldl (fun c d => c.modCat d (fun k => { k with countErrs := [] })) c
  let s1 := { ws.foldl (fun s w => s.writeMem w.1 w.2) s with cache := c1 }
  errs.foldl (fun s h => (s.catError (handleDie h) 1 h).log .CAT_COUNT_ERR (handleDie h) [h]) s1

/-- Release pins of a pass (R165, R177, R193). -/
def State.unpin (s : State) (hs : List Nat) : State :=
  match hs with
  | [] => s
  | _ => s.setCache (s.cache.unpinAll hs)

end Sys2Proof.Machine
end

