-- ==== Sys2Proof/Machine/GraphOps.lean ====
section
/-! DEFINITION. Shared operations on graphs, frames and passes: finding them, withholding a frame (R145, R149),
aborting a pass (R106), starting the next ready slot (R130) and dispatching words to the engine queues (R97). -/

namespace Sys2Proof.Machine

/-! ### Status codes (R271) -/

namespace Status
/-- R271. -/
def OK : Nat := 0x0000
/-- R271. -/
def OK_WIDENED : Nat := 0x0001
/-- R271. -/
def PARTIAL : Nat := 0x0002
/-- R271. -/
def FALLBACK : Nat := 0x0003
/-- R271. -/
def STREAM_MISSING : Nat := 0x0004
/-- R271. -/
def LATE : Nat := 0x0100
/-- R271. -/
def INVALID : Nat := 0x0101
/-- R271. -/
def PREEMPTED : Nat := 0x0102
/-- R271. -/
def EMPTY : Nat := 0x0103
/-- R271. -/
def DECODE_OVERRUN : Nat := 0x0104
/-- R271. -/
def BAD_PACKET : Nat := 0x0200
/-- R271. -/
def ZERO_FIELD : Nat := 0x0201
/-- R271. -/
def DIM_IMPLAUSIBLE : Nat := 0x0202
/-- R271. -/
def SETUP_LOCKED : Nat := 0x0203
/-- R271. -/
def AUTH_FAIL : Nat := 0x0204
/-- R271. -/
def NOT_READY : Nat := 0x0205
/-- R271. -/
def CACHE_EXHAUSTED : Nat := 0x0300
/-- R271. -/
def DATA_POISON : Nat := 0x0301
/-- R271. -/
def FENCED : Nat := 0x0302
end Status

/-- R67, R272: one status from several codes: the highest class-0x02xx or 0x03xx code replaces lower classes, and within
the classes below, 0x01xx replaces 0x00xx; within one class the highest. This is the numerically highest code. -/
def combineStatus (cs : List Nat) : Nat := cs.foldl max 0

/-- A code of class 0x00xx: usable. -/
def usable (code : Nat) : Bool := code < 0x100

/-! ### Graphs and frames -/

/-- A loaded graph. -/
def State.graph? (s : State) (g : Nat) : Option Graph := s.graphs.graphs.find? (fun x => x.num == g)

/-- Change a loaded graph. -/
def State.modGraph (s : State) (g : Nat) (f : Graph → Graph) : State :=
  { s with graphs := { s.graphs with graphs := mapWhere (fun x => x.num == g) f s.graphs.graphs } }

/-- An open frame of a graph. -/
def Graph.frame? (gr : Graph) (f : Nat) : Option Frame := gr.frames.find? (fun x => x.num == f)

/-- Change an open frame. -/
def Graph.modFrame (gr : Graph) (f : Nat) (k : Frame → Frame) : Graph :=
  { gr with frames := mapWhere (fun x => x.num == f) k gr.frames }

/-- Change an open frame of a graph. -/
def State.modFrame (s : State) (g f : Nat) (k : Frame → Frame) : State := s.modGraph g (fun gr => gr.modFrame f k)

/-- An open frame. -/
def State.frame? (s : State) (g f : Nat) : Option Frame := (s.graph? g).bind (fun gr => gr.frame? f)

/-- Under DUPLICATE a card's copy; otherwise there is one copy (R113, R120). -/
def Graph.cardCopy (gr : Graph) (c : Card) : Nat := if gr.bundle.header.checking = 1 then c.flags / 32 % 2 else 0

/-- The card index of a station and copy. -/
def Graph.cardIndex (gr : Graph) (station copy : Nat) : Option Nat :=
  findIdx? (fun c => c.station == station && gr.cardCopy c == copy) gr.bundle.cards

/-- The card of a station and copy. -/
def Graph.card? (gr : Graph) (station copy : Nat) : Option Card :=
  gr.bundle.cards.find? (fun c => c.station == station && gr.cardCopy c == copy)

/-- Where a station runs now (R150). -/
def Graph.place (gr : Graph) (station copy : Nat) : Place :=
  match gr.cardIndex station copy with
  | some i => nth {} gr.places i
  | none => {}

/-- The cards of a graph with the places of their stations. -/
def Graph.placed (gr : Graph) : List (Card × Place) := gr.bundle.cards.zip gr.places

/-- An edge of the bundle (R122). -/
def Graph.edge (gr : Graph) (e : Nat) : Edge := nth {} gr.bundle.edges e

/-- The stream of an edge and copy (R126). -/
def Graph.stream? (gr : Graph) (e copy : Nat) : Option Stream :=
  gr.streams.find? (fun x => x.edge == e && x.copy == copy)

/-- Change a stream. -/
def Graph.modStream (gr : Graph) (e copy : Nat) (f : Stream → Stream) : Graph :=
  { gr with streams := mapWhere (fun x => x.edge == e && x.copy == copy) f gr.streams }

/-- A list with an element added unless it is there. -/
def addNew {α : Type} [DecidableEq α] (l : List α) (a : α) : List α := if a ∈ l then l else l ++ [a]

/-! ### Receive slots (R80, R126) -/

/-- A receive slot of a core that holds a tile: its first line and its length in lines, the tile. -/
structure RxSlot where
  line : Nat
  lines : Nat
  tile : RxTile
  deriving DecidableEq, Repr

/-- The lines of one receive slot of an edge. -/
def Edge.slotLines (e : Edge) : Nat := e.slotBytes / 128

/-- The receive slots with tiles of one stream. -/
def Stream.rxSlots (st : Stream) (e : Edge) : List RxSlot :=
  st.rx.map fun t => { line := st.rxLine + t.slot * e.slotLines, lines := e.slotLines, tile := t }

/-- The receive slots with tiles on core `c`. -/
def State.rxSlots (s : State) (c : Nat) : List RxSlot :=
  s.graphs.graphs.flatMap fun gr => gr.streams.flatMap fun st =>
    let e := gr.edge st.edge
    if e.consumer ≠ 0xFFFF && (gr.place e.consumer st.copy).core == c then st.rxSlots e else []

/-- The receive slot that a line lies in. -/
def findSlot (slots : List RxSlot) (line : Nat) : Option RxSlot :=
  slots.find? (fun r => r.line ≤ line && line < r.line + r.lines)

/-- Release the `n` oldest tiles of a stream: their credits are on their way back (R126). -/
def Stream.release (st : Stream) (n : Nat) : Stream :=
  let k := min n st.rx.length
  { st with rx := st.rx.drop k, read := st.read - k, creditsBack := st.creditsBack + k }

/-- Tiles that wait for credits enter the network while the producer holds any (R126): at most `n` of them. -/
def pumpTiles : Nat → Stream → Stream
  | 0, st => st
  | n + 1, st =>
    match st.queued with
    | t :: r => if 0 < st.credits then pumpTiles n { st with queued := r, inFlight := st.inFlight ++ [t], credits := st.credits - 1 }
      else st
    | [] => st

/-- Send every waiting tile that has a credit. -/
def Stream.pump (st : Stream) : Stream := pumpTiles st.queued.length st

/-- What a stream without a producer station keeps when a fold makes it anew (R308): the tiles of frames of which none has left. -/
def Stream.carry (old new : Stream) : Stream :=
  Stream.pump { new with
    nextMade := old.nextMade
    queued := old.queued.filter fun t => old.queued.any fun x => x.frame == t.frame && x.seq == 0 }

/-- Release every tile of frame `f`. -/
def Stream.releaseFrame (st : Stream) (f : Nat) : Stream :=
  { st with
    rx := st.rx.filter (fun t => t.frame ≠ f)
    read := ((st.rx.take st.read).filter (fun t => t.frame ≠ f)).length
    creditsBack := st.creditsBack + (st.rx.filter (fun t => t.frame = f)).length
    inFrame := st.inFrame && f ≠ st.expFrame
    queued := st.queued.filter (fun t => t.frame ≠ f)
    minFrame := if st.inFrame ∧ f = st.expFrame then max st.minFrame (f + 1) else st.minFrame }

/-- Release a station's input tiles of a frame whose pass has ended or been aborted: its streams go on with a higher
frame (R125, R126). -/
def Graph.releaseInputs (gr : Graph) (station copy f : Nat) : Graph :=
  { gr with streams := gr.streams.map fun st =>
      if (gr.edge st.edge).consumer == station && st.copy == copy then
        let t := st.releaseFrame f
        { t with minFrame := max t.minFrame (f + 1) }
      else st }

/-! ### Instruction words (R98, R99) -/

/-- The fields of a station instruction word (R99). -/
def decodeWord (w : BitVec 128) : IWord :=
  let v := w.toNat
  { op := bitsN v 127 120, fmtA := bitsN v 119 116, fmtB := bitsN v 115 112, fmtO := bitsN v 111 108
    swap := bitN v 107, keep := bitN v 106, fit := bitN v 105, endPass := bitN v 104
    waitEn := bitN v 103, waitFlag := bitsN v 102 99, postEn := bitN v 98, postFlag := bitsN v 97 94
    a := bitsN v 93 77, b := bitsN v 76 60, o := bitsN v 59 43
    dim0 := bitsN v 42 32, dim1 := bitsN v 31 21, dim2 := bitsN v 20 10, imm := bitsN v 9 0 }

/-- The ops of the op table (R102). -/
def opListed (op : Nat) : Bool :=
  (1 ≤ op && op ≤ 6) || (0x40 ≤ op && op ≤ 0x48) || op == 0x50 || op == 0x51 || op == 0x58 ||
  (0x80 ≤ op && op ≤ 0x82) || (0xC0 ≤ op && op ≤ 0xC7) || (0xF0 ≤ op && op ≤ 0xF6)

/-- An op that the sequencer runs itself (R97, R99). -/
def opSeq (op : Nat) : Bool := 0xF0 ≤ op

/-- The word at the sequencer's PC, with the strides of the loops it lies in (R102). -/
def CoreState.wordAtPc (k : CoreState) : IWord :=
  let w := decodeWord (tblGet 0 k.prog k.pc)
  k.loops.foldl (fun w l => { w with a := w.a + l.iter * l.strideA, o := w.o + l.iter * l.strideO }) w

/-- Move past a word that ends at `pc`, closing the loops (innermost first) whose body ends there (R102). -/
def advanceLoops (pc : Nat) : List LoopFrame → Nat × List LoopFrame
  | [] => (pc, [])
  | l :: r =>
    if pc = l.first + l.len then
      if l.iter + 1 < l.total then (l.first, { l with iter := l.iter + 1 } :: r) else advanceLoops pc r
    else (pc, l :: r)

/-- The sequencer moves to the next word. -/
def CoreState.advance (k : CoreState) : CoreState :=
  let (pc, ls) := advanceLoops (k.pc + 1) k.loops
  { k with pc := pc, loops := ls }

/-- R97: an engine's queue holds 16 instructions. -/
def queueMax : Nat := 16

/-- R97: put a word in the queue of the engine its op names (imm[9] selects the mover, R86); none when the queue is
full. -/
def CoreState.enqueue (k : CoreState) (w : IWord) : Option CoreState :=
  match w.op / 64 with
  | 0 => if k.queueTe.length < queueMax then some { k with queueTe := k.queueTe ++ [w] } else none
  | 1 => if k.queueVe.length < queueMax then some { k with queueVe := k.queueVe ++ [w] } else none
  | 2 => if k.queueAp.length < queueMax then some { k with queueAp := k.queueAp ++ [w] } else none
  | _ =>
    if bitN w.imm 9 then
      if k.queueDm1.length < queueMax then some { k with queueDm1 := k.queueDm1 ++ [w] } else none
    else if k.queueDm0.length < queueMax then some { k with queueDm0 := k.queueDm0 ++ [w] } else none

/-- R97: dispatch words in program order until a sequencer op, an unlisted op or a full queue. -/
def pump : Nat → CoreState → CoreState
  | 0, k => k
  | n + 1, k =>
    if k.run = .RUNNING ∧ ¬ k.stopped ∧ ¬ k.waitDecision then
      let w := k.wordAtPc
      if opListed w.op && !opSeq w.op then
        match k.enqueue w with
        | some k' => pump n k'.advance
        | none => k
      else k
    else k

/-- The five queues hold at most 80 words, so 81 dispatches reach a word that stops the dispatch. -/
def pumpFuel : Nat := 81

/-- Every engine queue is empty (SEQ_BARRIER, R102). -/
def CoreState.queuesEmpty (k : CoreState) : Bool :=
  k.queueTe.isEmpty && k.queueVe.isEmpty && k.queueAp.isEmpty && k.queueDm0.isEmpty && k.queueDm1.isEmpty

/-! ### Passes (R96, R106, R130) -/

/-- R130: the order of ready slots. -/
def ReadyPass.before (a b : ReadyPass) : Bool :=
  a.frame < b.frame || (a.frame == b.frame && (a.rank < b.rank || (a.rank == b.rank &&
    (a.station < b.station || (a.station == b.station && a.copy < b.copy)))))

/-- The ready pass that comes lowest (R130). -/
def firstReady : List ReadyPass → Option ReadyPass
  | [] => none
  | a :: r =>
    match firstReady r with
    | some b => if b.before a then some b else some a
    | none => some a

/-- R60: the fit ratio that a CONFIG set comes into force at the first frame that starts after it. -/
def Slot.ratioAt (x : Slot) (f : Nat) : Slot :=
  match x.nextRatio with
  | some (v, n) => if n ≤ f then { x with ratio := v, nextRatio := none } else x
  | none => x

/-- R130: start a ready pass: flags cleared (R98), frame counters at 0 (R58), the main program's first word. -/
def CoreState.startPass (k : CoreState) (p : ReadyPass) : CoreState :=
  let sl := tblGet {} k.slots p.slot
  { k with
    run := .RUNNING, slot := p.slot, graph := p.graph, frame := p.frame, station := p.station, copy := p.copy
    firedAt := p.firedAt, pc := sl.progStart, rerun := false, waitDecision := false, loops := [], flags := []
    stopped := false, sent := [], bound := [], poisoned := false, pins := p.pins, sigSum := 0, sigLines := 0
    slots := tblSet {} k.slots p.slot { sl.ratioAt p.frame with counts := {}, first := none }
    ready := k.ready.filter (fun x => x ≠ p) }

/-- R130: when no pass runs, start the lowest ready one; a core that waits for its self-test starts none (R106). -/
def CoreState.startNext (k : CoreState) : CoreState :=
  if k.run = .IDLE ∧ ¬ k.testHold then
    match firstReady k.ready with
    | some p => k.startPass p
    | none => k
  else k

/-- Start the next pass if none runs, and dispatch (R97, R130). -/
def CoreState.settle (k : CoreState) : CoreState := pump pumpFuel k.startNext

/-- The shelves that the running pass of a core holds pinned (R177, R179). -/
def CoreState.passPins (k : CoreState) : List Nat := k.pins ++ k.ap.pins

/-- Clear what a pass leaves in the core: queues, flags, loops, pins (R106). -/
def CoreState.clearPass (k : CoreState) : CoreState :=
  { k with queueTe := [], queueVe := [], queueAp := [], queueDm0 := [], queueDm1 := [], flags := [], loops := []
           rerun := false, waitDecision := false, pins := [], ap := { k.ap with pins := [] } }

/-- Flush a core of a withheld frame (R149): its ready pass goes, and its running pass ends without a report. -/
def CoreState.flush (k : CoreState) (g f : Nat) : CoreState :=
  let k1 := { k with ready := k.ready.filter (fun p => !(p.graph == g && p.frame == f)) }
  if k1.run = .RUNNING ∧ k1.graph = g ∧ k1.frame = f then ({ k1.clearPass with run := .IDLE }).settle else k1

/-- The pins that flushing a core of a frame releases. -/
def CoreState.flushPins (k : CoreState) (g f : Nat) : List Nat :=
  (k.ready.filter (fun p => p.graph == g && p.frame == f)).flatMap (·.pins) ++
  (if k.run = .RUNNING ∧ k.graph = g ∧ k.frame = f then k.passPins else [])

/-- Flush every core of a withheld frame. -/
def flushCores (t : Tbl CoreState) (g f : Nat) : Tbl CoreState :=
  (t.map (fun e => (e.1, e.2.flush g f))).filter (fun e => e.2 ≠ {})

/-- Cards of the graph that have fired for the frame and neither ended nor aborted. -/
def Frame.running (fr : Frame) : List (Nat × Nat) :=
  fr.fired.filter (fun p => !fr.ended.contains p && !fr.aborted.contains p)

/-- Withhold an open frame with a code of class 0x01xx or 0x03xx: the code is noted, the consumers' slots are flushed of
the frame, its tiles are released, and its stalled appends end (R145, R149, R193). -/
def State.withhold (s : State) (g f code : Nat) : State :=
  match s.frame? g f with
  | none => s
  | some _ =>
    let s1 := s.modGraph g fun gr =>
      let gr1 := gr.modFrame f fun fr =>
        { fr with codes := addNew fr.codes code, withheld := true, aborted := fr.aborted ++ fr.running }
      { gr1 with streams := gr1.streams.map (fun st => st.releaseFrame f) }
    let pins := s1.cores.flatMap (fun e => e.2.flushPins g f)
    ({ s1 with
      cores := flushCores s1.cores g f
      graphs := { s1.graphs with tokens := s1.graphs.tokens.filter (fun t => !(t.graph == g && t.frame == f)) }
      cache := { s1.cache with
        stalls := s1.cache.stalls.filter (fun t => !(t.graph == g && t.frame == f))
        appends := s1.cache.appends.filter (fun t => !(t.graph == g && t.frame == f)) } }).unpin pins

/-- The event that a core error is logged as (R105). -/
def coreEvent (kind : Nat) : Event :=
  match kind with
  | 1 => .CORE_STORE_UE
  | 8 => .CORE_ADDR_ERR
  | 9 => .CORE_SEQ_ERR
  | 10 => .CORE_SEQ_ERR
  | 11 => .CORE_SEQ_ERR
  | 12 => .CORE_TE_RECORD
  | _ => .CORE_ENGINE_PARITY

/-- R110: report a core error: the capture registers take the first one. -/
def State.coreError (s : State) (c kind engine addr : Nat) : State :=
  let k := s.core c
  let s1 := if s.reg (ra .CORE_ERR_STATUS c) = 0 then
      (s.setReg (ra .CORE_ERR_ADDR c) (word addr)).setReg (ra .CORE_ERR_STATION c) (word (k.slot * 65536 + k.station))
    else s
  s1.raise .CORE c kind (engine * 256)

/-- R106: abort the running pass of a core after an error: no output tokens, staged outputs discarded, flags and queues
cleared, the frame INVALID, the core held until its targeted self-test has ended. -/
def State.abortPass (s : State) (c kind engine addr : Nat) : State :=
  let k := s.core c
  let s1 := (s.coreError c kind engine addr).log (coreEvent kind) (c / 8) [c, engine, kind, addr]
  let s2 := s1.modGraph k.graph fun gr =>
    (gr.modFrame k.frame fun fr => { fr with aborted := addNew fr.aborted (k.station, k.copy) }).releaseInputs
      k.station k.copy k.frame
  let s3 := s2.setCore c { (s2.core c).clearPass with run := .HALTED, testHold := true, stopped := true }
  ((s3.unpin k.passPins).withhold k.graph k.frame Status.INVALID).askTest c 1

/-! ### Event flags (R98) -/

/-- Whether an instruction may start: its wait flag is non-zero, or it has none. -/
def CoreState.waitOk (k : CoreState) (w : IWord) : Bool := !w.waitEn || 0 < tblGet 0 k.flags w.waitFlag

/-- Starting an instruction decrements the flag it waited on. -/
def CoreState.takeFlag (k : CoreState) (w : IWord) : CoreState :=
  if w.waitEn then { k with flags := tblMod 0 k.flags w.waitFlag (· - 1) } else k

/-- A post that would take a flag above 255 is an error: none. -/
def CoreState.post (k : CoreState) (w : IWord) : Option CoreState :=
  if w.postEn then
    if tblGet 0 k.flags w.postFlag < 255 then some { k with flags := tblMod 0 k.flags w.postFlag (· + 1) } else none
  else some k

end Sys2Proof.Machine
end

