-- ==== Sys2Proof/Machine/Flags.lean ====
section
/-! DEFINITION. The fit monitor's counters (R58, R59, R104): what an instruction adds, and whether a station crosses. -/

namespace Sys2Proof.Machine

/-- Sum of two sets of counters. R58 states saturation of the totals alone: a frame counter counts on, and its register shows the low 32 bits
(DEDUCED, log 17). -/
def FitCounts.add (a b : FitCounts) : FitCounts :=
  { sat := a.sat + b.sat, oor := a.oor + b.oor, wrap := a.wrap + b.wrap, nan := a.nan + b.nan
    outs := a.outs + b.outs, ins := a.ins + b.ins }

/-- What one output conversion counts (R104). -/
def Conv.outCounts (c : Conv) : FitCounts := { sat := b2n c.sat, nan := b2n c.nan, outs := 1 }

/-- What one input-stage element counts (R58, R80): a saturating conversion, or an extreme code that arrives
unconverted; a NaN that enters a conversion. -/
def Conv.inCounts (c : Conv) : FitCounts := { oor := b2n c.sat, nan := b2n c.nan, ins := 1 }

/-- The counters of a list. -/
def sumCounts (l : List FitCounts) : FitCounts := l.foldl FitCounts.add {}

/-- R59: a station crosses its threshold: sat_count × N > output elements, oor_count × N > input elements, or any
wrap. -/
def FitCounts.crosses (c : FitCounts) (n : Nat) : Bool :=
  c.outs < c.sat * n || c.ins < c.oor * n || 0 < c.wrap

/-- Add an instruction's events to the running slot's frame counters: only with ctl.fit (R99, R104). -/
def CoreState.count (k : CoreState) (w : IWord) (c : FitCounts) : CoreState :=
  if w.fit then
    { k with slots := tblMod {} k.slots k.slot (fun x => { x with counts := x.counts.add c }) }
  else k

end Sys2Proof.Machine
end

