-- ==== Sys2Proof/Machine/Operands.lean ====
section
/-! DEFINITION. Operand forms: packed elements (R35), rows on lines (R81, R124), the input stage with widened tiles
(R80), weight tile records (R45 … R47) and the execution of one instruction of an engine queue (R97, R98, R105). -/

namespace Sys2Proof.Machine

/-! ### Packed elements and rows -/

/-- R35: element `i` of packed elements of `w` bits, least significant bits first. -/
def elemAt (bs : List Byte) (w i : Nat) : Nat := leAt bs (w * i / 8) 5 / 2 ^ (w * i % 8) % 2 ^ w

/-- R35: pack elements of `w` bits into bytes: the number they form, element 0 lowest. -/
def packElems (w : Nat) (xs : List Nat) : List Byte :=
  toLe ((w * xs.length + 7) / 8) (xs.foldr (fun x acc => acc * 2 ^ w + x % 2 ^ w) 0)

/-- Bytes of a row of `n` elements, rounded up to whole lines (R81, R124). -/
def rowBytes (f : Fmt) (n : Nat) : Nat := (n * f.bits + 1023) / 1024 * 128

/-- A row of an operand: its elements in the declared format, and whether a line of it is poisoned. -/
structure InRow where
  vals : List Nat
  poison : Bool
  deriving DecidableEq, Repr

/-- R80: the format in which an operand is stored: BF16 in a receive slot with a widened tile; the tile's own format
where the instruction declares BF16 and the tile is not widened; otherwise the declared one. -/
def storedFmt (slots : List RxSlot) (line : Nat) (f : Fmt) : Fmt :=
  match findSlot slots line with
  | none => f
  | some r =>
    if r.tile.widened then .bf16
    else if f = .bf16 then (Fmt.ofCode r.tile.fmt).getD f
    else f

/-- R80: one element at the input stage. -/
def inputConv (stored declared : Fmt) (x : Nat) : Conv :=
  if stored = declared then { bits := x, sat := extremeCode declared x }
  else convertFrom stored declared x

/-- The rows of an operand as the input stage delivers them, with what it counts. -/
def readRows (s : State) (c : Nat) (slots : List RxSlot) (line : Nat) (f : Fmt) (rows n : Nat) :
    List InRow × FitCounts :=
  let st := storedFmt slots line f
  let rb := rowBytes st n
  let rs := (List.range rows).map fun r =>
    let (bs, p) := s.readMem (coreBase c + 128 * line + r * rb) rb
    ((List.range n).map (fun i => inputConv st f (elemAt bs st.bits i)), p)
  (rs.map (fun r => { vals := r.1.map (·.bits), poison := r.2 }),
   sumCounts (rs.flatMap (fun r => r.1.map Conv.inCounts)))

/-- Rows of plain elements, without the input stage. -/
def plainRows (s : State) (c line : Nat) (f : Fmt) (rows n : Nat) : List InRow :=
  (List.range rows).map fun r =>
    let (bs, p) := s.readMem (coreBase c + 128 * line + r * rowBytes f n) (rowBytes f n)
    { vals := (List.range n).map (fun i => elemAt bs f.bits i), poison := p }

/-- The first poisoned line of a range of lines of a core's store. -/
def firstPoison (s : State) (c line lines : Nat) : Option Nat :=
  (s.storePoison.find? (fun e => e.2 && (coreBase c / 128 + line ≤ e.1 && e.1 < coreBase c / 128 + line + lines))).map
    (fun e => e.1 - coreBase c / 128)

/-! ### Weight tile records (R45 … R47) -/

/-- Bytes of one scale by scale_fmt (R45, R46). -/
def scaleBytes (f : Nat) : Nat := if f = 3 then 2 else if f = 0 then 0 else 1

/-- A scale as an exact value (R38). -/
def decodeScale (f x : Nat) : FVal :=
  match f with
  | 1 => decodeE8M0 x
  | 2 => decodeFloat .e4m3 x
  | 3 => decodeFloat .bf16 x
  | _ => .fin false 1 0

/-- Round up to the next 64 B boundary. -/
def up64 (n : Nat) : Nat := (n + 63) / 64 * 64

/-- The fields of a record header (R45). -/
structure RecHdr where
  recType : Nat
  fmt : Nat
  groupLen : Nat
  scaleFmt : Nat
  cbFmt : Nat
  kRows : Nat
  nCols : Nat
  cbOff : Nat
  scaleOff : Nat
  codeOff : Nat
  recBytes : Nat
  deriving DecidableEq, Repr

/-- Read a record header (R45). -/
def recHdr (bs : List Byte) : RecHdr :=
  { recType := leAt bs 0 2, fmt := leAt bs 2 1, groupLen := leAt bs 3 1, scaleFmt := leAt bs 4 1, cbFmt := leAt bs 5 1
    kRows := leAt bs 6 2, nCols := leAt bs 8 2, cbOff := leAt bs 12 4, scaleOff := leAt bs 16 4
    codeOff := leAt bs 20 4, recBytes := leAt bs 24 4 }

/-- A code record with a codebook block (R41: INT4 weights with the fixed codebook carry none). -/
def RecHdr.hasCodebook (h : RecHdr) : Bool := h.recType == 1 && h.cbFmt != 3

/-- R46: the size of the codebook block. -/
def RecHdr.cbBytes (h : RecHdr) : Nat := if h.hasCodebook then h.kRows / h.groupLen * 16 else 0
/-- R46: the size of the scale block. -/
def RecHdr.scaleBlock (h : RecHdr) : Nat := h.kRows / h.groupLen * 128 * scaleBytes h.scaleFmt
/-- R46: the size of the code or weight block. -/
def RecHdr.codeBytes (h : RecHdr) : Nat :=
  h.kRows * 128 * ((Fmt.ofCode h.fmt).map Fmt.bits).getD 0 / 8

/-- R39, R47: the status with which GRAPH_LOAD refuses a record header; `none` when it keeps R45 … R47 so far as its
header says. Fields in ascending byte offset (R117), then the packed layout. -/
def RecHdr.check (h : RecHdr) (bs : List Byte) : Option Nat :=
  let bad := some Status.BAD_PACKET
  if h.recType ≠ 1 ∧ h.recType ≠ 2 then bad
  else if h.fmt < 1 ∨ 8 < h.fmt then bad
  else if h.recType = 1 ∧ ¬ (h.fmt = 1 ∨ h.fmt = 3 ∨ h.fmt = 4) then bad
  else if h.recType = 2 ∧ (h.fmt = 3 ∨ h.fmt = 4 ∨ h.fmt = 1) then bad
  else if h.groupLen = 0 then some Status.ZERO_FIELD
  else if h.groupLen ≠ 32 ∧ h.groupLen ≠ 64 ∧ h.groupLen ≠ 128 then bad
  else if 3 < h.scaleFmt then bad
  else if 3 < h.cbFmt then bad
  else if h.recType = 1 ∧ (h.cbFmt = 3) ≠ (h.fmt = 1) then bad
  else if h.kRows ≠ (if h.recType = 1 then 256 else 128) then bad
  else if h.nCols ≠ 128 then bad
  else if (bs.drop 10).take 2 ≠ [0, 0] then bad
  else
    let cbEnd := 64 + h.cbBytes
    let scaleStart := up64 cbEnd
    let scaleEnd := if h.scaleFmt = 0 then cbEnd else scaleStart + h.scaleBlock
    let codeStart := up64 scaleEnd
    if h.cbOff ≠ (if h.hasCodebook then 64 else 0) then bad
    else if h.scaleOff ≠ (if h.scaleFmt = 0 then 0 else scaleStart) then bad
    else if h.codeOff ≠ codeStart then bad
    else if h.recBytes ≠ up64 (codeStart + h.codeBytes) then bad
    else if (bs.drop 28).take 36 ≠ List.replicate 36 0 then bad
    else if h.fmt = 4 ∧ h.hasCodebook ∧ (List.range (h.kRows / h.groupLen)).any
        (fun g => ((bs.drop (64 + 16 * g + 8)).take 8).any (· ≠ 0)) then bad
    else none

/-- The codebook entry format of a record: its cb_fmt, with the fixed codebook of R41 counted as INT8. -/
def RecHdr.cbFormat (h : RecHdr) : Fmt :=
  match h.cbFmt with
  | 1 => .e4m3 | 2 => .e5m2 | _ => .int8

/-- The value of weight (k, n) of a record, before any scale: C[code] for a code record, the weight of a dense one
(R41, R44). -/
def recWeight (h : RecHdr) (bs : List Byte) (k n : Nat) : FVal :=
  let f := (Fmt.ofCode h.fmt).getD .int8
  let x := elemAt (bs.drop h.codeOff) f.bits (k * 128 + n)
  if h.recType = 1 then
    if h.cbFmt = 3 then .ofInt (signedOf 4 x)
    else decodeElem h.cbFormat (leAt bs (h.cbOff + 16 * (k / h.groupLen) + x) 1)
  else decodeElem f x

/-- The scale s_w[n][g] of a record as FP32; none when the record has none (R40, R46). -/
def recScale (h : RecHdr) (bs : List Byte) (g n : Nat) : Option F32 :=
  if h.scaleFmt = 0 then none
  else
    let w := scaleBytes h.scaleFmt
    some (roundF32 (decodeScale h.scaleFmt (leAt bs (h.scaleOff + (g * 128 + n) * w) w)))

/-! ### Executing one instruction (R97, R98, R105) -/

/-- What an instruction did: the core after it, what it wrote (device address, bytes, poisoned), what it counts, the
error that stops it (CORE_ERR_STATUS bit, address), and the first poisoned line it read. -/
structure OpOut where
  core : CoreState
  writes : List (Nat × List Byte × Bool) := []
  fit : FitCounts := {}
  err : Option (Nat × Nat) := none
  ue : Option Nat := none

/-- An instruction waits, or it runs. -/
inductive OpRes where
  | wait
  | done (s : State) (o : OpOut)

/-- The queue of an engine: 0 TE, 1 VE, 2 AP, 3 and 4 the movers (numbered as CORE_ERR_FIRST.engine, R109). -/
def CoreState.queue (k : CoreState) (e : Nat) : List IWord :=
  match e with
  | 0 => k.queueTe | 1 => k.queueVe | 2 => k.queueAp | 3 => k.queueDm0 | _ => k.queueDm1

/-- Take the first instruction off an engine's queue. -/
def CoreState.dequeue (k : CoreState) (e : Nat) : CoreState :=
  match e with
  | 0 => { k with queueTe := k.queueTe.drop 1 }
  | 1 => { k with queueVe := k.queueVe.drop 1 }
  | 2 => { k with queueAp := k.queueAp.drop 1 }
  | 3 => { k with queueDm0 := k.queueDm0.drop 1 }
  | _ => { k with queueDm1 := k.queueDm1.drop 1 }

/-- The busy counter of an engine (R109). -/
def busyReg (e : Nat) : Reg :=
  match e with
  | 0 => .CORE_TE_BUSY | 1 => .CORE_VE_BUSY | 2 => .CORE_AP_BUSY | _ => .CORE_DM_BUSY

/-- Cycle counters: the cycles an instruction takes, and those it stalls, depend on bank conflicts and are free values
(R90, R102; log 18). -/
def State.countCycles (s : State) (c e : Nat) : State :=
  let (v, s1) := s.fresh
  (s1.wrapReg (ra (busyReg e) c) (v.toNat % 2 ^ 32)).wrapReg (ra .CORE_STORE_STALL c) (v.toNat / 2 ^ 32)

/-- R93, R105: a corrected store error: counted per bank for the storm rule (more than 64 within 1 s). -/
def State.storeCe (s : State) (c bank : Nat) : State :=
  let s1 := (s.satReg (ra .CORE_CE_COUNT c)).raise .CORE c 0 (6 * 256)
  s1.modCore c fun k =>
    if s.now ≤ k.ceSince + 1000000 then { k with ceBank := tblMod 0 k.ceBank (bank % 64) (· + 1) }
    else { k with ceBank := tblSet 0 [] (bank % 64) 1, ceSince := s.now }

/-- R105, R107: an engine has read poisoned data: counted, logged, and the row is to be tested. -/
def State.storeUe (s : State) (c e line : Nat) : State :=
  (((s.satReg (ra .CORE_UE_COUNT c)).coreError c 1 e line).log .CORE_STORE_UE (c / 8)
    [c, line % 64, line / 64]).askTest c 5

/-- Finish an instruction: its error aborts the pass (R106); otherwise its results are written, it counts, its flag is
posted (R98), and the dispatch goes on. -/
def finishOp (s : State) (c e : Nat) (w : IWord) (o : OpOut) : State :=
  match o.err with
  | some (kind, addr) => s.abortPass c kind e addr
  | none =>
    let s1 := o.writes.foldl (fun s x => s.writeMem x.1 x.2.1 x.2.2) s
    let s2 := match o.ue with
      | some line => s1.storeUe c e line
      | none => s1
    let k := ((o.core.dequeue e).takeFlag w).count w o.fit
    let k := if o.ue.isSome then { k with poisoned := true } else k
    match k.post w with
    | none => (s2.setCore c k).abortPass c 11 e 0
    | some k' => (s2.setCore c k'.settle).countCycles c e

/-- The CORE_ERR_STATUS bit of a parity error of an engine (R105). -/
def parityKind (e : Nat) : Nat :=
  match e with
  | 0 => 2 | 1 => 4 | 2 => 6 | _ => 7
/-- The CORE_ERR_STATUS bit of the second hardware check of an engine: the TE's residue, the special-function table. -/
def secondKind (e : Nat) : Nat := if e = 0 then 3 else 5

/-- Run the first instruction of an engine's queue when it is `op` and may start (its core runs, its wait flag is
non-zero, its body does not wait); `none` when it does not start. -/
def tryOp (s : State) (c e op : Nat) (hw : CoreHw) (body : State → Nat → IWord → OpRes) : Option State :=
  let k := s.core c
  match k.run, k.queue e with
  | .RUNNING, w :: _ =>
    if w.op = op ∧ k.waitOk w ∧ ¬ k.stopped then
      match hw with
      | .parity => some (s.abortPass c (parityKind e) e w.a)
      | .second => some (s.abortPass c (secondKind e) e w.a)
      | _ =>
        let s1 := match hw with
          | .ce bank => s.storeCe c bank
          | .ue line => s.markPoison (coreBase c + 128 * (line % storeLines)) 128 true
          | _ => s
        match body s1 c w with
        | .wait => none
        | .done s2 o => some (finishOp s2 c e w o)
    else none
  | _, _ => none

/-- Run an instruction, or leave the state as it is when it does not start (log 2). -/
def runOp (s : State) (c e op : Nat) (hw : CoreHw) (body : State → Nat → IWord → OpRes) : State :=
  (tryOp s c e op hw body).getD s

/-- Run an instruction of a data mover: mover 0 when it can start, else mover 1 (R86; log 2). -/
def runDm (s : State) (c op : Nat) (hw : CoreHw) (body : State → Nat → IWord → OpRes) : State :=
  match tryOp s c 3 op hw body with
  | some t => t
  | none => (tryOp s c 4 op hw body).getD s

end Sys2Proof.Machine
end

