-- ==== Sys2Proof/Machine/Mover.lean ====
section
/-! DEFINITION. The data movers: DM_COPY … DM_TRANSPOSE (R86 … R88, R102, R126, R137, R513), with what a core reads and
writes over its network port. -/

namespace Sys2Proof.Machine

/-! ### The network port (R85, R143) -/

/-- Whether a core's port lets an access to a device address through: the core is not fenced, and neither is the core
or die that holds the address (R143, R145). -/
def State.portOpen (s : State) (c a : Nat) : Bool :=
  !s.coreFenced c && !(hbmEnd ≤ a && (s.dieFenced (dieOfAddr a) ||
    (a % 0x1000000000 < 0x8000000 && s.coreFenced (8 * dieOfAddr a + a / storeBytes % 8))))

/-- The version of a buffer as a die knows it (R136): the current one, less the rises still on their way to the die. -/
def State.versionAt (s : State) (d g b : Nat) : Nat :=
  let cur := match s.graph? g with
    | some gr => (nth {} gr.bundle.buffers b).version
    | none => 0
  (cur + 65536 - (s.graphs.versions.filter (fun v => v.graph == g && v.buffer == b && v.toSend.contains d)).length) % 65536

/-- The remote cache of a die. -/
def State.rc (s : State) (d : Nat) : RcState := tblGet {} s.hbm.rcs d
/-- Change the remote cache of a die. -/
def State.modRc (s : State) (d : Nat) (f : RcState → RcState) : State :=
  { s with hbm := { s.hbm with rcs := tblMod {} s.hbm.rcs d f } }

/-- The cached line of an address that a read of die `d` hits (R211). -/
def State.rcHit (s : State) (d a : Nat) : Option RcLine :=
  (s.rc d).lines.find? fun l => l.addr == a / 128 && l.version == s.versionAt d l.graph l.buffer

/-- One line as a core of die `d` reads it: from its remote cache on a hit, otherwise from memory (R211). -/
def State.readLine (s : State) (c a : Nat) : List Byte × Bool :=
  if s.portOpen c a then
    if a < hbmEnd ∧ stackOf a ≠ c / 8 then
      match s.rcHit (c / 8) a with
      | some l => (l.data, false)
      | none => s.readMem a 128
    else s.readMem a 128
  else (List.replicate 128 0, true)

/-- R137, R212: a write of die `d` to another die's HBM invalidates its own cached line, and a fill in flight for it does
not allocate. -/
def State.rcInvalidate (s : State) (d a n : Nat) : State :=
  if a < hbmEnd ∧ stackOf a ≠ d then
    s.modRc d fun r =>
      { r with lines := r.lines.filter (fun l => !(a / 128 ≤ l.addr && l.addr * 128 < a + n))
               fills := mapWhere (fun f => a / 128 ≤ f.addr && f.addr * 128 < a + n) (fun f => { f with overtaken := true })
                 r.fills }
  else s

/-- The device address that a descriptor names, and its poison (R87): the low 48 bits of the 8 B in its slot. -/
def State.descriptor (s : State) (c : Nat) (w : IWord) : Nat × Bool :=
  let (bs, p) := s.readMem (coreBase c + 128 * w.b + 16 * bitsN w.imm 2 0) 8
  (ofLe bs % 2 ^ 48, p)

/-- R87: the range breaks the alignment or touches a reserved address. -/
def badRange (a lines : Nat) : Bool := a % 128 != 0 || !validRange a (128 * lines)

/-- The first index at which a line is poisoned, as a line address. -/
def firstBad (line : Nat) (ls : List (List Byte × Bool)) : Option Nat := (findIdx? (·.2) ls).map (· + line)

/-- Lines as writes from a device address on. -/
def linesTo (a : Nat) (ls : List (List Byte × Bool)) : List (Nat × List Byte × Bool) :=
  (List.range ls.length).map fun i => let l := nth ([], false) ls i; (a + 128 * i, l.1, l.2)

/-! ### Copies inside a core and its cluster (R102) -/

/-- DM_COPY: dim0 lines from a to o; imm[3] and imm[4] place a and o in the core's own cluster store. -/
def dmCopy (s : State) (c : Nat) (w : IWord) : OpRes :=
  let src := (if bitN w.imm 3 then clusterBase c else coreBase c) + 128 * w.a
  let dst := (if bitN w.imm 4 then clusterBase c else coreBase c) + 128 * w.o
  let ls := (List.range w.dim0).map fun i => s.readMem (src + 128 * i) 128
  .done s { core := s.core c, writes := linesTo dst ls, ue := firstBad w.a ls }

/-- DM_FILL: dim0 lines from o with the 32-bit pattern at the start of line b. -/
def dmFill (s : State) (c : Nat) (w : IWord) : OpRes :=
  let (bs, p) := s.readMem (coreBase c + 128 * w.b) 4
  let line := (List.replicate 32 bs).flatten
  .done s { core := s.core c, writes := linesTo (coreBase c + 128 * w.o) (List.replicate w.dim0 (line, p))
            ue := if p then some w.b else none }

/-- DM_GATHER: dim0 rows of dim1 lines, row r from line a + index × dim1; an index that is negative, or whose row runs
past the store, is an address error and no data moves (R102, R105). -/
def dmGather (s : State) (c : Nat) (w : IWord) : OpRes :=
  let (ib, ip) := s.readMem (coreBase c + 128 * w.b) (4 * w.dim0)
  let idx := (List.range w.dim0).map fun r => sbits (leAt ib (4 * r) 4) 32
  match idx.find? (fun i => i < 0 || (storeLines : Int) < (w.a : Int) + i * w.dim1 + w.dim1) with
  | some i => .done s { core := s.core c, err := some (8, if i < 0 then w.a else w.a + i.toNat * w.dim1) }
  | none =>
    let ls := (idx.flatMap fun i => (List.range w.dim1).map fun k =>
      s.readMem (coreBase c + 128 * (w.a + i.toNat * w.dim1 + k)) 128).map fun l => (l.1, l.2 || ip)
    .done s { core := s.core c, writes := linesTo (coreBase c + 128 * w.o) ls
              ue := if ip then some w.b
                    else (idx.findSome? fun i => firstPoison s c (w.a + i.toNat * w.dim1) w.dim1) }

/-- One transposed line of a block: output row `i`, half `h`, from the lines of the block; `w` lines a row. -/
def transposeLine (ls : List (List Byte × Bool)) (w i h : Nat) : List Byte × Bool :=
  let per := 128 / w
  let js := (List.range per).map (fun k => h * per + k)
  let src := js.map fun j => nth ([], false) ls (j * w + i / per)
  (src.flatMap (fun l => (l.1.drop (i % per * w)).take w), src.any (·.2))

/-- DM_TRANSPOSE: dim0 blocks of 128 × 128 elements of 8 or 16 bits. -/
def dmTranspose (s : State) (c : Nat) (w : IWord) : OpRes :=
  let n := if bitsN w.imm 1 0 = 0 then 1 else 2
  let ls := (List.range (w.dim0 * 128 * n)).map fun i => s.readMem (coreBase c + 128 * (w.a + i)) 128
  let out := (List.range w.dim0).flatMap fun b =>
    let blk := (ls.drop (b * 128 * n)).take (128 * n)
    (List.range 128).flatMap fun i => (List.range n).map fun h => transposeLine blk n i h
  .done s { core := s.core c, writes := linesTo (coreBase c + 128 * w.o) out, ue := firstBad w.a ls }

/-! ### Streams (R88, R126, R513) -/

/-- The group length of a DM_SEND (R513). -/
def sendGroup (imm : Nat) : Nat :=
  match bitsN imm 1 0 with
  | 0 => 0 | 1 => 32 | 2 => 64 | _ => 128

/-- The card of the running pass and its graph. -/
def State.passCard (s : State) (c : Nat) : Option (Graph × Card) :=
  let k := s.core c
  match s.graph? k.graph with
  | some gr => (gr.card? k.station k.copy).map (fun cd => (gr, cd))
  | none => none

/-- The lines of a tile's scale block (R124). -/
def scaleLines (rows cols gl sf : Nat) : Nat :=
  if gl = 0 then 0 else (rows * ((cols + gl - 1) / gl) * scaleBytes sf + 127) / 128

/-! ### Signatures (R392) -/

/-- The hash of one 128 B line: CRC-64 over the 8 B key and the data. -/
def lineHash (position output : Nat) (data : List Byte) : BitVec 64 :=
  crc64 0 (toLe 4 position ++ toLe 2 output ++ toLe 2 0 ++ data)

/-- Add lines with their positions to the running pass's signature. -/
def CoreState.sign (k : CoreState) (output : Nat) (ls : List (Nat × List Byte)) : CoreState :=
  { k with sigSum := ls.foldl (fun a l => a + lineHash l.1 output l.2) k.sigSum, sigLines := k.sigLines + ls.length }

/-- The lines of a pass's payload with their positions in tile `seq` (R392). -/
def tilePositions (seq : Nat) (ls : List (List Byte)) : List (Nat × List Byte) :=
  (List.range ls.length).map fun i => (seq * 65536 + i, nth [] ls i)

/-- The output of a card whose buffer holds a device address, and the byte offset there (R392): buffers of BUFFER and
STATE outputs. -/
def Graph.outputAt (gr : Graph) (cd : Card) (a : Nat) : Option (Nat × Nat) :=
  (List.range cd.nOut).findSome? fun j =>
    let e := gr.edge (nth 0xFFFF cd.outEdges j)
    let b := nth {} gr.bundle.buffers e.buffer
    if e.kind ≠ 0 ∧ b.at_ ≤ a ∧ a < b.at_ + (if b.isState then 2 * b.bytes else b.bytes) then some (j, a - b.at_) else none

/-- DM_SEND: waits without a credit; otherwise forms the header (R513), spends a credit and puts the tile on its way
(R126). A fenced core's port drops the tile (R143). -/
def dmSend (s : State) (c : Nat) (w : IWord) : OpRes :=
  let k := s.core c
  match s.passCard c with
  | none => .wait
  | some (gr, cd) =>
    let ei := nth 0xFFFF cd.outEdges w.b
    let e := gr.edge ei
    let sent := tblGet 0 k.sent w.b
    if e.frameTiles ≤ sent then .done s { core := k, err := some (10, 0) }
    else
      match gr.stream? ei k.copy with
      | none => .wait
      | some st =>
        if st.credits = 0 then .wait
        else
          let f := (Fmt.ofCode w.fmtA).getD .none
          let cols := if w.dim1 = 0 then 2048 else w.dim1
          let gl := sendGroup w.imm
          let payload := w.dim0 * rowBytes f cols / 128
          let ls := ((List.range payload).map fun i => s.readMem (coreBase c + 128 * (w.a + i)) 128) ++
            (List.range (scaleLines w.dim0 cols gl (bitsN w.imm 3 2))).map fun i =>
              s.readMem (coreBase c + 128 * (w.o + i)) 128
          let t : Tile :=
            { stream := ei, seq := sent, frame := k.frame, fmt := w.fmtA, last := sent + 1 = e.frameTiles
              poisoned := ls.any (·.2), widened := k.rerun, scales := gl ≠ 0, groupLen := gl
              scaleFmt := bitsN w.imm 3 2, rows := w.dim0, cols := cols, graph := k.graph, producer := k.station
              body := ls.flatMap (·.1) }
          let s1 := if s.coreFenced c then s
            else s.modGraph k.graph fun gr => gr.modStream ei k.copy fun st =>
              { st with credits := st.credits - 1, inFlight := st.inFlight ++ [t] }
          .done s1
            { core := CoreState.sign { s1.core c with sent := tblMod 0 k.sent w.b (· + 1) } w.b
                (tilePositions sent ((ls.take payload).map Prod.fst))
              ue := firstBad w.a ls }

/-- DM_RECV: waits for the next unread tile of its stream, releases the oldest tiles that imm names, and binds the tile.
A WIDEN station keeps its releases until its group's decision (R62, R126). -/
def dmRecv (s : State) (c : Nat) (w : IWord) : OpRes :=
  let k := s.core c
  match s.passCard c with
  | none => .wait
  | some (gr, cd) =>
    let ei := nth 0xFFFF cd.inEdges w.b
    match gr.stream? ei k.copy with
    | none => .wait
    | some st =>
      if st.rx.length ≤ st.read then .wait
      else
        let t := st.rx[st.read]?
        let s1 := s.modGraph k.graph fun gr => gr.modStream ei k.copy fun st =>
          let st1 := { st with read := st.read + 1 }
          if cd.fitMode = 2 then st1 else st1.release (bitsN w.imm 7 0)
        .done s1
          { core := { s1.core c with
              bound := if cd.fitMode = 2 then tblMod 0 k.bound w.b (· + bitsN w.imm 7 0) else k.bound
              poisoned := k.poisoned || (t.map (·.poisoned)).getD false } }

/-! ### Device addresses (R87) -/

/-- DM_READ: dim0 lines from a device address into core store from o. -/
def dmRead (s : State) (c : Nat) (w : IWord) : OpRes :=
  let (a, dp) := s.descriptor c w
  if badRange a w.dim0 then .done s { core := s.core c, err := some (8, a / 65536) }
  else
    let ls := (List.range w.dim0).map fun i => let l := s.readLine c (a + 128 * i); (l.1, l.2 || dp)
    .done s { core := s.core c, writes := linesTo (coreBase c + 128 * w.o) ls
              ue := if dp then some w.b else (findIdx? (·.2) ls).map (· + w.o) }

/-- DM_WRITE: dim0 lines of core store from a to a device address; it posts when the last write is accepted (R131,
R205). -/
def dmWrite (s : State) (c : Nat) (w : IWord) : OpRes :=
  let (a, dp) := s.descriptor c w
  if badRange a w.dim0 then .done s { core := s.core c, err := some (8, a / 65536) }
  else
    let ls := (List.range w.dim0).map fun i =>
      let l := s.readMem (coreBase c + 128 * (w.a + i)) 128
      (l.1, l.2 || dp)
    let s1 := s.rcInvalidate (c / 8) a (128 * w.dim0)
    let k := match s.passCard c with
      | some (gr, cd) => (List.range w.dim0).foldl (fun k i =>
          match gr.outputAt cd (a + 128 * i) with
          | some (j, o) => k.sign j [(o / 128, (nth ([], false) ls i).1)]
          | none => k) (s1.core c)
      | none => s1.core c
    .done s1 { core := k, writes := if s.portOpen c a then linesTo a ls else []
               ue := if dp then some w.b else firstBad w.a ls }

/-- DM_COPY (R102). -/
def execDmCopy (core : Fin 32) (hw : CoreHw) (s : State) : Host.Outcome State Fault Refusal :=
  .next (runDm s core 0xC0 hw dmCopy)
/-- DM_FILL (R102). -/
def execDmFill (core : Fin 32) (hw : CoreHw) (s : State) : Host.Outcome State Fault Refusal :=
  .next (runDm s core 0xC1 hw dmFill)
/-- DM_SEND (R513). -/
def execDmSend (core : Fin 32) (hw : CoreHw) (s : State) : Host.Outcome State Fault Refusal :=
  .next (runDm s core 0xC2 hw dmSend)
/-- DM_RECV (R126). -/
def execDmRecv (core : Fin 32) (hw : CoreHw) (s : State) : Host.Outcome State Fault Refusal :=
  .next (runDm s core 0xC3 hw dmRecv)
/-- DM_READ (R87). -/
def execDmRead (core : Fin 32) (hw : CoreHw) (s : State) : Host.Outcome State Fault Refusal :=
  .next (runDm s core 0xC4 hw dmRead)
/-- DM_WRITE (R87). -/
def execDmWrite (core : Fin 32) (hw : CoreHw) (s : State) : Host.Outcome State Fault Refusal :=
  .next (runDm s core 0xC5 hw dmWrite)
/-- DM_GATHER (R102). -/
def execDmGather (core : Fin 32) (hw : CoreHw) (s : State) : Host.Outcome State Fault Refusal :=
  .next (runDm s core 0xC6 hw dmGather)
/-- DM_TRANSPOSE (R102). -/
def execDmTranspose (core : Fin 32) (hw : CoreHw) (s : State) : Host.Outcome State Fault Refusal :=
  .next (runDm s core 0xC7 hw dmTranspose)

end Sys2Proof.Machine
end

