-- ==== Sys2Proof/Machine/Sequencer.lean ====
section
/-! DEFINITION. The sequencer ops SEQ_NOP … SEQ_END, an unlisted op code, and the widen-group decision (R58 … R72, R97,
R98, R101 … R105, R130, R131, R136). -/

namespace Sys2Proof.Machine

/-! ### Running a sequencer op -/

/-- What a sequencer op comes to: it waits, or it is done, with the state and the core as they then are. -/
inductive SeqRes where
  | wait
  | done (s : State) (k : CoreState)

/-- Run the word at the PC when it is `op`, its flag lets it start and its body does not wait; a program store parity
error stops the sequencer first (R105). SEQ_FIT_CHECK posts when it returns, at the group's decision to release (R98, R103). -/
def runSeq (s : State) (c op : Nat) (hw : CoreHw) (body : State → Nat → IWord → SeqRes) : State :=
  let k := s.core c
  let w := k.wordAtPc
  if k.run = .RUNNING ∧ ¬ k.stopped ∧ ¬ k.waitDecision ∧ w.op = op then
    if hw = .parity then s.abortPass c 9 5 0
    else if k.waitOk w then
      match body s c w with
      | .wait => s
      | .done s1 k1 =>
        match if k1.waitDecision then some (k1.takeFlag w) else (k1.takeFlag w).post w with
        | none => s1.abortPass c 11 5 0
        | some k2 => s1.setCore c k2.settle
    else s
  else s

/-! ### Tokens and versions (R131, R136) -/

/-- The dies of the route table other than `d`. -/
def State.otherDies (s : State) (d : Nat) : List Nat := [0, 1, 2, 3].filter (fun x => x != d && !s.dieFenced x)

/-- A token goes out on the CTRL channel (R131). -/
def State.sendToken (s : State) (t : Token) : State :=
  { s with graphs := { s.graphs with tokens := s.graphs.tokens ++ [t] } }

/-- Raise the version of a buffer and send it to every other die; what it releases follows when all have acknowledged,
at once when there is none (R136). -/
def State.raiseVersion (s : State) (home g b : Nat) (rel : State → State) (what : VersionThen) : State :=
  let v := (match s.graph? g with
    | some gr => (nth {} gr.bundle.buffers b).version + 1
    | none => 0) % 65536
  let s1 := (s.modGraph g fun gr =>
    { gr with bundle := { gr.bundle with
        buffers := gr.bundle.buffers.modify b (fun x => { x with version := v }) } }).wrapReg (ra .TDE_VERSION_BUMPS home)
  match s1.otherDies home with
  | [] => rel s1
  | ds => { s1 with graphs := { s1.graphs with versions := s1.graphs.versions ++
      [{ graph := g, buffer := b, version := v, home := home, toSend := ds
         toAck := ds, since := s1.now, then_ := what }] } }

/-- The input tokens of a card that are present for its frame (R131): a stream's last tile has arrived, a buffer's token
has arrived; the state gate stands open for a running pass (R129). -/
def Graph.inputPresent (gr : Graph) (f copy ei : Nat) : Bool :=
  match (gr.edge ei).kind with
  | 0 => match gr.stream? ei copy with
    | some st => f < st.minFrame
    | none => false
  | 1 => match gr.frame? f with
    | some fr => fr.tokens.contains (ei, copy) || (gr.edge ei).producer == 0xFFFF
    | none => false
  | _ => true

/-- The edges that a mask names among a card's edges. -/
def maskEdges (mask : Nat) (es : List Nat) : List Nat :=
  (List.range es.length).filterMap fun j => if bitN mask j then es[j]? else none

/-- Send the token of one output: a BUFFER raises its version first; a STATE output notes its buffer; a STREAM's token is
its last tile (R131, R136). -/
def sendOutput (s : State) (c : Nat) (k : CoreState) (gr : Graph) (ei : Nat) : State :=
  let e := gr.edge ei
  let t : Token := { graph := k.graph, frame := k.frame, edge := ei, copy := k.copy }
  match e.kind with
  | 0 => s
  | 1 =>
    (s.wrapReg (ra .TDE_TOKENS (c / 8))).raiseVersion (c / 8) k.graph e.buffer (fun s => s.sendToken t) (.token t)
  | _ =>
    let s1 := (s.wrapReg (ra .TDE_TOKENS (c / 8))).modFrame k.graph k.frame fun fr =>
      { fr with stateWritten := addNew fr.stateWritten e.buffer }
    s1.raiseVersion (c / 8) k.graph e.buffer (fun s => s.sendToken t) (.token t)

/-! ### The ops -/

/-- SEQ_NOP, and the parts of other ops that only move on. -/
def seqNop (s : State) (c : Nat) (_ : IWord) : SeqRes := .done s (s.core c).advance

/-- SEQ_TOKEN_WAIT (R131). -/
def seqTokenWait (s : State) (c : Nat) (w : IWord) : SeqRes :=
  let k := s.core c
  match s.passCard c with
  | none => .wait
  | some (gr, cd) =>
    if (maskEdges w.imm (cd.inEdges.take cd.nIn)).all (gr.inputPresent k.frame k.copy) then .done s k.advance else .wait

/-- SEQ_TOKEN_SEND: after every DM_WRITE of the pass has posted; a WIDEN station also returns the credits it kept (R62,
R103, R131). A fenced core's tokens are dropped at its port (R149). -/
def seqTokenSend (s : State) (c : Nat) (w : IWord) : SeqRes :=
  let k := s.core c
  match s.passCard c with
  | none => .wait
  | some (gr, cd) =>
    if (k.queueDm0 ++ k.queueDm1).any (fun x => x.op = 0xC5) then .wait
    else
      let s1 := s.modGraph k.graph fun g => k.bound.foldl
        (fun g e => g.modStream (nth 0xFFFF cd.inEdges e.1) k.copy (fun st => st.release e.2)) g
      let s2 := if s.coreFenced c then s1
        else (maskEdges w.imm (cd.outEdges.take cd.nOut)).foldl (fun s ei => sendOutput s c k gr ei) s1
      .done s2 { (s2.core c) with bound := [] }.advance

/-- SEQ_LOOP (R101, R102): the next imm[5:0] words run dim0 times. -/
def seqLoop (s : State) (c : Nat) (w : IWord) : SeqRes :=
  let k := s.core c
  .done s
    { k with
      pc := k.pc + 1
      loops := { first := k.pc + 1, len := bitsN w.imm 5 0, total := w.dim0, strideA := w.dim1, strideO := w.dim2 } :: k.loops }

/-- SEQ_BARRIER (R102). -/
def seqBarrier (s : State) (c : Nat) (_ : IWord) : SeqRes :=
  if (s.core c).queuesEmpty then .done s (s.core c).advance else .wait

/-- The counts that the first pass of a slot's frame ended with (R66). -/
def Slot.firstCounts (x : Slot) : FitCounts := x.first.getD x.counts

/-- SEQ_FIT_CHECK: once the first pass has ended (its engines' queues are empty; log 16) it reports whether the station
crosses, and waits (R63, R103). -/
def seqFitCheck (s : State) (c : Nat) (_ : IWord) : SeqRes :=
  let k := s.core c
  if k.queuesEmpty then
    let sl := tblGet {} k.slots k.slot
    let s1 := s.modFrame k.graph k.frame fun fr =>
      { fr with reports := fr.reports ++ [(sl.widenGroup, k.copy, k.station, sl.counts.crosses sl.ratio)] }
    .done s1 { k with waitDecision := true, slots := tblMod {} k.slots k.slot (fun x => { x with first := some x.counts }) }
  else .wait

/-- The last-frame registers and the drift run of a slot at SEQ_END (R66, R71, R104). -/
def Slot.endPass (x : Slot) : Slot :=
  { x with last := x.counts
           drift := if x.firstCounts.crosses x.ratio then min 63 (x.drift + 1) else 0 }

/-- R71: CALIB_DRIFT when a run reaches 32. -/
def logDrift (s : State) (c : Nat) (k : CoreState) (old new : Slot) : State :=
  if old.drift = 31 ∧ new.drift = 32 then
    s.log .CALIB_DRIFT (c / 8)
      [k.station, c, new.widenGroup, new.last.sat, new.last.oor, new.last.wrap]
  else s

/-- R61: NAN_SEEN at most once per station per 1,000 frames of its graph. -/
def logNan (s : State) (c : Nat) (k : CoreState) (n : Nat) : State :=
  match s.graph? k.graph with
  | none => s
  | some gr =>
    let prev := gr.nanLogged.find? (fun e => e.1 == k.station && e.2.1 == k.copy)
    let due := match prev with
      | some e => e.2.2 + 1000 ≤ k.frame
      | none => true
    if 0 < n ∧ due = true then
      (s.modGraph k.graph fun gr =>
        { gr with nanLogged := gr.nanLogged.filter (fun e => !(e.1 == k.station && e.2.1 == k.copy)) ++
            [(k.station, k.copy, k.frame)] }).log .NAN_SEEN (c / 8) [k.station, n]
    else s

/-- The lines of the state buffers that a pass wrote in a core or cluster store, read out at SEQ_END (R392). -/
def stateLines (s : State) (gr : Graph) (cd : Card) : List (Nat × Nat × List Byte) :=
  (List.range cd.nOut).flatMap fun j =>
    let e := gr.edge (nth 0xFFFF cd.outEdges j)
    let b := nth {} gr.bundle.buffers e.buffer
    if e.kind = 2 ∧ hbmEnd ≤ b.at_ then
      let work := b.at_ + (if b.committedHigh then 0 else b.bytes)
      (List.range (b.bytes / 128)).map fun i => (j, (work - b.at_) / 128 + i, (s.readMem (work + 128 * i) 128).1)
    else []

/-- R393: under DUPLICATE the station's signature goes to both lanterns at SEQ_END; a fenced core's is dropped. -/
def State.sendSignature (s : State) (c : Nat) (k : CoreState) : State :=
  match s.passCard c with
  | some (gr, cd) =>
    if gr.bundle.header.checking = 1 ∧ ¬ s.coreFenced c then
      let k1 := (stateLines s gr cd).foldl (fun k l => k.sign l.1 [(l.2.1, l.2.2)]) k
      let m (l : Nat) : SigMsg :=
        { lantern := l, graph := k.graph, frame := k.frame, station := k.station, copy := k.copy
          sum := k1.sigSum, lines := k1.sigLines, widened := k.rerun }
      { s with lan := { s.lan with sigs := s.lan.sigs ++ [m 0, m 1] } }
    else s
  | none => s

/-- SEQ_END: the pass ends (once its engines' queues are empty; log 16): counters, drift run and NAN_SEEN, release of the
tiles and pins still held, and the next ready slot (R71, R104, R126, R130, R179). -/
def seqEnd (s : State) (c : Nat) (_ : IWord) : SeqRes :=
  let k := s.core c
  if k.queuesEmpty then
    let sl := tblGet {} k.slots k.slot
    let sl1 := sl.endPass
    let s1 := logNan (logDrift s c k sl sl1) c k sl.counts.nan
    let st := (s.passCard c).map (·.2)
    let s2 := s1.modGraph k.graph fun gr =>
      (gr.modFrame k.frame fun fr =>
        { fr with
          ended := addNew fr.ended (k.station, k.copy)
          stateWritten := match st with
            | some cd => if bitN cd.flags 1 then addNew fr.stateWritten cd.stateBuf else fr.stateWritten
            | none => fr.stateWritten
          codes := if k.poisoned ∧ gr.bundle.header.checking ≠ 0 then addNew fr.codes Status.DATA_POISON else fr.codes }
      ).releaseInputs k.station k.copy k.frame
    let s3 := (s2.unpin k.passPins).sendSignature c k
    .done s3 { (s3.core c).clearPass with run := .IDLE, bound := [], slots := tblSet {} k.slots k.slot sl1 }
  else .wait

/-- An unlisted op code at the PC (R105). -/
def illegalAt (s : State) (c : Nat) (hw : CoreHw) : State :=
  let k := s.core c
  if k.run = .RUNNING ∧ ¬ k.stopped ∧ ¬ k.waitDecision ∧ ¬ opListed k.wordAtPc.op then
    s.abortPass c (if hw = .parity then 9 else 10) 5 0
  else s

/-! ### The widen-group decision (R63 … R69) -/

/-- The cards of a widen group in one copy. -/
def Graph.members (gr : Graph) (group copy : Nat) : List Card :=
  gr.bundle.cards.filter (fun c => c.fitMode == 2 && c.widenGroup == group && gr.cardCopy c == copy)

/-- The clock of a core's cluster in MHz (R24). -/
def State.coreMHz (s : State) (c : Nat) : Nat := 100 * (tblGet {} s.thermal.clocks (c / 4)).step

/-- The member with the lowest station index (R63, R68). -/
def lowestCard : List Card → Option Card
  | [] => none
  | a :: r => match lowestCard r with
    | some b => if b.station < a.station then some b else some a
    | none => some a

/-- R68: whether the slack lets the group re-run, in µs × MHz. -/
def State.slackOk (s : State) (gr : Graph) (fr : Frame) (ms : List Card) (copy : Nat) : Bool :=
  let h := gr.bundle.header
  if h.deadline = 0 then true
  else
    let mhz := ms.foldl (fun a c => min a (s.coreMHz (gr.place c.station copy).core)) 1100
    let start := if h.trigger = 1 then fr.closedAt else fr.openedAt
    match lowestCard ms with
    | none => false
    | some cd =>
      ((s.now : Int) - start + cd.restUs) * mhz + cd.rerunCycles ≤ ((h.deadline : Int) - h.slackGuard) * mhz

/-- A member's core goes on with its re-run program (R64, R103). -/
def CoreState.toRerun (k : CoreState) : CoreState :=
  { k with waitDecision := false, rerun := true, loops := [], bound := [], pc := (tblGet {} k.slots k.slot).rerunStart
           slots := tblMod {} k.slots k.slot (fun x => { x with widenTotal := min (x.widenTotal + 1) 0xFFFFFFFF }) }

/-- A member's core goes on with its main program; `skip` counts a crossing that is not re-run (R69). -/
def CoreState.toRelease (k : CoreState) (skip : Bool) : CoreState :=
  { k with waitDecision := false
           slots := tblMod {} k.slots k.slot (fun x =>
             if skip then { x with skippedTotal := min (x.skippedTotal + 1) 0xFFFFFFFF } else x) }

/-- Carry out a decision on one member. -/
def decideMember (f : Nat) (rerun skip : Bool) (copy : Nat) (s : State) (cd : Card) : State :=
  match s.graph? cd.graph with
  | none => s
  | some gr =>
    let c := (gr.place cd.station copy).core
    let k := s.core c
    if k.waitDecision ∧ k.graph = cd.graph ∧ k.frame = f ∧ k.station = cd.station ∧ k.copy = copy then
      if rerun then
        let s1 := s.modGraph cd.graph fun gr =>
          { gr with streams := gr.streams.map fun st =>
              if (gr.edge st.edge).consumer == cd.station && st.copy == copy then
                { st with read := (findIdx? (fun (t : RxTile) => t.frame == f) st.rx).getD st.rx.length }
              else st }
        s1.setCore c (k.toRerun.settle)
      else
        match (k.toRelease skip).post k.wordAtPc with
        | some k1 => s.setCore c k1.advance.settle
        | none => s.abortPass c 11 5 0
    else s

/-- The decision of a group that every member has reported to, when no member is fenced (R63, R72). -/
def decideGroup (s : State) (g f group copy : Nat) : State :=
  match s.graph? g, s.frame? g f with
  | some gr, some fr =>
    let ms := gr.members group copy
    let rs := fr.reports.filter (fun r => r.1 == group && r.2.1 == copy)
    if ms ≠ [] ∧ ms.all (fun m => rs.any (fun r => r.2.2.1 == m.station)) ∧
        ¬ fr.decisions.any (fun d => d.1 == group && d.2.1 == copy) ∧ ¬ fr.withheld ∧
        ms.all (fun m => !s.coreFenced (gr.place m.station copy).core) then
      let crossed := rs.any (fun r => r.2.2.2)
      let rerun := crossed && (gr.bundle.header.policy == 0 || s.slackOk gr fr ms copy)
      let s1 := s.modFrame g f fun fr =>
        { fr with
          decisions := fr.decisions ++ [(group, copy, rerun)]
          widened := if rerun then addNew fr.widened group else fr.widened
          skipped := if crossed && !rerun then addNew fr.skipped group else fr.skipped }
      ms.foldl (decideMember f rerun (crossed && !rerun) copy) s1
    else s
  | _, _ => s

/-- SEQ_NOP (R102). -/
def execSeqNop (core : Fin 32) (hw : CoreHw) (s : State) : Host.Outcome State Fault Refusal :=
  .next (runSeq s core 0xF0 hw seqNop)
/-- SEQ_TOKEN_WAIT (R131). -/
def execSeqTokenWait (core : Fin 32) (hw : CoreHw) (s : State) : Host.Outcome State Fault Refusal :=
  .next (runSeq s core 0xF1 hw seqTokenWait)
/-- SEQ_TOKEN_SEND (R131). -/
def execSeqTokenSend (core : Fin 32) (hw : CoreHw) (s : State) : Host.Outcome State Fault Refusal :=
  .next (runSeq s core 0xF2 hw seqTokenSend)
/-- SEQ_LOOP (R101). -/
def execSeqLoop (core : Fin 32) (hw : CoreHw) (s : State) : Host.Outcome State Fault Refusal :=
  .next (runSeq s core 0xF3 hw seqLoop)
/-- SEQ_BARRIER (R102). -/
def execSeqBarrier (core : Fin 32) (hw : CoreHw) (s : State) : Host.Outcome State Fault Refusal :=
  .next (runSeq s core 0xF4 hw seqBarrier)
/-- SEQ_FIT_CHECK (R103). -/
def execSeqFitCheck (core : Fin 32) (hw : CoreHw) (s : State) : Host.Outcome State Fault Refusal :=
  .next (runSeq s core 0xF5 hw seqFitCheck)
/-- SEQ_END (R104). -/
def execSeqEnd (core : Fin 32) (hw : CoreHw) (s : State) : Host.Outcome State Fault Refusal :=
  .next (runSeq s core 0xF6 hw seqEnd)
/-- ILLEGAL_OP (R105). -/
def execIllegalOp (core : Fin 32) (hw : CoreHw) (s : State) : Host.Outcome State Fault Refusal :=
  .next (illegalAt s core hw)
/-- WIDEN_DECISION (R63). -/
def execWidenDecision (graph : Fin 64) (frame group copy : Nat) (s : State) : Host.Outcome State Fault Refusal :=
  .next (decideGroup s graph frame group copy)

end Sys2Proof.Machine
end

