-- ==== Sys2Proof/Machine/HostOps.lean ====
section
/-! DEFINITION. Shared operations of the host link: rings and their room (R244, R249), the packet a front end works on
(R247), completions (R253, R254, R272), and packets of several entries (R173, R264). -/

namespace Sys2Proof.Machine

/-! ### Rings -/

/-- The key of a ring. -/
def ringKey (link ring : Nat) : Nat := link * 64 + ring
/-- A submission ring. -/
def State.sq (s : State) (link q : Nat) : SqState := tblGet {} s.hif.sqs (ringKey link q)
/-- Change a submission ring. -/
def State.modSq (s : State) (link q : Nat) (f : SqState → SqState) : State :=
  { s with hif := { s.hif with sqs := tblMod {} s.hif.sqs (ringKey link q) f } }
/-- A completion ring. -/
def State.cq (s : State) (link q : Nat) : CqState := tblGet {} s.hif.cqs (ringKey link q)
/-- Change a completion ring. -/
def State.modCq (s : State) (link q : Nat) (f : CqState → CqState) : State :=
  { s with hif := { s.hif with cqs := tblMod {} s.hif.cqs (ringKey link q) f } }

/-- Units of a ring by its CFG register (R244). -/
def ringUnits (cfg : Word) : Nat := 2 ^ (bits cfg 20 16 - 6)
/-- Units of a submission ring. -/
def State.sqUnits (s : State) (link q : Nat) : Nat := ringUnits (s.reg (ra .HIF_SQ_CFG link q))
/-- Units of a completion ring. -/
def State.cqUnits (s : State) (link q : Nat) : Nat := ringUnits (s.reg (ra .HIF_CQ_CFG link q))

/-- The parts of a chained completion are still going out: nothing else enters the ring (R254). -/
def CqState.midChain (r : CqState) : Bool := match r.queue with
  | c :: _ => c.part != 0
  | [] => false

/-- Units that a completion ring can still take: a ring holds at most its size minus one unit. -/
def State.cqRoom (s : State) (link q : Nat) : Nat :=
  let n := s.cqUnits link q
  let r := s.cq link q
  (r.head + n - 1 - r.tail % n) % n

/-- A link whose rings can move packets (R238, R274). -/
def State.linkRuns (s : State) (link : Nat) : Bool :=
  let l := s.link link
  l.up && !l.d3hot && !l.lost && s.hif.hostReady

/-- The CQ that a submission ring names (R244). -/
def State.sqCq (s : State) (link q : Nat) : Nat := s.field (ra .HIF_SQ_CFG link q) 5 0

/-- A completion ring that a pool uses as its archive ring (R190). -/
def State.isArchiveRing (s : State) (link q : Nat) : Bool :=
  s.cache.pools.any (fun e => e.2.exists_ && e.2.archiveLink == link && e.2.archiveRing == q)

/-- The ring's notice bit (R267, R275). -/
def State.isNoticeRing (s : State) (link q : Nat) : Bool :=
  let r := s.reg (ra .HIF_NOTICE_RING link)
  r.getLsbD 31 && bits r 5 0 == q

/-! ### Completions (R253, R272) -/

/-- The units of a completion (R253). -/
def Completion.units (c : Completion) : Nat := 1 + (c.payload.length + 63) / 64

/-- R253, R254: the parts a payload is written in: 1,025 units each. -/
def partBytes : Nat := 1025 * 64

/-- One packet of a ring has completed and needs no further completion (R268). -/
def State.settleSq (s : State) (link sq : Nat) : State :=
  if sq = 0xFF then s else s.modSq link sq (fun q => { q with outstanding := q.outstanding - 1 })

/-- Queue a completion on its CQ; on a link that is lost or a CQ that is not enabled it is discarded, and so is that of a packet
that was taken before a Function Level Reset of its link (R239, R257). -/
def State.complete (s : State) (c : Completion) : State :=
  if c.sq ≠ 0xFF ∧ c.epoch ≠ (s.link c.link).epoch then s
  else if (s.cq c.link c.cq).enabled ∧ ¬ (s.link c.link).lost then s.modCq c.link c.cq (fun q => { q with queue := q.queue ++ [c] })
  else s.settleSq c.link c.sq

/-- The type code of a packet (R252). -/
def Packet.type (p : Packet) : Nat := leAt p.header 0 1
/-- The tag of a packet (R252). -/
def Packet.tag (p : Packet) : Nat := leAt p.header 4 4
/-- The units of a packet (R252). -/
def Packet.units (p : Packet) : Nat := 1 + leAt p.header 2 2
/-- The order flag (R252). -/
def Packet.order (p : Packet) : Bool := bitN (leAt p.header 1 1) 0
/-- The quiet flag (R252). -/
def Packet.quiet (p : Packet) : Bool := bitN (leAt p.header 1 1) 1

/-- Packets whose completion carries a result, and which ignore quiet (R252, R255): frames, TENSOR_GET, MAP_EDITION,
PLAN_REQ, CACHE_OP with a QUERY, MGMT and ATTEST. -/
def Packet.hasResult (p : Packet) : Bool :=
  [0x02, 0x04, 0x05, 0x06, 0x07, 0x0D, 0x0E].contains p.type || !p.records.isEmpty

/-- Complete a packet that has been taken (R252, R253). -/
def State.finish (s : State) (p : Packet) (status : Nat) (result payload : List Byte := []) : State :=
  if p.epoch ≠ (s.link p.link).epoch then s
  else if p.quiet ∧ status = Status.OK ∧ ¬ p.hasResult then s.settleSq p.link p.sq
  else
    s.complete { kind := 0x80, link := p.link, cq := s.sqCq p.link p.sq, tag := p.tag, status := status
                 cmdType := p.type, sq := p.sq, result := result, payload := payload, epoch := p.epoch }

/-! ### The packet that a ring works on (R247) -/

/-- The packet that a ring has read and checked and that has not started. -/
def State.front (s : State) (link sq : Nat) : Option Packet := (s.sq link sq).taken.head?

/-- The packet has been taken: the head moves past it (R247). -/
def State.take (s : State) (p : Packet) : State :=
  (s.modSq p.link p.sq fun q =>
    { q with taken := q.taken.drop 1, head := (q.head + p.units) % s.sqUnits p.link p.sq, run := .IDLE, heldType := 0
             outstanding := q.outstanding + 1 }).wrapReg (ra .HIF_PKTS_IN p.link)

/-- Take a packet and complete it at once. -/
def State.takeFinish (s : State) (p : Packet) (status : Nat) (result payload : List Byte := []) : State :=
  (s.take p).finish p status result payload

/-- The packet holds its ring (R247, R275). -/
def State.hold (s : State) (p : Packet) : State :=
  s.modSq p.link p.sq fun q => { q with run := .HELD, heldType := p.type }

/-- Change the packet at the front of a ring. -/
def State.modFront (s : State) (link sq : Nat) (f : Packet → Packet) : State :=
  s.modSq link sq fun q => { q with taken := match q.taken with
    | [] => []
    | p :: r => f p :: r }

/-- The bytes of a list from an offset on are all 0. -/
def zeroFrom (bs : List Byte) (o n : Nat) : Bool := ((bs.drop o).take n).all (· == 0)

/-- R252: what every header keeps to: its reserved bits and bytes are 0. -/
def Packet.headerOk (p : Packet) : Bool := leAt p.header 1 1 < 4 && zeroFrom p.header 8 8

/-- Unused argument bytes from `o` on are 0, and the packet has no payload (R252, R255). -/
def Packet.argsOnly (p : Packet) (o : Nat) : Bool := zeroFrom p.header o (64 - o) && p.payload.isEmpty

/-! ### Packets of several entries: CACHE_OP (R173) and CONFIG (R264) -/

/-- The entries of a CACHE_OP (16 B block, then 64 B each, at most 1,023) or a CONFIG packet (16 B each); `none` when the
count does not agree with the payload. -/
def Packet.entries (p : Packet) : Option (List (List Byte)) :=
  if p.type = 0x08 then
    let n := leAt p.payload 0 2
    if n ≤ 1023 ∧ (n = 0 ∨ 16 + 64 * n ≤ p.payload.length) ∧ zeroFrom p.payload 2 14 ∧
        zeroFrom p.payload (16 + 64 * n) p.payload.length ∧ zeroFrom p.header 16 48 then
      some ((List.range n).map fun i => (p.payload.drop (16 + 64 * i)).take 64)
    else none
  else
    let n := leAt p.header 16 2
    if 16 * n ≤ p.payload.length ∧ zeroFrom p.payload (16 * n) p.payload.length ∧ zeroFrom p.header 18 46 then
      some ((List.range n).map fun i => (p.payload.drop (16 * i)).take 16)
    else none

/-- The entry that is next, when the front packet of a ring has entries. -/
def State.nextEntry (s : State) (link sq type : Nat) : Option (Packet × List Byte) :=
  match s.front link sq with
  | some p => if p.type = type then
      match p.entries with
      | some es => es[p.doneOps]?.map (fun e => (p, e))
      | none => none
    else none
  | none => none

/-- R263, R264: the completion of a packet whose entries are all done. -/
def State.finishEntries (s : State) (p : Packet) : State :=
  let worst := combineStatus (p.statuses.map (·.2))
  let body : List Byte :=
    if p.type = 0x08 then
      let failed := (p.statuses.filter (fun e => e.2 ≠ 0)).length
      let head := toLe 2 p.statuses.length ++ toLe 2 failed ++ toLe 12 0 ++
        p.statuses.flatMap (fun e => toLe 1 e.1 ++ toLe 1 0 ++ toLe 2 e.2)
      if p.records.isEmpty then head else padTo (up64 head.length) head ++ p.records
    else p.statuses.flatMap (fun e => toLe 2 e.2)
  s.takeFinish p worst [] body

/-- R264: a CONFIG item with a code that is not listed, or a byte that must be 0 and is not. The layout of a CACHE_OP's
64 B entries is not in the manual (log 21). -/
def entryUnknown (type : Nat) (e : List Byte) : Bool :=
  if type = 0x08 then false
  else (leAt e 0 2 = 0 || 6 < leAt e 0 2 || leAt e 3 1 != 0 || leAt e 6 2 != 0 || leAt e 12 4 != 0)

/-- Record the status of the next entry of the front packet (and a QUERY record); unlisted entries that follow complete
BAD_PACKET, and the packet completes after its last entry. -/
def State.endEntry (s : State) (link sq type code status : Nat) (record : List Byte) : Nat → State
  | 0 => s
  | n + 1 =>
    let s1 := s.modFront link sq fun p =>
      { p with doneOps := p.doneOps + 1, statuses := p.statuses ++ [(code, status)], records := p.records ++ record }
    match s1.nextEntry link sq type with
    | some (_, e) =>
      if entryUnknown type e then s1.endEntry link sq type (leAt e 0 2) Status.BAD_PACKET [] n else s1
    | none =>
      match s1.front link sq with
      | some p => s1.finishEntries p
      | none => s1

/-- A payload holds at most 4,100 entries of 16 B (R252). -/
def entryFuel : Nat := 4101

/-! ### Writing to a ring (R248, R269) -/

/-- The header of a completion (R253). -/
def completionHeader (s : State) (c : Completion) (units part : Nat) (more : Bool) : List Byte :=
  toLe 1 c.kind ++ toLe 1 c.link ++ toLe 2 units ++ toLe 4 c.tag ++ toLe 2 c.status ++ toLe 1 c.cmdType ++ toLe 1 c.sq ++
  toLe 4 (if c.sq = 0xFF then 0 else (s.sq c.link c.sq).head) ++ toLe 8 (s.mgtTime % 2 ^ 48) ++ toLe 4 c.frame ++
  toLe 1 c.graph ++ toLe 1 part ++ toLe 1 (b2n more) ++ toLe 1 0 ++ padTo 32 c.result

/-- The host address of a unit of a completion ring. -/
def State.cqAddr (s : State) (link q unit : Nat) : Nat :=
  bits (s.reg (ra .HIF_CQ_BASE_LO link q)) 31 12 * 4096 + (s.reg (ra .HIF_CQ_BASE_HI link q)).toNat * 2 ^ 32 +
  64 * (unit % s.cqUnits link q)

/-- Write payload units to the ring, one host write each, from a unit index on. -/
def State.writeUnits (s : State) (link q unit : Nat) (bs : List Byte) : State :=
  { s with outputs := s.outputs ++ (List.range (bs.length / 64)).map fun i =>
      .hostWrite link (s.cqAddr link q (unit + i)) ((bs.drop (64 * i)).take 64) }

/-- The status line of a completion ring (R248). -/
def State.writeStatusLine (s : State) (link q : Nat) : State :=
  let r := s.cq link q
  s.emit (.hostWrite link ((s.reg (ra .HIF_CQ_STAT_LO link q)).toNat + (s.reg (ra .HIF_CQ_STAT_HI link q)).toNat * 2 ^ 32)
    (toLe 4 r.tail ++ toLe 4 r.written ++ toLe 8 (s.mgtTime % 2 ^ 48) ++ toLe 48 0))

/-- R269: a completion counts towards the ring's interrupt; the count trigger raises its vector. -/
def State.countIrq (s : State) (link q : Nat) : State :=
  let m := s.reg (ra .HIF_CQ_MOD link q)
  let n := (s.cq link q).unsignalled + 1
  if bits m 7 0 ≠ 0 ∧ bits m 7 0 ≤ n then
    (s.modCq link q fun r => { r with unsignalled := 0, firstAt := none }).msix link (s.field (ra .HIF_CQ_CFG link q) 5 0)
  else s.modCq link q fun r => { r with unsignalled := n, firstAt := r.firstAt.orElse fun _ => some s.now }

/-- Write one packet to a completion ring that has room for it: payload first, header last, then the status line and,
after the last part, the interrupt (R248, R254, R269). -/
def State.writePart (s : State) (c : Completion) (body : List Byte) (part : Nat) (more : Bool) : State :=
  let units := (body.length + 63) / 64
  let padded := padTo (64 * units) body
  let t := (s.cq c.link c.cq).tail
  let s1 := s.writeUnits c.link c.cq (t + 1) padded
  let s2 := s1.writeUnits c.link c.cq t (completionHeader s1 c units part more)
  let s3 := s2.modCq c.link c.cq fun r =>
    { r with tail := (t + 1 + units) % s.cqUnits c.link c.cq, written := (r.written + 1) % 2 ^ 32 }
  let s4 := (s3.writeStatusLine c.link c.cq).wrapReg (ra .HIF_PKTS_OUT c.link)
  let s5 := if c.status / 256 = 2 ∧ ¬ more then s4.satReg (ra .HIF_REJECTS c.link) else s4
  if more then s5 else s5.countIrq c.link c.cq

/-! ### Hub dies (R419) -/

/-- A hub die has failed: its link is lost until the next package reset (R245, R419). -/
def State.loseHub (s : State) (h : Nat) : State := s.modLink h fun l => { l with up := false, lost := true }

end Sys2Proof.Machine
end

