-- ==== Sys2Proof/Machine/CoreEvents.lean ====
section
/-! DEFINITION. Events of a core outside its instructions: the storm rule, the scrubbers, the core reset and the clears of
the fit-monitor totals (R93 … R95, R105, R109, R111). -/

namespace Sys2Proof.Machine

/-- The limit of R105: corrected errors of one bank within 1 s. -/
def ceStormLimit : Nat := 64

/-- R105: more than 64 corrected errors in one bank within 1 s: CORE_CE_STORM and a targeted self-test; the bank's count
starts anew. -/
def ceStorm (s : State) (c bank : Nat) : State :=
  let k := s.core c
  if ceStormLimit < tblGet 0 k.ceBank bank ∧ s.now ≤ k.ceSince + 1000000 then
    ((s.setCore c { k with ceBank := tblSet 0 k.ceBank bank 0 }).log .CORE_CE_STORM (c / 8) [c, bank]).askTest c 4
  else s

/-- The core that reports for a cluster's scrubber: its lowest-numbered core that is not fenced (R94). -/
def State.clusterReporter (s : State) (c : Nat) : Option Nat :=
  ((List.range 4).map (fun i => c / 4 * 4 + i)).find? (fun x => !s.coreFenced x)

/-- A corrected error found by a scrubber: counted with the core that reports it (R93, R94, R105). -/
def State.scrubCe (s : State) (c engine bank : Nat) : State :=
  let s1 := (s.satReg (ra .CORE_CE_COUNT c)).raise .CORE c 0 (engine * 256)
  s1.modCore c fun k =>
    if s.now ≤ k.ceSince + 1000000 then { k with ceBank := tblMod 0 k.ceBank bank (· + 1) }
    else { k with ceBank := tblSet 0 [] bank 1, ceSince := s.now }

/-- One line of a scrubber: `base` the store, `line` the line, `rep` the core that reports, `engine` 6 or 7. -/
def scrubLine (s : State) (base line rep engine : Nat) (hw : CoreHw) : State :=
  match hw with
  | .ce _ => s.scrubCe rep engine (line % 64)
  | .ue _ => (s.markPoison (base + 128 * line) 128 true).storeUe rep engine line
  | _ => if s.rangePoison (base + 128 * line) 128 then s.storeUe rep engine line else s

/-- CORE_SCRUB: the core's scrubber, or its cluster's, reads its next line; the last line of a store ends a pass (R94). -/
def scrub (s : State) (c : Nat) (cluster : Bool) (hw : CoreHw) : State :=
  if cluster then
    let low := c / 4 * 4
    match s.clusterReporter c with
    | none => s
    | some rep =>
      let line := (s.core low).clusterLine
      (scrubLine s (clusterBase c) line rep 7 hw).modCore low fun k => { k with clusterLine := (line + 1) % storeLines }
  else
    let k := s.core c
    if k.run = .RESET then s
    else
      let s1 := (scrubLine s (coreBase c) k.scrubLine c 6 hw).modCore c fun x =>
        { x with scrubLine := (k.scrubLine + 1) % storeLines }
      if k.scrubLine + 1 = storeLines then s1.wrapReg (ra .CORE_SCRUB_STATUS c) else s1

/-- Every byte of a store becomes 0 with its poison cleared (R95). -/
def State.zeroStore (s : State) (base : Nat) : State :=
  { s with mem := s.mem.filter (fun e => e.1 < base || base + storeBytes ≤ e.1)
           storePoison := clearKeys s.storePoison (base / 128) storeLines }

/-- What a core reset leaves of a core (R73, R95, R111, R418). -/
def CoreState.resetCore (k : CoreState) : CoreState :=
  { k.clearPass with
    run := .IDLE, testHold := false, stopped := false, slots := [], ready := [], active := none, loading := none
    sent := [], bound := [], poisoned := false, scrubLine := 0, slot := 0, pc := 0 }

/-- Reset one core: its running pass is lost, its store is zeroed, its slots, flags and queues are cleared. -/
def State.resetCore (s : State) (c : Nat) : State :=
  let k := s.core c
  let s1 := if k.run = .RUNNING then s.withhold k.graph k.frame Status.INVALID else s
  let k1 := s1.core c
  (((s1.unpin (k1.passPins ++ k1.ready.flatMap (·.pins))).zeroStore (coreBase c)).modCore c CoreState.resetCore)

/-- The slot whose fit registers a side sees: the host and the management processor each have their own copy of
CORE_FIT_SEL (R109). -/
def State.fitSel (s : State) (c : Nat) (mgmt : Bool) : Nat := s.field (ra .CORE_FIT_SEL c (b2n mgmt)) 3 0

/-- CORE_CE_STORM (R105). -/
def execCoreCeStorm (core : Fin 32) (bank : Nat) (s : State) : Host.Outcome State Fault Refusal :=
  .next (ceStorm s core bank)
/-- CORE_SCRUB (R94). -/
def execCoreScrub (core : Fin 32) (cluster : Bool) (hw : CoreHw) (s : State) : Host.Outcome State Fault Refusal :=
  .next (scrub s core cluster hw)
/-- CORE_RESET (R95). -/
def execCoreReset (core : Fin 32) (s : State) : Host.Outcome State Fault Refusal :=
  .next (s.resetCore core)
/-- CORE_FIT_CLEAR_WIDEN: bit 0 of CORE_FIT_CLEAR (R109). -/
def execCoreFitClearWiden (core : Fin 32) (mgmt : Bool) (s : State) : Host.Outcome State Fault Refusal :=
  .next (s.modCore core fun k =>
    { k with slots := tblMod {} k.slots (s.fitSel core mgmt) (fun x => { x with widenTotal := 0 }) })
/-- CORE_FIT_CLEAR_SKIPPED: bit 1 of CORE_FIT_CLEAR (R109). -/
def execCoreFitClearSkipped (core : Fin 32) (mgmt : Bool) (s : State) : Host.Outcome State Fault Refusal :=
  .next (s.modCore core fun k =>
    { k with slots := tblMod {} k.slots (s.fitSel core mgmt) (fun x => { x with skippedTotal := 0 }) })

end Sys2Proof.Machine
end

