-- ==== Sys2Proof/Machine/Bundle.lean ====
section
/-! DEFINITION. The bundle image: reading it (R112, R113, R120, R122, R510 … R512) and the checks of GRAPH_LOAD on its
header, cards, edges, buffers, weights, initial values, placement, fold rules and forecast (R45 … R47, R57, R59, R62, R70,
R113, R120 … R123, R132, R394). -/

namespace Sys2Proof.Machine

/-! ### Reading -/

/-- An image as a reader: bytes at an offset. -/
abbrev Img := Nat → Nat → List Byte

/-- A little-endian field of an image. -/
def Img.le (m : Img) (o n : Nat) : Nat := ofLe (m o n)
/-- The bytes of a range are all 0. -/
def Img.zero (m : Img) (o n : Nat) : Bool := (m o n).all (· == 0)

/-- Offset and length of a section (R510). -/
def Img.section_ (m : Img) (i : Nat) : Nat × Nat := (m.le (128 + 8 * i) 4, m.le (132 + 8 * i) 4)

/-- The graph header (R113, R510). -/
def Img.header (m : Img) : GraphHeader :=
  { stations := m.le 64 2, edges := m.le 66 2, buffers := m.le 68 2, trigger := m.le 70 1, safety := m.le 71 1
    checking := m.le 72 1, copies := m.le 73 1, policy := m.le 74 1, slackGuard := m.le 76 2, deadline := m.le 80 4
    timeoutMs := m.le 84 4, inFlight := m.le 88 1, period := m.le 92 4, kvHeads := m.le 96 1, headDim := m.le 97 1
    attnFmt := m.le 98 1 }

/-- A task card at an offset (R120). -/
def Img.card (m : Img) (o : Nat) : Card :=
  { station := m.le o 2, graph := m.le (o + 2) 1, flags := m.le (o + 3) 1, rank := m.le (o + 4) 2
    fitMode := m.le (o + 6) 1, slot := m.le (o + 7) 1, core := m.le (o + 8) 2, widenGroup := m.le (o + 10) 2
    progStart := m.le (o + 12) 2, progLen := m.le (o + 14) 2, passTimeout := m.le (o + 16) 4, fitRatio := m.le (o + 20) 4
    energy := m.le (o + 24) 4, rerunCycles := m.le (o + 28) 4, restUs := m.le (o + 32) 4, stagingLine := m.le (o + 36) 4
    stagingLines := m.le (o + 40) 4, nIn := m.le (o + 44) 1, nOut := m.le (o + 45) 1, stateBuf := m.le (o + 46) 2
    inEdges := (List.range 10).map (fun i => m.le (o + 48 + 2 * i) 2)
    outEdges := (List.range 10).map (fun i => m.le (o + 68 + 2 * i) 2)
    alts := (List.range 3).map (fun i => m.le (o + 88 + 2 * i) 2), altStreamed := m.le (o + 94) 1
    weightBytes := m.le (o + 96) 4, weightOffset := m.le (o + 100) 4, rerunStart := m.le (o + 104) 2
    rerunLen := m.le (o + 106) 2 }

/-- An edge entry at an offset (R122). -/
def Img.edge (m : Img) (o : Nat) : Edge :=
  { kind := m.le o 1, fmt := m.le (o + 1) 1, producer := m.le (o + 2) 2, consumer := m.le (o + 4) 2
    depth := m.le (o + 6) 1, foldDepth := m.le (o + 7) 1, slotBytes := m.le (o + 8) 4, frameTiles := m.le (o + 12) 4
    rxLine := m.le (o + 16) 4, buffer := m.le (o + 20) 2 }

/-- A buffer entry at an offset (R511). -/
def Img.buffer (m : Img) (o : Nat) : Buffer :=
  { addr := m.le o 8, bytes := m.le (o + 8) 8, home := m.le (o + 16) 1, alt := m.le (o + 17) 1
    isState := m.le (o + 18) 1 % 2 == 1, initOffset := m.le (o + 20) 4, altAddr := m.le (o + 24) 8, at_ := m.le o 8 }

/-- A store-map entry at an offset (R512). -/
def Img.mapEntry (m : Img) (o : Nat) : MapEntry :=
  { core := m.le o 2, owner := m.le (o + 2) 2, copy := m.le (o + 4) 1, kind := m.le (o + 5) 1, store := m.le (o + 6) 1
    level := m.le (o + 7) 1, line := m.le (o + 8) 4, lines := m.le (o + 12) 4 }

/-- The fold records from an offset up to an end (R512). -/
def Img.foldRecs (m : Img) (o e : Nat) : Nat → List FoldRec
  | 0 => []
  | n + 1 =>
    if e < o + 16 then []
    else
      let k := m.le (o + 10) 2
      { station := m.le o 2, copy := m.le (o + 2) 1, level := m.le (o + 3) 1, slot := m.le (o + 4) 1
        progStart := m.le (o + 6) 2, rerunStart := m.le (o + 8) 2
        map := (List.range k).map (fun i => m.mapEntry (o + 16 + 16 * i)) } :: m.foldRecs (o + 16 + 16 * k) e n

/-- A forecast entry at an offset (R512). -/
def Img.forecast (m : Img) (o : Nat) : Forecast :=
  { station := m.le o 2, copy := m.le (o + 2) 1, energy := m.le (o + 4) 4, passCycles := m.le (o + 8) 4
    fireUs := m.le (o + 12) 4 }

/-- The words from an offset (R99, R512). -/
def Img.words (m : Img) (o n : Nat) : List (BitVec 128) :=
  (List.range n).map fun i => BitVec.ofNat 128 (m.le (o + 16 * i) 16)

/-- The programs of the cards in order: main and re-run words with no gaps (R512). -/
def Img.programs (m : Img) : Nat → List Card → List (List (BitVec 128) × List (BitVec 128))
  | _, [] => []
  | o, c :: r =>
    (m.words o c.progLen, m.words (o + 16 * c.progLen) c.rerunLen) :: m.programs (o + 16 * (c.progLen + c.rerunLen)) r

/-- Cards of a bundle: one per station and copy (R113, R512). -/
def GraphHeader.cardCount (h : GraphHeader) : Nat := h.stations * h.copies

/-- The whole bundle as the image spells it. -/
def Img.bundle (m : Img) : Bundle :=
  let h := m.header
  let at_ (i : Nat) := (m.section_ i).1
  let cards := (List.range h.cardCount).map fun i => m.card (at_ 1 + 128 * i)
  { header := h, cards := cards, programs := m.programs (at_ 2) cards
    edges := (List.range h.edges).map (fun i => m.edge (at_ 3 + 32 * i))
    buffers := (List.range h.buffers).map (fun i => m.buffer (at_ 4 + 32 * i))
    storeMap := (List.range ((m.section_ 7).2 / 16)).map (fun i => m.mapEntry (at_ 7 + 16 * i))
    folds := m.foldRecs (at_ 8) (at_ 8 + (m.section_ 8).2) (3 * h.cardCount + 1)
    forecasts := (List.range h.cardCount).map (fun i => m.forecast (at_ 9 + 16 * i))
    inline := (List.range 16).map (fun i => m.le (208 + 2 * i) 2)
    weightsOff := at_ 5, initOff := at_ 6, initLen := (m.section_ 6).2 }

/-! ### Failures (R117) -/

/-- The first failure of a GRAPH_LOAD: its status, where TDE_LOAD_ERR places it, and the event it logs. -/
structure LoadFail where
  status : Nat
  sec : Nat := 0
  entry : Nat := 0
  fenceKind : Nat := 0
  fenceIndex : Nat := 0
  digest : Bool := false
  policy : Bool := false
  deriving DecidableEq, Repr

/-- TDE_LOAD_ERR (R153). -/
def LoadFail.code (f : LoadFail) : Nat :=
  f.sec * 2 ^ 28 + f.fenceKind * 2 ^ 26 + f.fenceIndex * 2 ^ 21 + f.entry % 65536

/-- The status of the first condition that holds. -/
def firstBadStatus (l : List (Bool × Nat)) : Option Nat := (l.find? (·.1)).map (·.2)

/-- A condition that refuses with BAD_PACKET. -/
def bad (c : Bool) : Bool × Nat := (c, Status.BAD_PACKET)
/-- A condition that refuses with ZERO_FIELD. -/
def zeroF (c : Bool) : Bool × Nat := (c, Status.ZERO_FIELD)

/-- A status at an entry of a section. -/
def failAt (sec entry : Nat) (r : Option Nat) : Option LoadFail := r.map fun st => { status := st, sec := sec, entry := entry }

/-! ### Section 0: the header (R113, R510) -/

/-- The checks of the graph header's fields in ascending byte offset (R113). -/
def headerChecks (m : Img) (h : GraphHeader) : List (Bool × Nat) :=
  [zeroF (h.stations = 0), bad (512 < h.stations), zeroF (h.edges = 0), bad (4096 < h.edges), bad (1024 < h.buffers),
   bad (1 < h.trigger), bad (1 < h.safety), bad (2 < h.checking), bad (h.checking = 0 && h.safety = 1),
   bad (h.copies ≠ (if h.checking = 1 then 2 else 1)), bad (1 < h.policy)] ++
  [bad (!m.zero 75 1), bad (!m.zero 78 2), bad (10000000 < h.deadline), zeroF (h.deadline = 0 && h.safety = 1),
   zeroF (h.timeoutMs = 0), bad (60000 < h.timeoutMs), zeroF (h.inFlight = 0), bad (4 < h.inFlight), bad (!m.zero 89 3),
   zeroF (h.period = 0), bad (h.period < 1000 || 1000000 < h.period), bad (64 < h.kvHeads)] ++
  [bad (7 < h.headDim || (h.kvHeads = 0 && h.headDim ≠ 0)),
   bad (if h.kvHeads = 0 then h.attnFmt ≠ 0 else h.attnFmt ≠ 5 && h.attnFmt ≠ 6 && h.attnFmt ≠ 7), bad (!m.zero 99 29)]

/-- R510: the section table. -/
def sectionChecks (m : Img) (len : Nat) : List (Bool × Nat) :=
  bad (m.section_ 0 ≠ (0, 4096)) :: (List.range 10).map fun i =>
    let (o, n) := m.section_ i
    bad (o % 4096 ≠ 0 || len < o + n || (0 < i && o < (m.section_ (i - 1)).1 + (m.section_ (i - 1)).2))

/-- The section lengths that the counts of the header fix. -/
def lengthChecks (m : Img) (b : Bundle) : List (Bool × Nat) :=
  let h := b.header
  let words := b.cards.foldl (fun a c => a + c.progLen + c.rerunLen) 0
  [bad ((m.section_ 1).2 ≠ 128 * h.cardCount), bad ((m.section_ 2).2 ≠ 16 * words), bad ((m.section_ 3).2 ≠ 32 * h.edges),
   bad ((m.section_ 4).2 ≠ 32 * h.buffers), bad ((m.section_ 7).2 % 16 ≠ 0), bad ((m.section_ 9).2 ≠ 16 * h.cardCount)]

/-- The inline outputs name STREAM or BUFFER edges that end at the final hand-over (R510). -/
def inlineChecks (b : Bundle) : List (Bool × Nat) :=
  b.inline.map fun i =>
    let e := nth {} b.edges i
    bad (i ≠ 0xFFFF && (b.edges.length ≤ i || e.kind = 2 || e.consumer ≠ 0xFFFF))

/-- Section 0, fields in ascending byte offset (R117). -/
def headerFail (m : Img) (b : Bundle) (len : Nat) : Option LoadFail :=
  let st := firstBadStatus ([bad (m.le 0 4 ≠ 0x31425642), bad (m.le 4 2 ≠ 1), bad (!m.zero 6 2), bad (!m.zero 40 24)] ++
    headerChecks m b.header ++ [bad (b.header.checking = 1 && b.header.policy = 1)] ++ sectionChecks m len ++
    lengthChecks m b ++ inlineChecks b ++ [bad (!m.zero 240 3856)])
  st.map fun x => { status := x, policy := b.header.checking = 1 && b.header.policy = 1 }

/-! ### Section 1: the cards (R57, R59, R62, R120, R121) -/

/-- The cluster of a core. -/
def clusterOf (c : Nat) : Nat := c / 4

/-- R121: the alternates keep to the level their field names. -/
def altBad (c : Card) : Bool :=
  let a0 := nth 0xFFFF c.alts 0
  let a1 := nth 0xFFFF c.alts 1
  let a2 := nth 0xFFFF c.alts 2
  (a0 ≠ 0xFFFF && (31 < a0 || clusterOf a0 ≠ clusterOf c.core || a0 = c.core)) ||
  (a1 ≠ 0xFFFF && (31 < a1 || a1 / 8 ≠ c.core / 8 || clusterOf a1 = clusterOf c.core)) ||
  (a2 ≠ 0xFFFF && (31 < a2 || a2 / 8 = c.core / 8))

/-- The slot_bytes that R62 sizes a staging area by. -/
def stagingNeed (b : Bundle) (c : Card) : Nat :=
  (c.outEdges.take c.nOut).foldl (fun a i => let e := nth {} b.edges i; if e.kind = 0 then a + e.frameTiles * e.slotBytes else a) 0

/-- Card `i`, fields in ascending byte offset, then the card as a whole. -/
def cardChecks (m : Img) (b : Bundle) (g o i : Nat) (c : Card) : List (Bool × Nat) :=
  let h := b.header
  let widen := c.fitMode = 2
  [bad (c.station ≠ i % max 1 h.stations), bad (c.graph ≠ g), bad (63 < c.flags),
   bad (if h.checking = 1 then c.flags / 32 % 2 ≠ i / max 1 h.stations else h.checking = 0 && c.flags / 32 % 2 ≠ 0),
   bad (511 < c.rank), bad (2 < c.fitMode), bad (15 < c.slot), bad (31 < c.core),
   bad (if widen then 4094 < c.widenGroup else c.widenGroup ≠ 0xFFF), bad (4095 < c.progStart)] ++
  [bad (c.progLen < 1 || 4096 < c.progLen), bad (c.passTimeout < 1 || 1000000 < c.passTimeout),
   bad (c.fitRatio < 256 || 65536 < c.fitRatio), bad (storeLines ≤ c.stagingLine),
   bad (!widen && c.stagingLines ≠ 0), bad (10 < c.nIn), bad (10 < c.nOut),
   bad (c.stateBuf ≠ 0xFFFF && (b.buffers.length ≤ c.stateBuf || !(nth {} b.buffers c.stateBuf).isState)),
   bad (c.flags % 4 ≠ 0 && c.stateBuf = 0xFFFF)] ++
  (List.range 10).map (fun j =>
    let e := nth 0xFFFF c.inEdges j
    bad (if j < c.nIn then b.edges.length ≤ e || (nth {} b.edges e).consumer ≠ c.station else e ≠ 0xFFFF)) ++
  (List.range 10).map (fun j =>
    let e := nth 0xFFFF c.outEdges j
    bad (if j < c.nOut then b.edges.length ≤ e || (nth {} b.edges e).producer ≠ c.station else e ≠ 0xFFFF)) ++
  [bad (altBad c), bad (7 < c.altStreamed), bad (!m.zero (o + 95) 1),
   bad (0 < c.weightBytes && (c.weightOffset < (m.section_ 5).1 ||
     (m.section_ 5).1 + (m.section_ 5).2 < c.weightOffset + c.weightBytes)),
   bad (!widen && c.rerunStart ≠ 0), bad (if widen then c.rerunLen < 1 || 4096 < c.rerunLen else c.rerunLen ≠ 0),
   bad (!m.zero (o + 108) 20)] ++
  [bad (4096 < c.progStart + c.progLen || 4096 < c.rerunStart + c.rerunLen),
   bad (widen && (128 * c.stagingLines < stagingNeed b c || storeLines < c.stagingLine + c.stagingLines))]

/-- Section 1 (R117). -/
def cardsFail (m : Img) (b : Bundle) (g : Nat) : Option LoadFail :=
  (List.range b.cards.length).findSome? fun i =>
    failAt 1 i (firstBadStatus (cardChecks m b g ((m.section_ 1).1 + 128 * i) i (nth {} b.cards i)))

/-! ### Section 3: the edges (R122, R123) -/

/-- A station index, or 0xFFFF for an outside end. -/
def endBad (b : Bundle) (x : Nat) : Bool := x ≠ 0xFFFF && b.header.stations ≤ x

/-- The cards of a station. -/
def Bundle.cardsOf (b : Bundle) (st : Nat) : List Card := b.cards.filter (fun c => c.station == st)

/-- The bytes of a tile of rows × cols elements with groups and scales (R124). -/
def tileBytes (f : Fmt) (rows cols gl sf : Nat) : Nat := 128 + rows * rowBytes f cols + 128 * scaleLines rows cols gl sf

/-- The DM_SENDs of a card's main program on an edge. -/
def Bundle.sends (b : Bundle) (ei : Nat) : List IWord :=
  (b.cards.zip b.programs).flatMap fun x => (x.2.1.map decodeWord).filter fun w =>
    w.op == 0xC2 && w.b < x.1.nOut && nth 0xFFFF x.1.outEdges w.b == ei

/-- R123: a slot is too small for a tile, also in BF16 when the producer is WIDEN. -/
def slotSmall (b : Bundle) (ei : Nat) (e : Edge) : Bool :=
  let widen := (b.cardsOf e.producer).any (fun c => c.fitMode == 2)
  (b.sends ei).any fun w =>
    let cols := if w.dim1 = 0 then 2048 else w.dim1
    let gl := sendGroup w.imm
    let f := (Fmt.ofCode w.fmtA).getD .none
    e.slotBytes < tileBytes f w.dim0 cols gl (bitsN w.imm 3 2) ||
      (widen && e.slotBytes < tileBytes .bf16 w.dim0 cols gl (bitsN w.imm 3 2))

/-- Edge `i`, fields in ascending byte offset, then R123. -/
def edgeChecks (m : Img) (b : Bundle) (o i : Nat) (e : Edge) : List (Bool × Nat) :=
  let stream := e.kind = 0
  [bad (2 < e.kind), bad (e.fmt = 0 || 10 < e.fmt), bad (endBad b e.producer), bad (endBad b e.consumer)] ++
  (if stream then
    [bad (e.depth = 0), bad (e.foldDepth = 0), bad (e.slotBytes % 128 ≠ 0 || e.slotBytes < 256),
     bad (e.frameTiles < 1 || 65535 < e.frameTiles), bad (storeLines ≤ e.rxLine)]
   else
    [bad (b.buffers.length ≤ e.buffer), bad (e.kind = 2 && !(nth {} b.buffers e.buffer).isState)]) ++
  [bad (!m.zero (o + 22) 10), bad (stream && slotSmall b i e),
   bad (stream && (b.cardsOf e.consumer).any (fun c => c.fitMode == 2 && (e.depth < e.frameTiles || e.foldDepth < e.frameTiles)))]

/-- Section 3 (R117). -/
def edgesFail (m : Img) (b : Bundle) : Option LoadFail :=
  (List.range b.edges.length).findSome? fun i =>
    failAt 3 i (firstBadStatus (edgeChecks m b ((m.section_ 3).1 + 32 * i) i (nth {} b.edges i)))

/-! ### Section 4: the buffers (R511) -/

/-- The bytes that a buffer takes at an address: twice its size for a state buffer (R511). -/
def Buffer.span (x : Buffer) : Nat := if x.isState then 2 * x.bytes else x.bytes

/-- A range lies in stack `n`. -/
def inStack (a len n : Nat) : Bool := n * 0x400000000 ≤ a && a + len ≤ (n + 1) * 0x400000000

/-- Buffer `i` (R511). -/
def bufferChecks (m : Img) (o : Nat) (x : Buffer) : List (Bool × Nat) :=
  [bad (x.addr % 128 ≠ 0 || (if x.home = 0xFF then x.addr < hbmEnd || !validRange x.addr x.span
      else !inStack x.addr x.span x.home)),
   bad (x.bytes % 128 ≠ 0 || x.bytes < 128), bad (3 < x.home && x.home ≠ 0xFF),
   bad ((3 < x.alt && x.alt ≠ 0xFF) || (x.alt ≠ 0xFF && x.alt = dieOfAddr x.addr)), bad (1 < m.le (o + 18) 1),
   bad (!m.zero (o + 19) 1), bad (x.initOffset ≠ 0xFFFFFFFF && (m.section_ 6).2 < x.initOffset + x.bytes),
   bad (if x.alt = 0xFF then x.altAddr ≠ 0 else x.altAddr % 128 ≠ 0 || !inStack x.altAddr x.span x.alt)]

/-- Section 4 (R117). -/
def buffersFail (m : Img) (b : Bundle) : Option LoadFail :=
  (List.range b.buffers.length).findSome? fun i =>
    failAt 4 i (firstBadStatus (bufferChecks m ((m.section_ 4).1 + 32 * i) (nth {} b.buffers i)))

/-! ### Sections 5 and 6: weights and initial values (R45 … R47, R394) -/

/-- The status with which the records of one station are refused (R39, R47). -/
def recordsBad (m : Img) (o e : Nat) : Nat → Option Nat
  | 0 => none
  | n + 1 =>
    if e ≤ o then none
    else
      let hb := m o 64
      let h := recHdr hb
      match h.check (m o (max 64 h.recBytes)) with
      | some st => some st
      | none => if h.recBytes = 0 ∨ e < o + h.recBytes then some Status.BAD_PACKET else recordsBad m (o + h.recBytes) e n

/-- Section 5: each card's records (R117). -/
def weightsFail (m : Img) (b : Bundle) : Option LoadFail :=
  (List.range b.cards.length).findSome? fun i =>
    let c := nth {} b.cards i
    failAt 5 i (recordsBad m c.weightOffset (c.weightOffset + c.weightBytes) (c.weightBytes / 64 + 1))

/-- An envelope entry (R394). -/
structure Envelope where
  primary : Nat
  shadow : Nat
  mode : Nat
  fmt : Nat
  tolAbs : F32
  tolRel : F32
  maxOut : Nat
  elements : Nat
  deriving DecidableEq, Repr

/-- The envelope table at the start of section 6 (R394). -/
def Img.envelopes (m : Img) (o : Nat) : List Envelope :=
  (List.range (m.le (o + 4) 2)).map fun i =>
    let p := o + 64 + 32 * i
    { primary := m.le p 2, shadow := m.le (p + 2) 2, mode := m.le (p + 4) 1, fmt := m.le (p + 5) 1
      tolAbs := BitVec.ofNat 32 (m.le (p + 8) 4), tolRel := BitVec.ofNat 32 (m.le (p + 12) 4), maxOut := m.le (p + 16) 4
      elements := m.le (p + 20) 4 }

/-- Bytes of an element of an envelope fmt (R394). -/
def envElem (f : Nat) : Nat := if f < 2 then 1 else if f = 2 then 2 else 4
/-- The declared format that an envelope fmt calls for (R394). -/
def envCode (f : Nat) : Nat := if f < 2 then 2 else if f = 2 then 7 else 9

/-- R394: two edges have the same size. -/
def sameSize (b : Bundle) (x y : Edge) : Bool :=
  x.kind == y.kind && x.fmt == y.fmt && (if x.kind = 0 then x.frameTiles == y.frameTiles && x.slotBytes == y.slotBytes
    else (nth {} b.buffers x.buffer).bytes == (nth {} b.buffers y.buffer).bytes)

/-- The elements an edge can deliver per frame (R394). -/
def edgeCapacity (b : Bundle) (x : Edge) (f : Nat) : Nat :=
  if x.kind = 0 then x.frameTiles * (x.slotBytes - 128) / envElem f else (nth {} b.buffers x.buffer).bytes / envElem f

/-- One envelope entry's checks, in ascending byte offset. -/
def envChecks (m : Img) (b : Bundle) (p : Nat) (x : Envelope) : List (Bool × Nat) :=
  let ep := nth {} b.edges x.primary
  let es := nth {} b.edges x.shadow
  let neg (v : F32) : Bool := fisNaN v || flt v 0
  [bad (b.edges.length ≤ x.primary || ep.consumer ≠ 0xFFFF), bad (b.edges.length ≤ x.shadow || es.consumer ≠ 0xFFFF),
   bad (1 < x.mode), bad (3 < x.fmt || ep.fmt ≠ envCode x.fmt), bad (!m.zero (p + 6) 2), bad (neg x.tolAbs), bad (neg x.tolRel),
   zeroF (x.elements = 0), bad (edgeCapacity b ep x.fmt < x.elements), bad (!m.zero (p + 24) 8), bad (!sameSize b ep es)]

/-- Section 6: under SHADOW it begins with the envelope table (R394). -/
def initsFail (m : Img) (b : Bundle) : Option LoadFail :=
  if b.header.checking = 2 then
    let o := b.initOff
    let n := m.le (o + 4) 2
    if b.initLen < 64 + 32 * n ∨ m.le o 4 ≠ 0x56454E45 ∨ n < 1 ∨ 16 < n ∨ m.zero (o + 6) 58 = false then
      some { status := Status.BAD_PACKET, sec := 6 }
    else
      (List.range n).findSome? fun i =>
        failAt 6 i (firstBadStatus (envChecks m b (o + 64 + 32 * i) (nth
          { primary := 0, shadow := 0, mode := 0, fmt := 0, tolAbs := 0, tolRel := 0, maxOut := 0, elements := 0 }
          (m.envelopes o) i)))
  else none

/-! ### Sections 7, 8 and 9 (R512) -/

/-- A store-map entry by itself. -/
def mapBad (b : Bundle) (level : Nat) (x : MapEntry) : Bool :=
  31 < x.core || (if x.kind = 2 then b.edges.length ≤ x.owner else b.header.stations ≤ x.owner) || 1 < x.copy || 4 < x.kind ||
  1 < x.store || x.level ≠ level || x.lines = 0 || storeLines < x.line + x.lines

/-- The order of section 7: core, store, first line. -/
def mapKey (x : MapEntry) : Nat := (x.core * 2 + x.store) * 2 ^ 32 + x.line

/-- Two entries of one store overlap; cluster stores are one store for their four cores. -/
def mapClash (x y : MapEntry) : Bool :=
  x.store == y.store && (if x.store = 0 then x.core == y.core else clusterOf x.core == clusterOf y.core) &&
  x.line < y.line + y.lines && y.line < x.line + x.lines

/-- Some pair of entries of a list overlaps. -/
def anyClash : List MapEntry → Bool
  | [] => false
  | x :: r => r.any (mapClash x) || anyClash r

/-- R123, R512: an entry repeats what the card or edge holds: core, staging area, receive buffer. -/
def mapDisagrees (b : Bundle) (x : MapEntry) : Bool :=
  let st := if x.kind = 2 then (nth {} b.edges x.owner).consumer else x.owner
  (b.cards.filter (fun c => c.station == st && (b.header.checking ≠ 1 || c.flags / 32 % 2 == x.copy))).any fun c =>
    c.core ≠ x.core || (x.kind = 1 && (c.stagingLine ≠ x.line || c.stagingLines ≠ x.lines)) ||
    (x.kind = 2 && ((nth {} b.edges x.owner).rxLine ≠ x.line || 128 * x.lines < (nth {} b.edges x.owner).depth * (nth {} b.edges x.owner).slotBytes))

/-- Section 7 (R117, R512). -/
def mapFail (b : Bundle) : Option LoadFail :=
  (List.range b.storeMap.length).findSome? fun i =>
    let x := nth {} b.storeMap i
    failAt 7 i (firstBadStatus [bad (mapBad b 0 x), bad (mapDisagrees b x),
      bad (0 < i && mapKey x ≤ mapKey (nth {} b.storeMap (i - 1))), bad ((b.storeMap.take i).any (mapClash x))])

/-- The fold records that the cards call for, in order (R512): (card index, level). -/
def foldOrder (b : Bundle) : List (Nat × Nat) :=
  (List.range b.cards.length).flatMap fun i => [1, 2, 3].filterMap fun l =>
    if nth 0xFFFF (nth {} b.cards i).alts (l - 1) = 0xFFFF then none else some (i, l)

/-- Section 8 (R117, R512). -/
def foldsFail (b : Bundle) : Option LoadFail :=
  let want := foldOrder b
  if b.folds.length ≠ want.length then some { status := Status.BAD_PACKET, sec := 8, entry := min b.folds.length want.length }
  else
    (List.range want.length).findSome? fun i =>
      let r := nth {} b.folds i
      let (ci, l) := nth (0, 0) want i
      let c := nth {} b.cards ci
      failAt 8 i (firstBadStatus [bad (r.station ≠ c.station), bad (r.copy ≠ c.flags / 32 % 2 && b.header.checking = 1),
        bad (r.level ≠ l), bad (15 < r.slot), bad (4096 < r.progStart + c.progLen),
        bad (4096 < r.rerunStart + c.rerunLen || (c.fitMode ≠ 2 && r.rerunStart ≠ 0)),
        bad (r.map.any (fun x => mapBad b l x || x.core ≠ nth 0xFFFF c.alts (l - 1))), bad (anyClash r.map)])

/-- Section 9 (R117, R512). -/
def forecastFail (m : Img) (b : Bundle) : Option LoadFail :=
  (List.range b.cards.length).findSome? fun i =>
    let f := nth {} b.forecasts i
    let c := nth {} b.cards i
    failAt 9 i (firstBadStatus [bad (f.station ≠ c.station), bad (b.header.checking = 1 && f.copy ≠ c.flags / 32 % 2),
      bad (!m.zero ((m.section_ 9).1 + 16 * i + 3) 1), bad (f.energy ≠ c.energy)])

/-- Step 3: ranks rise along every edge but STATE edges, which covers every cycle (R132). -/
def rankFail (b : Bundle) : Option LoadFail :=
  (List.range b.edges.length).findSome? fun i =>
    let e := nth {} b.edges i
    let up := (b.cardsOf e.producer).any fun p => (b.cardsOf e.consumer).any fun c => c.rank ≤ p.rank
    failAt 3 i (firstBadStatus [bad (e.kind ≠ 2 && e.producer ≠ 0xFFFF && e.consumer ≠ 0xFFFF && up)])

end Sys2Proof.Machine
end

