-- ==== Sys2Proof/Machine/Tensor.lean ====
section
/-! DEFINITION. The tensor engine: TE_WLOAD, TE_XLOAD, TE_MMA, TE_TMA, TE_OUT, TE_ACLR (R73 … R80, R102). -/

namespace Sys2Proof.Machine

/-! ### Loads -/

/-- A load of a tile record into the loading set (R73, R74, R78): waits while that set holds weights not yet swapped in;
a record that breaks R45 … R47 stops it with te_record (R105). -/
def teLoad (expand : Bool) (s : State) (c : Nat) (w : IWord) : OpRes :=
  let k := s.core c
  if k.loading.isSome then .wait
  else
    let (bs, p) := s.readMem (coreBase c + 128 * w.a) (128 * w.dim0)
    let h := recHdr bs
    let bad := (h.check bs).isSome || bs.length < h.recBytes || (expand && (h.recType = 2 && (h.fmt = 7 || h.fmt = 8)))
    if bad then .done s { core := k, err := some (12, w.a) }
    else
      .done s
        { core := { k with loading := some { record := bs.take h.recBytes, expand := expand, half := w.imm % 2, poison := p } }
          ue := if p then firstPoison s c w.a w.dim0 else none }

/-! ### Arithmetic -/

/-- The weight format that a loaded set computes with: BF16 after an expanding load (R64, R78). -/
def WSet.fmt (x : WSet) : Fmt := if x.expand then .bf16 else (Fmt.ofCode (recHdr x.record).fmt).getD .none

/-- R75: the operand pairs of MAC mode and of table mode. -/
def tePair (table : Bool) (a b : Fmt) (cb : Fmt) : Bool :=
  if table then
    (b = .code4 || b = .code3 || b = .int4) &&
      ((a = .int8 && cb = .int8) || ((a = .int8 || a = .e4m3 || a = .e5m2) && (cb = .e4m3 || cb = .e5m2) && b ≠ .int4) ||
       ((a = .e4m3 || a = .e5m2) && cb = .int8))
  else
    (a = .int8 && b = .int8) || ((a = .e4m3 || a = .e5m2) && (b = .e4m3 || b = .e5m2)) ||
    (a = .bf16 && b = .bf16) || (a = .fp16 && b = .fp16)

/-- Weight (k, n) of a set, k counted from the instruction's first K index: the record's own (R41, R44), or expanded by
R64: RNE(C[code] × s_w) in BF16, the half of a code record that the load chose. -/
def setWeight (x : WSet) (k n : Nat) : FVal :=
  let h := recHdr x.record
  if x.expand then
    let kk := if h.recType = 1 then 128 * x.half + k else k
    let v := recWeight h x.record kk n
    let p := match recScale h x.record (kk / h.groupLen) n with
      | some sc => roundF32 (v.mul (f32Val sc))
      | none => roundF32 v
    decodeFloat .bf16 (convertFloat .bf16 (f32Val p)).bits
  else recWeight h x.record k n

/-- The weight scale s_w[n][g] that the arithmetic applies: none after an expanding load (R64). -/
def setScale (x : WSet) (g n : Nat) : Option F32 := if x.expand then none else recScale (recHdr x.record) x.record g n

/-- The activation scale s_a[m][g] of a row, from the scale block of the tile in whose receive slot the operand lies
(R40, R124); none outside a slot or when the tile carries no scales. `k0` is the K index at which the group begins. -/
def actScale (s : State) (c : Nat) (slot : Option RxSlot) (line rowB r k0 : Nat) : Option F32 :=
  match slot with
  | none => none
  | some x =>
    let t := x.tile
    if t.groupLen = 0 then none
    else
      let row := (128 * (line - (x.line + 1))) / rowB + r
      let groups := (t.cols + t.groupLen - 1) / t.groupLen
      let w := scaleBytes t.scaleFmt
      let payload := t.rows * rowBytes ((Fmt.ofCode t.fmt).getD .int8) t.cols
      let a := coreBase c + 128 * (x.line + 1) + payload + (row * groups + k0 / t.groupLen) * w
      some (roundF32 (decodeScale t.scaleFmt (ofLe (memRead s.mem a w))))

/-- R40: the combined scale of a group, as FP32; 1.0 when neither operand has scales. -/
def combinedScale (sw sa : Option F32) : F32 :=
  match sw, sa with
  | some w, some a => fmul w a
  | some w, none => w
  | none, some a => a
  | none, none => f32One

/-- R48: the INT32 sum of products in pair order from a running sum, with the sticky wrap mark. -/
def intChain (run : Int) (wrap : Bool) : List (Int × Int) → Int × Bool
  | [] => (run, wrap)
  | (p, q) :: r =>
    let (pair, o1) := addWrap32 p q
    let (sum, o2) := addWrap32 run pair
    intChain sum (wrap || o1 || o2) r

/-- R49: the chain of pair sums of one group in FP32: the pair sum is rounded once, then joins the chain. -/
def floatChain (acc : Option F32) : List (FVal × FVal) → F32
  | [] => acc.getD 0
  | (p, q) :: r =>
    let pair := roundF32 (p.add q)
    match acc with
    | none => floatChain (some pair) r
    | some x => floatChain (some (fadd x pair)) r

/-- The exact integer of a value of an integer format. -/
def FVal.toInt (v : FVal) : Int := v.toIntRNE

/-- R76: an accumulator that is kept, converted to the instruction's path when its tag differs. -/
def Acc.toPath (a : Acc) (isInt : Bool) : Acc :=
  if a.isInt = isInt then a
  else if isInt then
    let cv := convertInt 32 (f32Val a.val)
    { a with val := BitVec.ofNat 32 cv.bits, isInt := true, wrap := a.wrap || cv.sat }
  else { a with val := widen .int32 a.val.toNat, isInt := false }

/-- The accumulation of one output element over one instruction's K range (R48, R49): `act k` and `wt k` are the exact
operands, `scale g` the combined scale of group g. -/
def accumulate (integer unscaled : Bool) (k groupLen : Nat) (act wt : Nat → FVal) (scale : Nat → F32) (a0 : Acc) : Acc :=
  if integer && unscaled then
    let prods := (List.range (k / 2)).map fun i =>
      ((act (2 * i)).toInt * (wt (2 * i)).toInt, (act (2 * i + 1)).toInt * (wt (2 * i + 1)).toInt)
    let (v, w) := intChain (signedOf 32 a0.val.toNat) a0.wrap prods
    { a0 with val := BitVec.ofNat 32 (wrapTo 32 v), wrap := w }
  else
    (List.range (k / groupLen)).foldl (fun a g =>
      let idx := (List.range (groupLen / 2)).map (fun i => g * groupLen + 2 * i)
      let part :=
        if integer then
          (widen .int32 (wrapTo 32 (intChain 0 false (idx.map fun i =>
            ((act i).toInt * (wt i).toInt, (act (i + 1)).toInt * (wt (i + 1)).toInt))).1))
        else floatChain none (idx.map fun i => ((act i).mul (wt i), (act (i + 1)).mul (wt (i + 1))))
      { a with val := fadd a.val (fmul part (scale g)) }) a0

/-- The key of an accumulator element (R76): two banks of 1,024 rows × 128 columns. -/
def accKey (bank row col : Nat) : Nat := (bank * 1024 + row) * 128 + col

/-- TE_MMA and TE_TMA (R73 … R77, R80). -/
def teArith (table : Bool) (s : State) (c : Nat) (w : IWord) : OpRes :=
  let k := s.core c
  if w.swap ∧ k.loading = none then .done s { core := k, err := some (12, w.a) }
  else
    let set := if w.swap then k.loading else k.active
    match set with
    | none => .done s { core := k, err := some (12, w.a) }
    | some x =>
      let h := recHdr x.record
      let fa := (Fmt.ofCode w.fmtA).getD .none
      let fb := (Fmt.ofCode w.fmtB).getD .none
      let k1 := if w.swap then { k with active := some x, loading := none } else k
      if fb ≠ x.fmt ∨ tePair table fa fb h.cbFormat = false then .done s { core := k1, err := some (12, w.a) }
      else
        let kk := if table then 256 else 128
        let slots := s.rxSlots c
        let slot := findSlot slots w.a
        let rb := rowBytes (storedFmt slots w.a fa) kk
        let (rows, cnt) := readRows s c slots w.a fa w.dim0 kk
        let integer := fa = .int8 && (if table then h.cbFormat = .int8 else fb = .int8)
        let unscaled := (x.expand || h.scaleFmt = 0) && (match slot with | none => true | some r => r.tile.groupLen = 0)
        let bank := w.imm % 2
        let isInt := integer && unscaled
        let acc := (List.range w.dim0).foldl (fun t r =>
          let row := nth { vals := [], poison := false } rows r
          (List.range 128).foldl (fun t n =>
            let key := accKey bank (w.o + r) n
            let a0 : Acc := if w.keep then (tblGet {} t key).toPath isInt else { isInt := isInt }
            let a1 := accumulate integer unscaled kk h.groupLen (fun i => decodeElem fa (nth 0 row.vals i))
              (fun i => setWeight x i n)
              (fun g => combinedScale (setScale x g n) (actScale s c slot w.a rb r (g * h.groupLen))) a0
            tblSet {} t key { a1 with poison := a0.poison || row.poison || x.poison }) t) k1.acc
        .done s
          { core := { k1 with acc := acc }
            fit := cnt
            ue := if rows.any (·.poison) then firstPoison s c w.a ((w.dim0 * rb + 127) / 128) else none }

/-! ### Output and clear -/

/-- R50, R79: one accumulator element through the output stage. -/
def outElem (fo : Fmt) (scale bias : Option F32) (a : Acc) : Conv × Bool :=
  if a.isInt && fo = .int32 && scale.isNone && bias.isNone then ({ bits := a.val.toNat }, a.wrap)
  else
    let x := if a.isInt then widen .int32 a.val.toNat else a.val
    let x := match scale with | some m => fmul x m | none => x
    let x := match bias with | some b => fadd x b | none => x
    (convert fo x, a.wrap)

/-- TE_OUT: drain M rows of a bank through the output stage (R50, R79). -/
def teDrain (s : State) (c : Nat) (w : IWord) : OpRes :=
  let k := s.core c
  let fo := (Fmt.ofCode w.fmtO).getD .none
  let bank := w.imm % 2
  let hasS := bitN w.imm 1
  let hasB := bitN w.imm 2
  let blk := if hasS && hasB then 8 else if hasS || hasB then 4 else 0
  let (sb, sp) := s.readMem (coreBase c + 128 * w.b) (128 * blk)
  let sAt (n : Nat) : Option F32 := if hasS then some (BitVec.ofNat 32 (leAt sb (4 * n) 4)) else none
  let bAt (n : Nat) : Option F32 :=
    if hasB then some (BitVec.ofNat 32 (leAt sb ((if hasS then 512 else 0) + 4 * n) 4)) else none
  let rows := (List.range w.dim0).map fun r =>
    let es := (List.range 128).map fun n => tblGet {} k.acc (accKey bank (w.a + r) n)
    ((List.range 128).map (fun n => outElem fo (sAt n) (bAt n) (nth {} es n)), es.any (·.poison) || sp)
  let rb := rowBytes fo 128
  .done s
    { core := k
      writes := (List.range w.dim0).map fun r =>
        let row := nth ([], false) rows r
        (coreBase c + 128 * w.o + r * rb, padTo rb (packElems fo.bits (row.1.map (·.1.bits))), row.2)
      fit := sumCounts (rows.flatMap fun row => row.1.map fun e =>
        { e.1.outCounts with wrap := b2n e.2 })
      ue := if sp then firstPoison s c w.b blk else none }

/-- TE_ACLR: M accumulator rows to +0.0 with the FP32 tag and a cleared wrap mark (R76). -/
def teClear (s : State) (c : Nat) (w : IWord) : OpRes :=
  let k := s.core c
  let lo := accKey (w.imm % 2) w.a 0
  .done s { core := { k with acc := k.acc.filter (fun e => e.1 < lo || lo + 128 * w.dim0 ≤ e.1) } }

/-- TE_WLOAD (R73, R74). -/
def execTeWload (core : Fin 32) (hw : CoreHw) (s : State) : Host.Outcome State Fault Refusal :=
  .next (runOp s core 0 0x01 hw (teLoad false))

/-- TE_XLOAD (R78). -/
def execTeXload (core : Fin 32) (hw : CoreHw) (s : State) : Host.Outcome State Fault Refusal :=
  .next (runOp s core 0 0x02 hw (teLoad true))

/-- TE_MMA (R76). -/
def execTeMma (core : Fin 32) (hw : CoreHw) (s : State) : Host.Outcome State Fault Refusal :=
  .next (runOp s core 0 0x03 hw (teArith false))

/-- TE_TMA (R77). -/
def execTeTma (core : Fin 32) (hw : CoreHw) (s : State) : Host.Outcome State Fault Refusal :=
  .next (runOp s core 0 0x04 hw (teArith true))

/-- TE_OUT (R79). -/
def execTeOut (core : Fin 32) (hw : CoreHw) (s : State) : Host.Outcome State Fault Refusal :=
  .next (runOp s core 0 0x05 hw teDrain)

/-- TE_ACLR (R76). -/
def execTeAclr (core : Fin 32) (hw : CoreHw) (s : State) : Host.Outcome State Fault Refusal :=
  .next (runOp s core 0 0x06 hw teClear)

end Sys2Proof.Machine
end

