-- ==== Sys2Proof/Machine/Program.lean ====
section
/-! DEFINITION. The checks of GRAPH_LOAD on instruction words and programs (R57, R75, R76, R81, R89, R101 … R103, R513). -/

namespace Sys2Proof.Machine

/-- What the op table lets a word of an op hold: allowed format codes, which addresses it uses, the limits of its
dimensions (0: not used), the bits of imm it uses, and whether ctl.swap, ctl.keep and ctl.fit belong to it (R99, R102). -/
structure OpRule where
  op : Nat
  fa : List Nat := [0]
  fb : List Nat := [0]
  fo : List Nat := [0]
  a : Bool := false
  b : Bool := false
  o : Bool := false
  d0 : Nat := 0
  d1 : Nat := 0
  d2 : Nat := 0
  imm : Nat := 0
  swap : Bool := false
  keep : Bool := false
  arith : Bool := false

/-- Floating-point codes of the VE: BF16, FP16, FP32. -/
def veFloats : List Nat := [7, 8, 9]
/-- The codes of R32 other than CODE4, CODE3 and E8M0. -/
def plainCodes : List Nat := [1, 2, 5, 6, 7, 8, 9, 10]

/-- The rules of the TE and VE ops (R102). -/
def opRulesA : List OpRule :=
  [{ op := 0x01, a := true, d0 := 2047 }, { op := 0x02, a := true, d0 := 2047, imm := 1 },
   { op := 0x03, fa := [2, 5, 6, 7, 8], fb := [2, 5, 6, 7, 8], a := true, o := true, d0 := 1024, imm := 1, swap := true
     keep := true, arith := true },
   { op := 0x04, fa := [2, 5, 6], fb := [1, 3, 4], a := true, o := true, d0 := 1024, imm := 1, swap := true, keep := true
     arith := true },
   { op := 0x05, fo := plainCodes, a := true, b := true, o := true, d0 := 1024, imm := 7, arith := true },
   { op := 0x06, a := true, d0 := 1024, imm := 1 }] ++
  ([0x40, 0x41, 0x42, 0x44, 0x45].map fun p =>
    { op := p, fa := 2 :: veFloats, fb := 2 :: veFloats, fo := 2 :: veFloats, a := true, b := true, o := true, d0 := 2047
      d1 := 2047, arith := true })

/-- The rules of the other VE ops and of the AP (R102). -/
def opRulesB : List OpRule :=
  [{ op := 0x43, fa := veFloats, fb := veFloats, fo := veFloats, a := true, b := true, o := true, d0 := 2047, d1 := 2047
     arith := true },
   { op := 0x46, fa := plainCodes, fo := plainCodes, a := true, b := true, o := true, d0 := 2047, d1 := 2047, imm := 0x1F
     arith := true },
   { op := 0x47, fa := [7, 9], fb := [7, 9], fo := [7, 9], a := true, b := true, o := true, d0 := 2047, d1 := 2047
     arith := true },
   { op := 0x48, fa := [7, 9], fb := [7, 9], fo := [7, 9], a := true, b := true, o := true, d0 := 2047, d1 := 2047, imm := 1
     arith := true },
   { op := 0x50, fa := [7, 9], fo := [9], a := true, o := true, d0 := 2047, d1 := 2047, keep := true, arith := true },
   { op := 0x51, fa := [7, 9], fo := [7, 9], a := true, o := true, d0 := 2047, d1 := 2047, keep := true, arith := true },
   { op := 0x58, fa := veFloats, fo := [5, 6, 7, 8, 9], a := true, o := true, d0 := 2047, d1 := 2047, imm := 7
     arith := true }] ++
  [{ op := 0x80, fa := [5, 6, 7], a := true, d0 := 64, d1 := 256, arith := true },
   { op := 0x81, fa := [5, 6, 7], b := true, d0 := 2047, imm := 7, arith := true },
   { op := 0x82, fo := [5, 7, 9], o := true, arith := true }]

/-- The rules of the data mover and sequencer ops (R102). -/
def opRulesC : List OpRule :=
  [{ op := 0xC0, a := true, o := true, d0 := 2047, imm := 0x218 }, { op := 0xC1, b := true, o := true, d0 := 2047, imm := 0x200 },
   { op := 0xC2, fa := plainCodes, a := true, b := true, o := true, d0 := 1024, d1 := 2047, imm := 0x20F },
   { op := 0xC3, fa := 0 :: plainCodes, b := true, o := true, imm := 0x2FF },
   { op := 0xC4, b := true, o := true, d0 := 2047, imm := 0x207 }, { op := 0xC5, a := true, b := true, d0 := 2047, imm := 0x207 },
   { op := 0xC6, a := true, b := true, o := true, d0 := 2047, d1 := 2047, imm := 0x200 },
   { op := 0xC7, a := true, o := true, d0 := 2047, imm := 0x203 }] ++
  [{ op := 0xF0 }, { op := 0xF1, imm := 0x3FF }, { op := 0xF2, imm := 0x3FF },
   { op := 0xF3, d0 := 2047, d1 := 2047, d2 := 2047, imm := 0x3F }, { op := 0xF4 }, { op := 0xF5 }, { op := 0xF6 }]

/-- The rule of an op. -/
def opRule (op : Nat) : Option OpRule := (opRulesA ++ opRulesB ++ opRulesC).find? (fun r => r.op == op)

/-- A dimension: 0 is refused ZERO_FIELD where it is a dimension of the op; strides and DM_SEND's columns may be 0
(R101). -/
def dimChecks (v max : Nat) (mayZero : Bool) : List (Bool × Nat) :=
  if max = 0 then [bad (v ≠ 0)] else [zeroF (v = 0 && !mayZero), bad (max < v)]

/-- The fields of one word, in the order of R99 (R101, R117). -/
def fieldChecks (r : OpRule) (w : IWord) (fitOff : Bool) : List (Bool × Nat) :=
  [bad (!r.fa.contains w.fmtA), bad (!r.fb.contains w.fmtB), bad (!r.fo.contains w.fmtO), bad (w.swap && !r.swap),
   bad (w.keep && !r.keep), bad (w.fit && (fitOff || !r.arith)), bad (w.endPass && !r.arith), bad (w.a ≠ 0 && !r.a),
   bad (w.b ≠ 0 && !r.b), bad (w.o ≠ 0 && !r.o)] ++
  dimChecks w.dim0 r.d0 false ++ dimChecks w.dim1 r.d1 (r.op = 0xF3 || r.op = 0xC2) ++ dimChecks w.dim2 r.d2 (r.op = 0xF3) ++
  [bad (Nat.land w.imm r.imm ≠ w.imm)]

/-- The rules that concern one word as a whole (R75, R81 … R83, R101). -/
def wholeWord (w : IWord) : Bool :=
  let fa := (Fmt.ofCode w.fmtA).getD .none
  let fb := (Fmt.ofCode w.fmtB).getD .none
  match w.op with
  | 0x03 => !tePair false fa fb .int8
  | 0x04 => !(tePair true fa fb .int8 || tePair true fa fb .e4m3)
  | 0x05 => bitsN w.imm 2 1 = 0 && w.b ≠ 0
  | 0x46 =>
    if bitN w.imm 0 then w.fmtO ≠ 7 || bitsN w.imm 2 1 = 0 || bitsN w.imm 4 3 = 0 else bitsN w.imm 4 1 ≠ 0 || w.b ≠ 0
  | 0x58 => 5 < w.imm
  | 0x80 => w.dim1 % 32 ≠ 0
  | 0xC7 => 1 < bitsN w.imm 1 0
  | op => (op = 0x40 || op = 0x41 || op = 0x42 || op = 0x44 || op = 0x45) &&
      (w.fmtA = 2 || w.fmtB = 2 || w.fmtO = 2) && !(w.fmtA = 2 && w.fmtB = 2 && w.fmtO = 2)

/-- Elements of one row of a VE operand (R81). -/
def veRowLen (w : IWord) : Nat :=
  let fs := [w.fmtA, w.fmtB, w.fmtO].map fun c => (Fmt.ofCode c).getD .none
  if w.op = 0x58 then w.dim1 * 64
  else if w.op = 0x46 ∨ w.op = 0x50 ∨ w.op = 0x51 then w.dim1 * 256
  else w.dim1 * (if fs.contains .int8 then 1024 else if fs.contains .fp32 then 256 else 512)

/-- Lines of `rows` rows of `n` elements. -/
def rowLines (code rows n : Nat) : Nat := rows * (rowBytes ((Fmt.ofCode code).getD .none) n / 128)

/-- The core-store lines that a word reads at a and b and writes at o (R89); accumulator rows are no lines. -/
def regionLines (w : IWord) : Nat × Nat × Nat :=
  match w.op with
  | 0x01 | 0x02 => (w.dim0, 0, 0)
  | 0x03 => (rowLines w.fmtA w.dim0 128, 0, 0)
  | 0x04 => (rowLines w.fmtA w.dim0 256, 0, 0)
  | 0x05 => (0, (if bitsN w.imm 2 1 = 3 then 8 else if bitsN w.imm 2 1 = 0 then 0 else 4), rowLines w.fmtO w.dim0 128)
  | 0x46 =>
    let gl := 16 * 2 ^ bitsN w.imm 4 3
    (rowLines w.fmtA w.dim0 (veRowLen w),
      (if bitN w.imm 0 then ((w.dim0 + gl - 1) / gl * veRowLen w * scaleBytes (bitsN w.imm 2 1) + 127) / 128 else 0),
      rowLines w.fmtO w.dim0 (veRowLen w))
  | 0x47 => (rowLines w.fmtA w.dim0 (veRowLen w), rowLines w.fmtB 1 (veRowLen w), rowLines w.fmtO w.dim0 (veRowLen w))
  | 0x50 | 0x51 => (rowLines w.fmtA w.dim0 (veRowLen w), 0, rowLines w.fmtO 1 w.dim0)
  | 0x58 => (rowLines w.fmtA w.dim0 (veRowLen w), 0, rowLines w.fmtO w.dim0 (veRowLen w))
  | 0x80 => (rowLines w.fmtA w.dim0 w.dim1, 0, 0)
  | 0x81 => (0, 1, 0)
  | 0x82 => (0, 0, 1)
  | 0xC0 => (w.dim0, 0, w.dim0)
  | 0xC1 => (0, 1, w.dim0)
  | 0xC2 =>
    let cols := if w.dim1 = 0 then 2048 else w.dim1
    (rowLines w.fmtA w.dim0 cols, 0, scaleLines w.dim0 cols (sendGroup w.imm) (bitsN w.imm 3 2))
  | 0xC4 => (0, 1, w.dim0)
  | 0xC5 => (w.dim0, 1, 0)
  | 0xC6 => (0, (4 * w.dim0 + 127) / 128, w.dim0 * w.dim1)
  | 0xC7 => let n := w.dim0 * 128 * (if bitsN w.imm 1 0 = 0 then 1 else 2); (n, 0, n)
  | op => if 0x40 ≤ op ∧ op ≤ 0x48 then
      (rowLines w.fmtA w.dim0 (veRowLen w), rowLines w.fmtB w.dim0 (veRowLen w), rowLines w.fmtO w.dim0 (veRowLen w))
    else (0, 0, 0)

/-- The loops of a program whose body holds word `i` (R101): (position, word). -/
def enclosing (ws : List IWord) (i : Nat) : List (Nat × IWord) :=
  (List.range i).filterMap fun j =>
    let w := nth {} ws j
    if w.op = 0xF3 ∧ i ≤ j + bitsN w.imm 5 0 then some (j, w) else none

/-- What the strides of the enclosing loops add at most (R101). -/
def maxOffset (ls : List (Nat × IWord)) (stride : IWord → Nat) : Nat := ls.foldl (fun a l => a + (l.2.dim0 - 1) * stride l.2) 0

/-- R76, R89: a region runs past the store, or accumulator rows past 1,024, in some iteration. -/
def regionBad (ws : List IWord) (i : Nat) (w : IWord) : Bool :=
  let ls := enclosing ws i
  let da := maxOffset ls (·.dim1)
  let do_ := maxOffset ls (·.dim2)
  let (la, lb, lo) := regionLines w
  (0 < la && storeLines < w.a + da + la) || (0 < lb && storeLines < w.b + lb) || (0 < lo && storeLines < w.o + do_ + lo) ||
  ((w.op = 0x03 || w.op = 0x04) && 1024 < w.o + do_ + w.dim0) || ((w.op = 0x05 || w.op = 0x06) && 1024 < w.a + da + w.dim0)

/-- R101: a SEQ_LOOP that breaks its rules: no body, a body past the program's end or past an enclosing body, more than
four deep, or SEQ_END, SEQ_FIT_CHECK or SEQ_TOKEN_SEND inside. -/
def loopBad (ws : List IWord) (i : Nat) (w : IWord) : Bool :=
  let n := bitsN w.imm 5 0
  let ls := enclosing ws i
  n = 0 || ws.length ≤ i + n || 3 < ls.length || ls.any (fun l => l.1 + bitsN l.2.imm 5 0 < i + n) ||
  ((ws.drop (i + 1)).take n).any (fun x => x.op = 0xF6 || x.op = 0xF5 || x.op = 0xF2)

/-- R101: masks and stream positions against the card (R120, R126, R513). -/
def streamBad (b : Bundle) (c : Card) (rerun : Bool) (w : IWord) : Bool :=
  match w.op with
  | 0xF1 => 2 ^ c.nIn ≤ w.imm
  | 0xF2 => 2 ^ c.nOut ≤ w.imm
  | 0xC3 => c.nIn ≤ w.b || (nth {} b.edges (nth 0xFFFF c.inEdges w.b)).kind ≠ 0
  | 0xC2 =>
    let e := nth {} b.edges (nth 0xFFFF c.outEdges w.b)
    c.nOut ≤ w.b || e.kind ≠ 0 || w.fmtA ≠ (if rerun then 7 else e.fmt) ||
      ((sendGroup w.imm = 0) ≠ (bitsN w.imm 3 2 = 0)) || (sendGroup w.imm = 0 && w.o ≠ 0)
  | _ => false

/-- One word of a program: its fields, then the word as a whole (R101, R117). -/
def wordChecks (b : Bundle) (c : Card) (rerun : Bool) (ws : List IWord) (i : Nat) : Option Nat :=
  let w := nth {} ws i
  match opRule w.op with
  | none => some Status.BAD_PACKET
  | some r => firstBadStatus (fieldChecks r w (c.fitMode = 0) ++
      [bad (wholeWord w), bad (w.op = 0xF3 && loopBad ws i w), bad (streamBad b c rerun w), bad (regionBad ws i w),
       bad ((w.op = 0xF6) ≠ (i + 1 = ws.length))])

/-- R103: exactly one SEQ_FIT_CHECK in the main program of a WIDEN station, outside every loop and before every DM_SEND and
SEQ_TOKEN_SEND; none elsewhere. -/
def fitCheckBad (c : Card) (main rerun : List IWord) : Bool :=
  let at_ := (List.range main.length).filter (fun i => (nth {} main i).op = 0xF5)
  if c.fitMode = 2 then
    match at_ with
    | [i] => !(enclosing main i).isEmpty || (main.take i).any (fun w => w.op = 0xC2 || w.op = 0xF2) ||
        rerun.any (fun w => w.op = 0xF5)
    | _ => true
  else !at_.isEmpty || rerun ≠ []

/-- R57: a WIDEN station that computes in BF16 or FP16 has 8-bit outputs. -/
def widenFormatBad (b : Bundle) (c : Card) (main : List IWord) : Bool :=
  c.fitMode = 2 && main.any (fun w => w.op = 0x03 && (w.fmtA = 7 || w.fmtA = 8)) &&
  (c.outEdges.take c.nOut).any (fun i => let e := nth {} b.edges i; e.kind = 0 && e.fmt ≠ 2 && e.fmt ≠ 5 && e.fmt ≠ 6)

/-- The words of the cards before card `i`: the entry index of its first word in section 2 (R512). -/
def firstWord (b : Bundle) (i : Nat) : Nat := (b.cards.take i).foldl (fun a c => a + c.progLen + c.rerunLen) 0

/-- The programs of card `i`. -/
def programFail (b : Bundle) (i : Nat) : Option LoadFail :=
  let c := nth {} b.cards i
  let ps := nth ([], []) b.programs i
  let main := ps.1.map decodeWord
  let rerun := ps.2.map decodeWord
  let first := firstWord b i
  match (List.range main.length).findSome? (fun j => failAt 2 (first + j) (wordChecks b c false main j)) with
  | some f => some f
  | none =>
    match (List.range rerun.length).findSome? (fun j => failAt 2 (first + main.length + j) (wordChecks b c true rerun j)) with
    | some f => some f
    | none => failAt 2 first (firstBadStatus [bad (fitCheckBad c main rerun), bad (widenFormatBad b c main)])

/-- Section 2 (R117). -/
def programsFail (b : Bundle) : Option LoadFail := (List.range b.cards.length).findSome? (programFail b)

/-- Step 2 of R117, section by section. -/
def contentFail (m : Img) (b : Bundle) (g len : Nat) : Option LoadFail :=
  (headerFail m b len).orElse fun _ => (cardsFail m b g).orElse fun _ => (programsFail b).orElse fun _ =>
  (edgesFail m b).orElse fun _ => (buffersFail m b).orElse fun _ => (weightsFail m b).orElse fun _ =>
  (initsFail m b).orElse fun _ => (mapFail b).orElse fun _ => (foldsFail b).orElse fun _ => forecastFail m b

end Sys2Proof.Machine
end

