-- ==== Sys2Proof/Machine/Routes.lean ====
section
/-! DEFINITION. The links between the six dies and the route tables (R215, R216, R221, R222): die codes 0 … 3 for the
Talxon dies, 4 and 5 for the hub dies; ports 0 hub, 1 row, 2 column, 3 spare on a Talxon die. -/

namespace Sys2Proof.Machine

/-- The other end of a port: die and port; none for a port that is not bonded (R215, R221). -/
def portPeer (d p : Nat) : Option (Nat × Nat) :=
  match d, p with
  | 0, 0 => some (4, 0) | 0, 1 => some (1, 1) | 0, 2 => some (2, 2)
  | 1, 0 => some (4, 1) | 1, 1 => some (0, 1) | 1, 2 => some (3, 2)
  | 2, 0 => some (5, 0) | 2, 1 => some (3, 1) | 2, 2 => some (0, 2)
  | 3, 0 => some (5, 1) | 3, 1 => some (2, 1) | 3, 2 => some (1, 2)
  | 4, 0 => some (0, 0) | 4, 1 => some (1, 0)
  | 5, 0 => some (2, 0) | 5, 1 => some (3, 0)
  | _, _ => none

/-- The state of a port. -/
def State.port (s : State) (d p : Nat) : PortState := tblGet {} s.net.ports (4 * d + p)
/-- Change a port. -/
def State.modPort (s : State) (d p : Nat) (f : PortState → PortState) : State :=
  { s with net := { s.net with ports := tblMod {} s.net.ports (4 * d + p) f } }

/-- A die that can carry traffic: a Talxon die that is not fenced, a hub die that is not lost. -/
def State.dieUp (s : State) (d : Nat) : Bool := if d < 4 then !s.dieFenced d else !(s.link (d - 4)).lost

/-- A port end that is trained and not fenced (CLOSED or OPEN, R236). -/
def PortState.live (x : PortState) : Bool := (x.st == 3 || x.st == 4) && !x.fenced

/-- A live link (R222). -/
def State.linkLive (s : State) (d p : Nat) : Bool :=
  match portPeer d p with
  | some (d', p') => (s.port d p).live && (s.port d' p').live && s.dieUp d && s.dieUp d'
  | none => false

/-- The place of a step in the order of kinds of R222: hub inbound, row, column, hub outbound. -/
def kindRank (d p : Nat) : Nat := if 4 ≤ d then 0 else if p = 0 then 3 else p

/-- The live paths of at most `n` links that pass through no hub die and visit no die twice, in ascending port order. -/
def livePaths (live : Nat → Nat → Bool) (dst : Nat) : Nat → List Nat → Nat → List (List (Nat × Nat))
  | 0, _, _ => []
  | n + 1, seen, d =>
    [0, 1, 2].flatMap fun p =>
      match portPeer d p with
      | some (d', _) =>
        if live d p ∧ ¬ seen.contains d' then
          if d' = dst then [[(d, p)]]
          else if d' < 4 then (livePaths live dst n (d' :: seen) d').map (fun r => (d, p) :: r) else []
        else []
      | none => []

/-- The kinds of a path rise (R222). -/
def ordered : List (Nat × Nat) → Bool
  | [] => true
  | [_] => true
  | a :: b :: r => kindRank a.1 a.2 < kindRank b.1 b.2 && ordered (b :: r)

/-- The first of the shortest paths. -/
def shortest : List (List (Nat × Nat)) → Option (List (Nat × Nat))
  | [] => none
  | a :: r => match shortest r with
    | some b => if b.length < a.length then some b else some a
    | none => some a

/-- R222: the route between two dies: the shortest live path in kind order, else the shortest live path. -/
def routePath (live : Nat → Nat → Bool) (src dst : Nat) : Option (List (Nat × Nat)) :=
  let ps := livePaths live dst 5 [src] src
  (shortest (ps.filter ordered)).orElse fun _ => shortest ps

/-- A route table entry (R221): an exit port, 4 local, 7 unreachable. -/
def routeEntry (live : Nat → Nat → Bool) (src dst : Nat) : Nat :=
  if src = dst then 4 else
    match routePath live src dst with
    | some ((_, p) :: _) => p
    | _ => 7

/-- A die's route table: entry of destination d in bits [3 d + 2 : 3 d] (D2D_ROUTE, R236). -/
def routeTable (live : Nat → Nat → Bool) (src : Nat) : Nat :=
  [0, 1, 2, 3, 4, 5].foldl (fun a d => a + routeEntry live src d * 2 ^ (3 * d)) 0

/-- The entry of a die's table in force. -/
def State.route (s : State) (src dst : Nat) : Nat := bitsN (tblGet 0 s.net.routes src) (3 * dst + 2) (3 * dst)

/-- R222, R223: the fault manager computes every table anew, and links that stand CLOSED open. -/
def State.setRoutes (s : State) : State :=
  { s with net := { s.net with
      routes := [0, 1, 2, 3, 4, 5].map (fun d => (d, routeTable s.linkLive d))
      ports := s.net.ports.map (fun e => (e.1, if e.2.st = 3 ∧ ¬ e.2.fenced ∧ s.linkLive (e.1 / 4) (e.1 % 4) then
        { e.2 with st := 4 } else e.2)) } }

/-- The links that a message from `src` to `dst` crosses by the tables in force. -/
def routeLinks (s : State) (dst : Nat) : Nat → Nat → List (Nat × Nat)
  | 0, _ => []
  | n + 1, d =>
    let p := s.route d dst
    if d = dst ∨ 4 ≤ p then []
    else match portPeer d p with
      | some (d', _) => (d, p) :: routeLinks s dst n d'
      | none => []

/-- A message between two dies crosses a link (given by one of its ends). -/
def State.crosses (s : State) (src dst d p : Nat) : Bool :=
  (routeLinks s dst 5 src).any fun x => x == (d, p) || portPeer x.1 x.2 == some (d, p)

/-- R150: a Talxon die lies beyond fenced links: no live path leads to it from a hub die that is not lost. -/
def State.dieCut (s : State) (d : Nat) : Bool :=
  [4, 5].all fun h => !s.dieUp h || (routePath s.linkLive h d).isNone

end Sys2Proof.Machine
end

