-- ==== Sys2Proof/Machine/Placement.lean ====
section
/-! DEFINITION. Placement and folding (R96, R121, R123, R150 … R152, R512), putting a graph into cores, streams and
stores (R117 steps 5 … 7), and the restart record (R420). -/

namespace Sys2Proof.Machine

/-! ### Where a card's station runs (R150, R512) -/

/-- The copy of a card. -/
def Bundle.copyOf (b : Bundle) (c : Card) : Nat := if b.header.checking = 1 then c.flags / 32 % 2 else 0

/-- The fold record of a card at a level. -/
def Bundle.foldRec (b : Bundle) (c : Card) (level : Nat) : FoldRec :=
  (b.folds.find? (fun r => r.station == c.station && r.level == level &&
    (b.header.checking != 1 || r.copy == b.copyOf c))).getD {}

/-- The core of a card at a level. -/
def Card.coreAt (c : Card) (level : Nat) : Nat := if level = 0 then c.core else nth 0xFFFF c.alts (level - 1)

/-- The place of a card at a level. -/
def Bundle.placeAt (b : Bundle) (c : Card) (level : Nat) : Place :=
  if level = 0 then
    { core := c.core, slot := c.slot, progStart := c.progStart, rerunStart := c.rerunStart, streamed := bitN c.flags 4 }
  else
    let r := b.foldRec c level
    { core := c.coreAt level, slot := r.slot, progStart := r.progStart, rerunStart := r.rerunStart, level := level
      streamed := bitN c.altStreamed (level - 1) }

/-- R150: the first alive core in the order home, core_alt, cluster_alt, die_alt. -/
def Bundle.placeCard (b : Bundle) (alive : Nat → Bool) (c : Card) : Place :=
  match [0, 1, 2, 3].find? (fun l => c.coreAt l ≠ 0xFFFF && alive (c.coreAt l)) with
  | some l => b.placeAt c l
  | none => { placed := false }

/-- The store-map entries of a card at a place (R512). -/
def Bundle.regions (b : Bundle) (c : Card) (p : Place) : List MapEntry :=
  if p.level = 0 then
    b.storeMap.filter fun x => (b.header.checking != 1 || x.copy == b.copyOf c) &&
      (if x.kind = 2 then (nth {} b.edges x.owner).consumer == c.station else x.owner == c.station)
  else (b.foldRec c p.level).map

/-- The line of an edge's receive buffer at its consumer's place. -/
def Bundle.rxLine (b : Bundle) (c : Card) (p : Place) (ei : Nat) : Nat :=
  if p.level = 0 then (nth {} b.edges ei).rxLine
  else (((b.regions c p).find? (fun x => x.kind == 2 && x.owner == ei)).map (·.line)).getD 0

/-- A core is alive (R150). -/
def State.coreAlive (s : State) (c : Nat) : Bool := !s.coreFenced c && !s.dieCut (c / 8)

/-! ### Whether a placement fits (R96, R121, R123, R151) -/

/-- A station on a core, with what it takes there. -/
structure Placed where
  bundle : Bundle
  card : Card
  place : Place

/-- The stations of a bundle under a placement. -/
def Bundle.placedCards (b : Bundle) (alive : Nat → Bool) : List Placed :=
  b.cards.map fun c => { bundle := b, card := c, place := b.placeCard alive c }

/-- The program words of a station: (start, length) of each program. -/
def Placed.words (x : Placed) : List (Nat × Nat) :=
  (x.place.progStart, x.card.progLen) :: (if 0 < x.card.rerunLen then [(x.place.rerunStart, x.card.rerunLen)] else [])

/-- R96: one core's stations fit its slots and its program store. -/
def coreFits (l : List Placed) (c : Nat) : Bool :=
  let on := l.filter (fun x => x.place.placed && x.place.core == c)
  let ws := on.flatMap Placed.words
  on.length ≤ 16 && ws.foldl (fun a w => a + w.2) 0 ≤ 4096 &&
  (List.range on.length).all (fun i => (on.take i).all fun y =>
    decide (y.place.slot ≠ ((on[i]?).map (·.place.slot)).getD 16)) &&
  (List.range ws.length).all (fun i => let w := nth (0, 0) ws i
    (ws.take i).all fun v => decide (v.1 + v.2 ≤ w.1 ∨ w.1 + w.2 ≤ v.1))

/-- The producer's place of an edge in one copy. -/
def producerPlace (l : List Placed) (e : Edge) (copy : Nat) : Option Place :=
  (l.find? (fun x => x.card.station == e.producer && x.bundle.copyOf x.card == copy)).map (·.place)

/-- Producer and consumer of an edge share a core after a fold (R123, R126). -/
def sharesAfterFold (p c : Place) : Bool := p.core == c.core && (p.level != 0 || c.level != 0)

/-- R123: fold depths hold a whole frame, and receive regions hold their slots, for the inputs of a station. -/
def inputsFit (own : List Placed) (x : Placed) : Bool :=
  (x.card.inEdges.take x.card.nIn).all fun ei =>
    let e := nth {} x.bundle.edges ei
    if e.kind ≠ 0 then true
    else
      let shared := match producerPlace own e (x.bundle.copyOf x.card) with
        | some p => sharesAfterFold p x.place
        | none => false
      let depth := if shared then e.foldDepth else e.depth
      (!shared || e.frameTiles ≤ e.foldDepth) &&
      (match (x.bundle.regions x.card x.place).find? (fun r => r.kind == 2 && r.owner == ei) with
        | some r => depth * e.slotBytes ≤ 128 * r.lines
        | none => false)

/-- R121: under DUPLICATE no station of copy 0 shares a core with one of copy 1. -/
def copiesApart (own : List Placed) : Bool :=
  own.all fun x => own.all fun y =>
    !(x.bundle.header.checking == 1 && x.bundle.copyOf x.card != y.bundle.copyOf y.card && x.place.core == y.place.core)

/-- A placement of one bundle beside the graphs already loaded keeps R96, R121 and R123, and its store maps are free of
overlap. -/
def placementFits (own others : List Placed) : Bool :=
  let all := own ++ others
  own.all (·.place.placed) && (List.range 32).all (coreFits all) && own.all (inputsFit own) && copiesApart own &&
  !anyClash (all.flatMap fun x => if x.place.placed then x.bundle.regions x.card x.place else [])

/-- The fence cases of R151 in their order: kind, index, and the cores each leaves alive. -/
def fenceCases : List (Nat × Nat) :=
  (List.range 32).map (fun i => (1, i)) ++ (List.range 8).map (fun i => (2, i)) ++ (List.range 4).map (fun i => (3, i))

/-- The cores that one fence leaves alive. -/
def aliveUnder (k i c : Nat) : Bool := (if k = 1 then c else if k = 2 then c / 4 else c / 8) != i

/-- R151: every buffer homed on a fenced die's stack has an alternate on another die. -/
def buffersSurvive (b : Bundle) (k i : Nat) : Bool :=
  k != 3 || b.buffers.all fun x => !(x.home == i) || (x.alt != 0xFF && x.alt != i)

/-- Step 4 of R117: the home placement first, then every single fence (R151). -/
def placementFail (b : Bundle) (others : List Bundle) : Option LoadFail :=
  let rest (alive : Nat → Bool) := others.flatMap (fun o => o.placedCards alive)
  if placementFits (b.placedCards fun _ => true) (rest fun _ => true) then
    fenceCases.findSome? fun (k, i) =>
      if placementFits (b.placedCards (aliveUnder k i)) (rest (aliveUnder k i)) && buffersSurvive b k i then none
      else some { status := Status.BAD_PACKET, sec := 8, fenceKind := k, fenceIndex := i }
  else some { status := Status.BAD_PACKET, sec := 7 }

/-! ### Putting a graph into the machine (R117 steps 5 … 7) -/

/-- The reader of an image at a device address. -/
def State.image (s : State) (a : Nat) : Img := fun o n => memRead s.mem (a + o) n

/-- Write a station's programs and its slot into its core (R111, R512). -/
def installStation (g : Nat) (s : State) (x : Card × Place × (List (BitVec 128) × List (BitVec 128)) × Nat) : State :=
  let (c, p, ws, copy) := x
  if p.placed then
    s.modCore p.core fun k =>
      { k with
        prog := tblSetList 0 (tblSetList 0 k.prog p.progStart ws.1) p.rerunStart ws.2
        slots := tblSet {} k.slots p.slot
          { valid := true, graph := g, station := c.station, copy := copy, progStart := p.progStart, progLen := c.progLen
            rerunStart := p.rerunStart, rerunLen := c.rerunLen, fitMode := c.fitMode, widenGroup := c.widenGroup
            ratio := c.fitRatio } }
  else s

/-- Copy a station's resident weights from an image into its store region of kind 0 (R118). -/
def copyWeights (m : Img) (b : Bundle) (s : State) (x : Card × Place) : State :=
  let (c, p) := x
  if p.placed ∧ ¬ p.streamed ∧ 0 < c.weightBytes then
    match (b.regions c p).find? (fun r => r.kind == 0) with
    | some r =>
      let base := if r.store = 0 then coreBase p.core else clusterBase p.core
      s.writeMem (base + 128 * r.line) (m c.weightOffset c.weightBytes)
    | none => s
  else s

/-- The streams of a bundle under a placement, with their credits (R126). -/
def Bundle.makeStreams (b : Bundle) (places : List Place) : List Stream :=
  let cps := b.cards.zip places
  (List.range b.header.copies).flatMap fun copy => (List.range b.edges.length).filterMap fun ei =>
    let e := nth {} b.edges ei
    if e.kind ≠ 0 then none
    else
      let find (st : Nat) := cps.find? (fun x => x.1.station == st && b.copyOf x.1 == copy)
      let shared := match find e.producer, find e.consumer with
        | some p, some c => sharesAfterFold p.2 c.2
        | _, _ => false
      let d := if shared then e.foldDepth else e.depth
      let rx := match find e.consumer with
        | some c => b.rxLine c.1 c.2 ei
        | none => 0
      some { edge := ei, copy := copy, credits := d, depth := d, rxLine := rx }

/-- The initial value of a buffer in an image: zeros where the bundle has none (R142, R152). -/
def Bundle.initial (b : Bundle) (m : Img) (x : Buffer) : List Byte :=
  if x.initOffset = 0xFFFFFFFF then List.replicate x.bytes 0 else m (b.initOff + x.initOffset) x.bytes

/-- R142: set the COMMITTED copy of a state buffer from its initial value; STATE_RESET. -/
def resetStateBuffer (m : Img) (s : State) (g bi : Nat) : State :=
  match s.graph? g with
  | none => s
  | some gr =>
    let x := nth {} gr.bundle.buffers bi
    let s1 := s.writeMem (x.at_ + (if x.committedHigh then x.bytes else 0)) (gr.bundle.initial m x)
    (s1.modGraph g fun gr => { gr with stateReset := true }).log .STATE_RESET 0xFF [g, bi]

/-- Step 7: initial values of state buffers and constant buffers (R112, R117, R142). -/
def writeInitials (m : Img) (s : State) (g : Nat) : State :=
  match s.graph? g with
  | none => s
  | some gr =>
    (List.range gr.bundle.buffers.length).foldl (fun s bi =>
      let x := nth {} gr.bundle.buffers bi
      if x.isState then resetStateBuffer m s g bi
      else if x.initOffset ≠ 0xFFFFFFFF then s.writeMem x.at_ (gr.bundle.initial m x) else s) s

/-- R211: enter a graph's buffers in every die's range table, at most 4,096 ranges. -/
def enterRanges (s : State) (g n : Nat) : State :=
  [0, 1, 2, 3].foldl (fun s d => (List.range n).foldl (fun s bi =>
    if (tblGet {} s.hbm.rcs d).ranges.length < 4096 then
      { s with hbm := { s.hbm with rcs := tblMod {} s.hbm.rcs d (fun r => { r with ranges := r.ranges ++ [(g, bi)] }) } }
    else s.satReg (ra .RC_TABLE_FULL d)) s) s

/-- Steps 5 … 7 of R117 for a graph whose checks have passed. -/
def installGraph (s : State) (gr : Graph) (m : Img) : State :=
  let b := gr.bundle
  let places := b.cards.map (b.placeCard s.coreAlive)
  let gr1 := { gr with places := places, streams := b.makeStreams places, unplaceable := !(places.all (·.placed))
                       loadedAt := s.now }
  let s1 := { s with graphs := { s.graphs with graphs := s.graphs.graphs ++ [gr1] } }
  let s2 := (b.cards.zip (places.zip b.programs)).foldl
    (fun s x => installStation gr.num s (x.1, x.2.1, x.2.2, b.copyOf x.1)) s1
  let s3 := (b.cards.zip places).foldl (copyWeights m b) s2
  enterRanges (writeInitials m s3 gr.num) gr.num b.buffers.length

/-- Take a graph's stations off the cores: slots and program words free (R119). -/
def CoreState.dropGraph (k : CoreState) (g : Nat) : CoreState :=
  let gone := k.slots.filter (fun e => e.2.valid && e.2.graph == g)
  { k with
    slots := k.slots.filter (fun e => !(e.2.valid && e.2.graph == g))
    prog := k.prog.filter (fun w => !gone.any (fun e =>
      (e.2.progStart ≤ w.1 && w.1 < e.2.progStart + e.2.progLen) ||
      (e.2.rerunStart ≤ w.1 && w.1 < e.2.rerunStart + e.2.rerunLen)))
    ready := k.ready.filter (fun p => p.graph != g) }

/-- Free a graph: slots, program words, edges, buffers and what the device still holds of it (R119). -/
def State.removeGraph (s : State) (g : Nat) : State :=
  { s with
    cores := (s.cores.map (fun e => (e.1, e.2.dropGraph g))).filter (fun e => e.2 ≠ {})
    graphs := { s.graphs with
      graphs := s.graphs.graphs.filter (fun x => x.num != g)
      requests := s.graphs.requests.filter (fun r => r.graph != g)
      tokens := s.graphs.tokens.filter (fun t => t.graph != g)
      versions := s.graphs.versions.filter (fun v => v.graph != g) }
    hbm := { s.hbm with rcs := (s.hbm.rcs.map (fun e => (e.1,
      { e.2 with ranges := e.2.ranges.filter (fun r => r.1 != g), lines := e.2.lines.filter (fun l => l.graph != g)
                 fills := e.2.fills.filter (fun f => f.graph != g) }))).filter (fun e => e.2 ≠ {}) } }

/-! ### The restart record (R420) -/

/-- The record of what is in force now, with a generation. -/
def State.makeRecord (s : State) (gen : Nat) : RestartRecord :=
  { generation := gen
    regions := [0, 1, 2, 3].filterMap (fun d => (s.catRegion d).map (fun a => (d, a)))
    graphs := s.graphs.graphs.map (fun g => (g.num, g.args, g.digest))
    pools := (s.cache.pools.filter (fun e => e.2.exists_ && e.2.boundOnly)).map fun e =>
      (e.1, [e.2.die, e.2.frames, e.2.base, e.2.shelfBytes, e.2.heads, e.2.d, e.2.fmt, e.2.altDie, e.2.archiveLink,
        e.2.archiveRing])
    seqs := (s.cache.seqs.filter (fun e => e.2.bound)).map fun e =>
      (e.1, [e.2.pool, e.2.priority, e.2.layers, e.2.window], [e.2.graph, e.2.perFrame]) }

/-- The highest generation in the keeper stores. -/
def State.generation (s : State) : Nat :=
  s.recovery.keepers.foldl (fun a e => match e.2.record with
    | some r => max a r.generation
    | none => a) 0

/-- R420: write the restart record into the keeper store of every live Talxon die. -/
def State.writeRecord (s : State) : State :=
  let r := s.makeRecord (s.generation + 1)
  { s with recovery := { s.recovery with
      keepers := [0, 1, 2, 3].foldl (fun t d =>
        if s.dieFenced d then t else tblMod {} t d (fun k => { k with record := some r })) s.recovery.keepers } }

end Sys2Proof.Machine
end

