-- ==== Sys2Proof/Machine/CacheEngine.lean ====
section
/-! DEFINITION. The catalogue's work for open frames: appends that grow, copy or stall (R157, R170, R183, R186), victims and
archives (R187, R188, R191), the end of a frame's appends (R171), and a pool or range that is lost (R165, R167, R193). -/

namespace Sys2Proof.Machine

/-! ### Victims and archives (R186 … R188) -/

/-- Whether a sequence maps a shelf with refs 1. -/
def ShelfCache.hasOwnShelf (c : ShelfCache) (q : Nat) : Bool :=
  (List.range (c.seq q).layers).any fun l => (c.list q l).entries.any fun e => (c.shelf e.2).refs == 1

/-- A candidate of R186 other than the requester. -/
def ShelfCache.candidate (c : ShelfCache) (pool q : Nat) : Bool :=
  let r := c.seq q
  r.pool == pool && r.st == .LIVE && !r.bound && c.hasOwnShelf q

/-- R186: a victim before another: the lower priority, then the higher admit_stamp. -/
def victimBefore (c : ShelfCache) (a b : Nat) : Bool :=
  (c.seq a).priority < (c.seq b).priority || ((c.seq a).priority == (c.seq b).priority && (c.seq b).admission < (c.seq a).admission)

/-- The victim that comes first. -/
def bestVictim (c : ShelfCache) : List Nat → Option Nat
  | [] => none
  | q :: r => match bestVictim c r with
    | some b => if victimBefore c b q then some b else some q
    | none => some q

/-- R186: the victim of a requester; the requester only when it is the only candidate. -/
def ShelfCache.victim (c : ShelfCache) (pool requester : Nat) : Option Nat :=
  bestVictim c ((c.seqs.map (·.1)).filter (fun q => q != requester && c.candidate pool q))

/-- Cut every layer of a sequence back to its committed length (R171). -/
def ShelfCache.cutSeq (c : ShelfCache) (q : Nat) : ShelfCache :=
  (List.range (c.seq q).layers).foldl (fun c l => c.cutLayer q l (c.seq q).length ((c.list q l).entries.length + 1)) c

/-- The next shelf of an archive: its layer and handle; shelves already out have left the lists (R187). -/
def ShelfCache.nextOut (c : ShelfCache) (j : ArchiveJob) : Option (Nat × Nat) :=
  (List.range (c.seq j.seq).layers).findSome? fun l =>
    if l < j.layer then none else (c.list j.seq l).entries.head?.map (fun e => (l, e.2))

/-- The end of an archive: ARCHIVED with its chunks and digest; an entry that was its own victim is PREEMPTED (R188,
R192). -/
def endArchive (s : State) (j : ArchiveJob) : State :=
  let c := s.cache.modSeq j.seq fun r => { r with st := .ARCHIVED, chunks := j.chunk, digest := (shake256 j.data).take 16 }
  let s1 := s.setCache { c with archives := c.archives.filter (fun x => x.seq != j.seq) }
  match j.own with
  | none => s1
  | some (g, f, e) => s1.modFrame g f fun fr =>
      { fr with steps := fr.steps.map fun es => es.modify e (fun x => { x with status := Status.PREEMPTED, live := false }) }

/-- Start the archive of a sequence: ARCHIVING, epoch + 1 (R187). -/
def startArchive (s : State) (q : Nat) (own : Option (Nat × Nat × Nat)) : State :=
  let r := s.cache.seq q
  let j : ArchiveJob := { seq := q, pool := r.pool, own := own }
  let c := s.cache.modSeq q fun r => { r with st := .ARCHIVING, epoch := (r.epoch + 1) % 2 ^ 32 }
  let s1 := s.setCache { c with archives := c.archives ++ [j] }
  if (s1.cache.nextOut j).isNone then endArchive s1 j else s1

/-- R186, R188: pre-empt a victim for a stalled requester, when no archive of the pool is running. The requester that is
its own victim is cut back first. -/
def preempt (s : State) (pa : PendingAppend) : State :=
  let pool := (s.cache.seq pa.seq).pool
  if s.cache.archives.any (fun j => j.pool == pool) ∨ (s.cache.seq pa.seq).bound then s
  else
    let count (s : State) := s.setCache (s.cache.modCat (s.cache.pool pool).die fun k =>
      { k with preempt := min (k.preempt + 1) 0xFFFFFFFF })
    match s.cache.victim pool pa.seq with
    | some v => startArchive (count s) v none
    | none =>
      if s.cache.hasOwnShelf pa.seq then
        let c := s.cache.cutSeq pa.seq
        let s1 := count (s.setCache { c with
          appends := c.appends.filter (fun x => x.seq != pa.seq), stalls := c.stalls.filter (fun x => x.seq != pa.seq) })
        startArchive s1 pa.seq (some (pa.graph, pa.frame, pa.entry))
      else s

/-! ### Appends (R170, R183) -/

/-- Whether a pending append is this one. -/
def PendingAppend.same (a b : PendingAppend) : Bool :=
  a.graph == b.graph && a.frame == b.frame && a.entry == b.entry && a.layer == b.layer && a.seq == b.seq

/-- Write K and V runs of an append. -/
def writeRuns (s : State) (ws : List (Nat × List Byte)) (poison : Bool) : State :=
  ws.foldl (fun s w => s.writeMem w.1 w.2 poison) s

/-- An append that finds no space stalls, and a victim is chosen (R186). -/
def stallAppend (s : State) (pa : PendingAppend) (timeoutMs : Nat) : State :=
  let has := s.cache.stalls.any (fun t => t.seq == pa.seq && t.layer == pa.layer)
  let s1 := if has then s else { s with cache := { s.cache with stalls := s.cache.stalls ++
    [{ graph := pa.graph, frame := pa.frame, entry := pa.entry, seq := pa.seq, layer := pa.layer, since := s.now
       restarted := s.now, timeoutMs := timeoutMs }] } }
  preempt s1 pa

/-- The stall of an append ends: its time counts in CAT_STALL_US. -/
def endStall (s : State) (pa : PendingAppend) : State :=
  match s.cache.stalls.find? (fun t => t.seq == pa.seq && t.layer == pa.layer) with
  | none => s
  | some t =>
    let d := (s.cache.pool (s.cache.seq pa.seq).pool).die
    let c := s.cache.modCat d fun k => { k with stallUs := min (k.stallUs + (s.now - t.since)) 0xFFFFFFFF }
    { s with cache := { c with stalls := c.stalls.filter (fun x => !(x.seq == pa.seq && x.layer == pa.layer)) } }

/-- R183 steps 1 and 2: allocate the private shelf as COPYING and pin the source; none without space. -/
def startCopy (c : ShelfCache) (pa : PendingAppend) : Option ShelfCache :=
  let l := c.list pa.seq pa.layer
  match l.entries.getLast?, c.growList pa.seq pa.layer .COPYING true with
  | some (_, src), some (c1, h) =>
    if classTokens (c1.shelf h).cls < (c.shelf src).tokens then none
    else
    let c2 := (c1.pin src).modCat (c1.pool (c1.seq pa.seq).pool).die fun k => { k with cow := (k.cow + 1) % 2 ^ 32 }
    some { c2 with cows := c2.cows ++ [{ seq := pa.seq, layer := pa.layer, index := l.entries.length - 1, source := src
                                         dest := h, graph := pa.graph, frame := pa.frame, entry := pa.entry }] }
  | _, _ => none

/-- Carry a pending append on: append what fits, copy a shared shelf, or stall (R170, R183, R186). A copy that is already
running is waited for. -/
def runAppend (s : State) (timeoutMs : Nat) (pa : PendingAppend) : State :=
  if s.cache.cows.any (fun x => x.seq == pa.seq && x.layer == pa.layer) then s
  else
    let p := s.cache.pool (s.cache.seq pa.seq).pool
    let tb := p.tokenBytes
    let (c1, ws, k, r) := s.cache.appendMany pa.seq pa.layer tb (pa.total - pa.done) (pa.kv.drop (pa.done * tb))
    let pa1 := { pa with done := pa.done + k }
    let c2 := { c1 with appends := mapWhere (fun x => x.same pa) (fun x => { x with done := pa1.done }) c1.appends }
    let s1 := writeRuns (s.setCache c2) ws pa.poison
    match r with
    | .done => endStall s1 pa
    | .queued => s1
    | .needSpace => stallAppend s1 pa1 timeoutMs
    | .copying =>
      match startCopy s1.cache pa1 with
      | some c3 => (endStall s1 pa).setCache c3
      | none => stallAppend s1 pa1 timeoutMs

/-- The cache timeout of a frame's step (R168). -/
def State.cacheTimeout (s : State) (g f : Nat) : Nat := ((s.frame? g f).map (·.cacheTimeoutMs)).getD 20

/-- Serve every append that has positions left: stalled requesters in the order their stalls began, then the others
(R187). -/
def serveAppends (s : State) : State :=
  let pend := s.cache.appends.filter (fun a => a.done < a.total)
  let first := s.cache.stalls.filterMap fun t => pend.find? (fun a => a.seq == t.seq && a.layer == t.layer)
  let rest := pend.filter (fun a => !first.any (fun x => x.same a))
  (first ++ rest).foldl (fun s a =>
    match s.cache.appends.find? (fun x => x.same a) with
    | some b => runAppend s (s.cacheTimeout b.graph b.frame) b
    | none => s) s

/-! ### The end of a frame (R171) -/

/-- Commit a sequence's appends: the length rises, the window slides and shelves below it are unmapped. -/
def commitSeq (c : ShelfCache) (q n : Nat) : ShelfCache :=
  let c1 := c.modSeq q fun r =>
    let len := r.length + n
    { r with length := len, basePos := if r.window ≠ 0 then max r.basePos (len - r.window) else r.basePos }
  if (c1.seq q).window = 0 then c1
  else (List.range (c1.seq q).layers).foldl
    (fun c l => c.unmapBelow q l (c.seq q).basePos ((c.list q l).entries.length)) c1

/-- The sequences of a frame with the positions each appends: its step entries that stayed, or the sequences bound to its
graph (R171). -/
def State.frameSeqs (s : State) (g : Nat) (fr : Frame) : List (Nat × Nat × Nat) :=
  match fr.steps with
  | some es => ((List.range es.length).filterMap fun i => es[i]?.bind fun e => if e.live then some (e.seq, e.newTokens, i) else none)
  | none => (s.cache.seqs.filter (fun e => e.2.bound && e.2.graph == g)).map (fun e => (e.1, e.2.perFrame, 0))

/-- R171: at a frame's end its sequences are committed or cut back, and leave the step. -/
def endFrameSeqs (s : State) (g : Nat) (fr : Frame) (commit : Bool) : State :=
  let qs := s.frameSeqs g fr
  let c0 := { s.cache with
    appends := s.cache.appends.filter (fun a => !(a.graph == g && a.frame == fr.num))
    stalls := s.cache.stalls.filter (fun a => !(a.graph == g && a.frame == fr.num)) }
  let c1 := qs.foldl (fun c x =>
    let c2 := if commit then commitSeq c x.1 x.2.1 else c.cutSeq x.1
    c2.modSeq x.1 fun r => { r with st := if r.st = .IN_STEP then .LIVE else r.st }) c0
  serveAppends (s.setCache c1)

/-! ### Losses (R167, R193, R204) -/

/-- Every shelf that touches a lost range becomes QUARANTINED (R165, R167). -/
def quarantineCat (lo hi : Nat) (pools : Tbl Pool) (k : CatState) : CatState :=
  { k with shelves := k.shelves.map fun e =>
      let p := tblGet {} pools e.2.pool
      let n := p.shelfBytes * classTokens e.2.cls / 256
      (e.1, if e.2.addr < hi ∧ lo < e.2.addr + n then { e.2 with st := .QUARANTINED, flags := Nat.lor e.2.flags 4 } else e.2) }

/-- FREE frames in a lost range leave their pool (R204). -/
def Pool.loseFrames (p : Pool) (lo hi : Nat) : Pool :=
  (List.range p.frames).foldl (fun p f =>
    let a := p.base + f * p.shelfBytes
    if p.frameState f = .free ∧ a < hi ∧ lo < a + p.shelfBytes then { p with use := tblSet .free p.use f .lost } else p) p

/-- The pools of a die are lost: their sequences become LOST; a bound_only pool starts again empty on its alternate die
with its bound sequences empty (R193). `alive` says which dies may hold it. -/
def losePools (s : State) (d : Nat) (alive : Nat → Bool) : State :=
  let gone : Tbl Pool := s.cache.pools.filter (fun e => e.2.exists_ && e.2.die == d)
  let moved (p : Pool) : Bool := p.boundOnly && p.altDie != 0xFF && alive p.altDie
  let inGone (q : Nat) : Bool := gone.any (fun g => g.1 == (s.cache.seq q).pool)
  let pools : Tbl Pool := gone.foldl (fun t e => tblSet {} t e.1 (if moved e.2 then
      { e.2 with die := e.2.altDie, base := e.2.base % 0x400000000 + e.2.altDie * 0x400000000, altDie := 0xFF, use := [] }
    else {})) s.cache.pools
  let seqs : Tbl SeqRec := s.cache.seqs.map fun e =>
    if e.2.st ≠ SeqSt.CLOSED ∧ inGone e.1 then
      (e.1, if moved (s.cache.pool e.2.pool) then { e.2 with length := 0, basePos := 0, st := SeqSt.LIVE }
        else { e.2 with st := SeqSt.LOST })
    else e
  let c1 : ShelfCache := { s.cache with
    cats := tblSet {} s.cache.cats d { s.cache.cat d with shelves := [], lists := [], usedRuns := [] }
    pools := pools
    seqs := seqs
    archives := s.cache.archives.filter (fun j => !gone.any (fun g => g.1 == j.pool))
    restores := s.cache.restores.filter (fun j => !inGone j.seq) }
  let lost := s.cache.seqs.filter (fun e => e.2.st ≠ SeqSt.CLOSED && inGone e.1 && !moved (s.cache.pool e.2.pool))
  let s1 := lost.foldl (fun (s : State) e => s.log .SEQ_LOST d [e.1]) { s with cache := c1 }
  (gone.filter (fun g => moved g.2)).foldl (fun (s : State) g => s.log .SHELF_POOL_RESET d [g.1]) s1

end Sys2Proof.Machine
end

