-- ==== Sys2Proof/Machine/EdgeNeeds.lean ====
section
/-! DEFINITION. What the sensor bindings (R306), the prism (R334, R335) and the planner (R350) need of the edges they are
set to: the registers that say so, and the checks made at GRAPH_LOAD and at an enable. -/

namespace Sys2Proof.Machine

/-! ### Stream and binding set-up (R309) -/

/-- A register of a hub's intake for stream, binding or port `u`. -/
def State.sinReg (s : State) (h : Nat) (r : Reg) (u : Nat) (w : Nat := 0) : Word := s.reg (ra r h u w)
/-- A field of such a register. -/
def State.sinField (s : State) (h : Nat) (r : Reg) (u hi lo : Nat) : Nat := bits (s.sinReg h r u) hi lo

/-- A stream is enabled. -/
def State.streamOn (s : State) (h u : Nat) : Bool := s.sinField h .SIN_S_CFG u 31 31 == 1
/-- A stream takes its samples from the host. -/
def State.streamHost (s : State) (h u : Nat) : Bool := s.sinField h .SIN_S_CFG u 30 30 == 1
/-- The format code of a stream (R288). -/
def State.streamFmt (s : State) (h u : Nat) : Nat := s.sinField h .SIN_S_CFG u 22 16
/-- A raw format of one component. -/
def rawFmt (f : Nat) : Bool := 1 ≤ f && f ≤ 4
/-- A mono stream: a raw format whose cfa is 4. -/
def State.streamMono (s : State) (h u : Nat) : Bool := rawFmt (s.streamFmt h u) && s.sinField h .SIN_S_CFG u 27 24 == 4
/-- The planes of a stream's samples: P of R306. -/
def State.streamPlanes (s : State) (h u : Nat) : Nat := if s.streamMono h u then 1 else 3
/-- max_w and max_h. -/
def State.streamMax (s : State) (h u : Nat) : Nat × Nat :=
  (s.sinField h .SIN_S_SIZE u 15 0, s.sinField h .SIN_S_SIZE u 31 16)

/-- A binding (R306, R309). -/
structure Binding where
  en : Bool
  spotEn : Bool
  augEn : Bool
  spotGraph : Nat
  graph : Nat
  fmt : Nat
  stream : Nat
  baseEdge : Nat
  spotEdge : Nat
  baseW : Nat
  baseH : Nat
  spotW : Nat
  spotH : Nat
  slots : Nat
  band : Nat
  deriving DecidableEq, Repr

/-- Binding `b` of hub `h`, with its CFG register as given. -/
def State.bindingOf (s : State) (h b : Nat) (cfg : Word) : Binding :=
  { en := bits cfg 31 31 == 1, spotEn := bits cfg 30 30 == 1, augEn := bits cfg 29 29 == 1, spotGraph := bits cfg 23 18
    graph := bits cfg 17 12, fmt := bits cfg 11 8, stream := bits cfg 3 0
    baseEdge := s.sinField h .SIN_B_EDGES b 15 0, spotEdge := s.sinField h .SIN_B_EDGES b 31 16
    baseW := s.sinField h .SIN_B_BASE b 15 0, baseH := s.sinField h .SIN_B_BASE b 31 16
    spotW := s.sinField h .SIN_B_SPOT b 11 0, spotH := s.sinField h .SIN_B_SPOT b 22 12
    slots := s.sinField h .SIN_B_SPOT b 29 23, band := s.sinField h .SIN_B_BAND b 10 0 }

/-- Binding `b` of hub `h`. -/
def State.binding (s : State) (h b : Nat) : Binding := s.bindingOf h b (s.sinReg h .SIN_B_CFG b)

/-- A tile that an edge gets from the intake or the prism: its format, rows and columns. -/
structure TileShape where
  fmt : Nat
  rows : Nat
  cols : Nat
  deriving DecidableEq, Repr

/-- Bytes of a tile of a shape, header and padding included (R124). -/
def TileShape.bytes (t : TileShape) : Nat := 128 + t.rows * rowBytes ((Fmt.ofCode t.fmt).getD .none) t.cols

/-- What an edge must be: its format, tiles per frame and largest tile. -/
structure EdgeNeed where
  graph : Nat
  edge : Nat
  fmt : Nat
  tiles : Nat
  largest : Nat
  deriving DecidableEq, Repr

/-- The shapes of the base tiles of a camera binding in order: plane, then band. -/
def Binding.baseShapes (b : Binding) (planes : Nat) : List TileShape :=
  let n := (b.baseH + b.band - 1) / b.band
  (List.range planes).flatMap fun _ => (List.range n).map fun i =>
    { fmt := b.fmt, rows := min b.band (b.baseH - i * b.band), cols := b.baseW }

/-- The shapes of the spotlight tiles: the region table, then slot by slot each plane. -/
def Binding.spotShapes (b : Binding) (planes : Nat) : List TileShape :=
  { fmt := 0xA, rows := 64, cols := 8 } ::
    List.replicate (b.slots * planes) { fmt := b.fmt, rows := b.spotH, cols := b.spotW }

/-- The shapes of a points edge of `n` points and `cols` columns (R306, R334). -/
def pointShapes (n cols : Nat) : List TileShape :=
  (List.range ((n + 1023) / 1024)).map fun i => { fmt := 9, rows := min 1024 (n - 1024 * i), cols := cols }

/-- The need of an edge that carries tiles of these shapes. -/
def needOf (g e fmt : Nat) (ts : List TileShape) : EdgeNeed :=
  { graph := g, edge := e, fmt := fmt, tiles := ts.length, largest := ts.foldl (fun a t => max a t.bytes) 0 }

/-- The edges of a binding (R306): points streams have one, cameras a base and, with spot_en, a spotlight edge. -/
def State.bindingNeeds (s : State) (h : Nat) (b : Binding) : List EdgeNeed :=
  let p := s.streamPlanes h b.stream
  if s.streamFmt h b.stream = 0x20 then
    let m := s.streamMax h b.stream
    [needOf b.graph b.baseEdge 9 (pointShapes (m.1 * m.2) 8)]
  else
    needOf b.graph b.baseEdge b.fmt (b.baseShapes p) ::
      (if b.spotEn then [needOf b.graph b.spotEdge b.fmt (b.spotShapes p)] else [])

/-- The number of cameras in a mask. -/
def popCount (m n : Nat) : Nat := ((List.range n).filter (bitN m)).length

/-- The hub-local stream of a hub's point stream `l` of the prism: 8 + l (R344). -/
def prismStream (l : Nat) : Nat := 8 + l

/-- The edges of the prism's point stream `l`, with its CFG register as given (R334). -/
def State.pointNeeds (s : State) (h l : Nat) (cfg : Word) : List EdgeNeed :=
  let m := s.streamMax h (prismStream l)
  let n := m.1 * m.2
  let e := s.reg (ra .PRM_L_EDGES h l)
  let g := bits cfg 29 24
  (if bits e 15 0 = 0xFFFF then [] else [needOf g (bits e 15 0) 9 (pointShapes n 8)]) ++
  (if bits e 31 16 = 0xFFFF then [] else
    [needOf g (bits e 31 16) 9 ((List.replicate (popCount (bits cfg 15 0) 16) (pointShapes n 4)).flatten)])

/-- The edge of the bird's-eye table, with PRM_CFG as given (R335). -/
def State.bevNeed (s : State) (h : Nat) (cfg : Word) : EdgeNeed :=
  let sz := s.reg (ra .PRM_BEV_SIZE h)
  needOf (bits cfg 29 24) (s.field (ra .PRM_BEV_EDGE h) 15 0) 9
    (List.replicate ((bits cfg 18 16 + 1) * bits sz 26 16) { fmt := 9, rows := bits sz 10 0, cols := 8 })

/-- R306: an edge that does not meet a need. -/
def EdgeNeed.bad (b : Bundle) (n : EdgeNeed) : Bool :=
  let e := nth {} b.edges n.edge
  b.edges.length ≤ n.edge || e.kind != 0 || e.producer != 0xFFFF || e.fmt != n.fmt || e.frameTiles != n.tiles ||
  e.slotBytes < n.largest || b.header.trigger != 1

/-- Every edge that an enabled binding, point stream or bird's-eye table of graph `g` needs. -/
def State.edgeNeeds (s : State) (g : Nat) : List EdgeNeed :=
  ([0, 1].flatMap fun h =>
    ((List.range 16).flatMap fun b =>
      let x := s.binding h b
      if x.en then s.bindingNeeds h x else []) ++
    ((List.range 4).flatMap fun l =>
      let c := s.reg (ra .PRM_L_CFG h l)
      if c.getLsbD 31 then s.pointNeeds h l c else []) ++
    (let c := s.reg (ra .PRM_CFG h)
     if c.getLsbD 31 then [s.bevNeed h c] else [])).filter (fun n => n.graph == g)

/-- R350: the edition edge of a graph is a BUFFER edge with consumer 0xFFFF whose buffer holds four copies. -/
def editionEdgeBad (b : Bundle) (ei : Nat) : Bool :=
  let e := nth {} b.edges ei
  b.edges.length ≤ ei || e.kind != 1 || e.consumer != 0xFFFF || (nth {} b.buffers e.buffer).bytes < 4 * 0x1001000

/-- The edges that set-up needs of a bundle at its load (R306, R350): TDE_LOAD_ERR names section 3 and the edge. -/
def State.setupFail (s : State) (g : Nat) (b : Bundle) : Option LoadFail :=
  match (s.edgeNeeds g).find? (fun n => n.bad b) with
  | some n => some { status := Status.BAD_PACKET, sec := 3, entry := n.edge }
  | none => [0, 1].findSome? fun h =>
    let c := s.reg (ra .PLN_CFG h)
    if c.getLsbD 31 ∧ bits c 29 24 = g ∧ editionEdgeBad b (bits c 15 0) then
      some { status := Status.BAD_PACKET, sec := 3, entry := bits c 15 0 }
    else none

end Sys2Proof.Machine
end

