-- ==== Sys2Proof/Machine/Graph.lean ====
section
/-! DEFINITION. Graphs and frames: GRAPH_LOAD and unload (R112 … R119), admission (R128, R168, R169), firing with its appends
and lane tables (R129, R170, R176, R179, R181), tiles, credits and tokens (R125 … R127, R131), versions (R136, R153) and
frame timeouts (R139). -/

namespace Sys2Proof.Machine

/-! ### Packets of one type -/

/-- The packet that a row of packet type `type` works on: at the front of its ring and not yet held (R247). -/
def State.packet (s : State) (link sq type : Nat) : Option Packet :=
  match s.front link sq with
  | some p => if p.type = type ∧ (s.sq link sq).run ≠ .HELD then some p else none
  | none => none

/-! ### GRAPH_LOAD (R114, R115, R117, R256) -/

/-- The image copies that a GRAPH_LOAD names. -/
def loadCopies (p : Packet) : List Nat :=
  leAt p.header 24 8 :: (if bitN (leAt p.header 20 1) 0 then [leAt p.header 32 8] else [])

/-- A completion ring that a graph may complete on: a valid one is enabled and is no archive ring (R256). -/
def State.outBad (s : State) (v : Nat) : Bool :=
  bitN v 6 && (!(s.cq (v / 128) (v % 64)).enabled || s.isArchiveRing (v / 128) (v % 64))

/-- The checks on the packet itself (R115, R256). -/
def State.loadArgs (s : State) (p : Packet) : List (Bool × Nat) :=
  let h := p.header
  let len := leAt h 40 8
  [bad (63 < leAt h 16 1), bad (leAt h 17 1 ≠ 0), bad (1 < leAt h 20 1), bad (!zeroFrom h 21 3 || !zeroFrom h 48 16),
   bad (!p.payload.isEmpty), zeroF (len = 0), bad ((s.graph? (leAt h 16 1)).isSome),
   bad ((loadCopies p).any fun a => a % 4096 != 0 || !inHbm a len), bad (s.outBad (leAt h 18 1)), bad (s.outBad (leAt h 19 1))]

/-- R114: the digest over the span of sections 1 … 9. -/
def digestOk (m : Img) : Bool :=
  let (o, _) := m.section_ 1
  let (o9, n9) := m.section_ 9
  shake256 (m o (o9 + n9 - o)) == m 8 32

/-- A copy of an image that reads without poison, when there is one (R107, R117). -/
def State.liveCopy (s : State) (as : List Nat) (len : Nat) : Option Nat := as.find? fun a => !s.rangePoison a len

/-- R115, R256: what the image's header asks of the packet. -/
def loadNeeds (p : Packet) (b : Bundle) : Option LoadFail :=
  let twoDies := match loadCopies p with
    | [a, c] => stackOf a != stackOf c
    | _ => false
  if b.header.safety = 1 ∧ twoDies = false then some { status := Status.BAD_PACKET, sec := 0 }
  else if b.header.trigger = 1 ∧ ¬ bitN (leAt p.header 18 1) 6 then some { status := Status.BAD_PACKET, sec := 0 }
  else none

/-- Steps 1 … 4 of R117: the first check that fails. -/
def State.loadFail (s : State) (p : Packet) (m : Img) (b : Bundle) : Option LoadFail :=
  let g := leAt p.header 16 1
  if digestOk m then
    ((((contentFail m b g (leAt p.header 40 8)).orElse fun _ => loadNeeds p b).orElse fun _ => s.setupFail g b).orElse
      fun _ => rankFail b).orElse fun _ => placementFail b (s.graphs.graphs.map (·.bundle))
  else some { status := Status.BAD_PACKET, sec := 0 }

/-- A load that fails: TDE_LOAD_ERR on the die of image copy 0, and the completion with that value and die (R117, R255). -/
def State.refuseLoad (s : State) (p : Packet) (f : LoadFail) : State :=
  let d := stackOf (leAt p.header 24 8) % 4
  ((s.setReg (ra .TDE_LOAD_ERR d) (word f.code)).takeFinish p f.status (toLe 4 f.code ++ toLe 1 d))

/-- The graph that a GRAPH_LOAD makes. -/
def Packet.newGraph (p : Packet) (b : Bundle) (m : Img) : Graph :=
  { num := leAt p.header 16 1, image0 := leAt p.header 24 8
    image1 := if bitN (leAt p.header 20 1) 0 then some (leAt p.header 32 8) else none
    imageLen := leAt p.header 40 8, args := p.header.drop 16, digest := m 8 32, out := leAt p.header 18 1
    out2 := leAt p.header 19 1, bundle := b }

/-- GRAPH_LOAD op LOAD (R117). -/
def State.graphLoad (s : State) (p : Packet) : State :=
  match firstBadStatus (s.loadArgs p) with
  | some st => s.refuseLoad p { status := st, sec := 0 }
  | none =>
    match s.liveCopy (loadCopies p) (leAt p.header 40 8) with
    | none => s.refuseLoad p { status := Status.DATA_POISON, sec := 0 }
    | some a =>
      let m := s.image a
      let b := m.bundle
      match s.loadFail p m b with
      | some f =>
        let s1 := if digestOk m then s else s.log .BUNDLE_DIGEST (stackOf a) [leAt p.header 16 1]
        let s2 := if digestOk m ∧ b.header.checking = 1 ∧ b.header.policy = 1 then
          s1.log .WIDEN_POLICY_CONFLICT (stackOf a) [leAt p.header 16 1] else s1
        s2.refuseLoad p f
      | none => ((installGraph s (p.newGraph b m) m).writeRecord).takeFinish p Status.OK

/-! ### Unloading (R119) -/

/-- Frames of a graph that wait for admission are not admitted any more: their packets complete with a code. -/
def State.dropRequests (s : State) (g code : Nat) : State :=
  let rs := s.graphs.requests.filter (fun r => r.graph == g)
  let s1 := { s with graphs := { s.graphs with requests := s.graphs.requests.filter (fun r => r.graph != g) } }
  rs.foldl (fun s r => if r.sq = 0xFF then s else match s.front r.link r.sq with
    | some p => s.takeFinish p code
    | none => s) s1

/-- GRAPH_LOAD op UNLOAD: admission stops at once (R119). -/
def State.graphUnload (s : State) (p : Packet) : State :=
  let g := leAt p.header 16 1
  match s.graph? g with
  | none => s.takeFinish p Status.BAD_PACKET
  | some gr =>
    if gr.state = .unloading ∨ p.argsOnly 18 = false then s.takeFinish p Status.BAD_PACKET
    else
      let s1 := match gr.waiter with
        | some w => s.finish w Status.NOT_READY
        | none => s
      ((s1.take p).modGraph g fun gr => { gr with state := .unloading, waiter := some p }).dropRequests g Status.BAD_PACKET

/-- One version of a TENSOR_PUT is known everywhere; the last one completes the packet (R136). -/
def State.putDone (s : State) (id : Nat) : State :=
  match takeFirst (fun (x : Nat × Packet × Nat) => x.1 == id) s.hif.puts with
  | none => s
  | some ((_, p, n), rest) =>
    if n ≤ 1 then { s with hif := { s.hif with puts := rest } }.finish p Status.OK
    else { s with hif := { s.hif with puts := rest ++ [(id, p, n - 1)] } }

/-- What a version rise releases (R136). -/
def State.releaseVersion (s : State) (t : VersionThen) : State :=
  match t with
  | .token t => s.sendToken t
  | .put id => s.putDone id
  | .fold => s
  | .record => s

/-- The unload ends once the last open frame has completed (R119). -/
def State.graphUnloadDone (s : State) (g : Nat) : State :=
  match s.graph? g with
  | none => s
  | some gr =>
    if gr.state = .unloading ∧ gr.frames = [] then
      let s0 := (s.graphs.versions.filter (fun v => v.graph == g)).foldl (fun s v => s.releaseVersion v.then_) s
      let s1 := (s0.removeGraph g).writeRecord
      match gr.waiter with
      | some p => s1.finish p Status.OK
      | none => s1
    else s

/-! ### Asking for a frame (R128, R168) -/

/-- A GRAPH_RUN or SEQ_STEP for a graph that cannot take one: not loaded, unloading, or started by frame sets (R119,
R128). -/
def State.runBad (s : State) (g : Nat) : Bool :=
  match s.graph? g with
  | none => true
  | some gr => gr.state == .unloading || gr.bundle.header.trigger != 0

/-- A request for a frame waits at the front end, its packet holding its ring (R128). -/
def State.request (s : State) (p : Packet) (r : FrameReq) : State :=
  { s with graphs := { s.graphs with requests := s.graphs.requests ++ [r] } }.hold p

/-- GRAPH_RUN (R128). -/
def State.graphRun (s : State) (p : Packet) : State :=
  let g := leAt p.header 16 1
  if s.runBad g ∨ p.argsOnly 17 = false then s.takeFinish p Status.BAD_PACKET
  else s.request p { graph := g, link := p.link, sq := p.sq, tag := p.tag, epoch := p.epoch }

/-- The entries of a SEQ_STEP (R168). -/
def stepEntries (p : Packet) : List StepEntry :=
  (List.range (leAt p.payload 2 2)).map fun j =>
    { seq := leAt p.payload (16 + 8 * j) 2, newTokens := leAt p.payload (18 + 8 * j) 2
      inputRow := leAt p.payload (20 + 8 * j) 4 }

/-- A SEQ_STEP whose layout is broken (R168, R252). -/
def stepBad (p : Packet) : Bool :=
  let n := leAt p.payload 2 2
  !zeroFrom p.header 16 48 || p.payload.isEmpty || 63 < leAt p.payload 0 1 || 4096 < n || 1000 < leAt p.payload 4 2 ||
  !zeroFrom p.payload 1 1 || !zeroFrom p.payload 6 10 || (n != 0 && p.payload.length < 16 + 8 * n) ||
  !zeroFrom p.payload (16 + 8 * n) p.payload.length

/-- SEQ_STEP (R168). -/
def State.seqStep (s : State) (p : Packet) : State :=
  if stepBad p then s.takeFinish p Status.BAD_PACKET
  else if leAt p.payload 2 2 = 0 then s.takeFinish p Status.OK
  else
    let g := leAt p.payload 0 1
    if s.runBad g then s.takeFinish p Status.BAD_PACKET
    else s.request p
      { graph := g, link := p.link, sq := p.sq, tag := p.tag, epoch := p.epoch, steps := some (stepEntries p)
        cacheTimeoutMs := if leAt p.payload 4 2 = 0 then 20 else leAt p.payload 4 2 }

/-! ### Admission (R128, R169) -/

/-- The pool has the graph's attention shape (R169, R510). -/
def shapeMatches (p : Pool) (h : GraphHeader) : Bool :=
  p.heads == h.kvHeads && p.d == 32 * (h.headDim + 1) && p.fmt == h.attnFmt

/-- R169: the status with which an entry is removed; 0 when it stays. -/
def State.entryStatus (s : State) (gr : Graph) (es : List StepEntry) (e : StepEntry) : Nat :=
  let r := s.cache.seq e.seq
  if 1 < (es.filter (fun x => x.seq == e.seq)).length then Status.BAD_PACKET
  else
    match r.st with
    | .ARCHIVING | .ARCHIVED | .RESTORING | .LOST => Status.NOT_READY
    | .CLOSED | .IN_STEP => Status.BAD_PACKET
    | .LIVE =>
      if r.sealed_ ∨ r.bound then Status.BAD_PACKET
      else if e.newTokens = 0 then Status.ZERO_FIELD
      else if 4096 < e.newTokens ∨ 131072 < r.length + e.newTokens then Status.BAD_PACKET
      else if shapeMatches (s.cache.pool r.pool) gr.bundle.header then 0 else Status.BAD_PACKET

/-- The entries of a step after R169's checks. -/
def State.checkEntries (s : State) (gr : Graph) (es : List StepEntry) : List StepEntry :=
  es.map fun e => let st := s.entryStatus gr es e; { e with status := st, live := st == 0 }

/-- R172: the 16 B block and the 4 B per entry. -/
def stepBlock (es : List StepEntry) : List Byte :=
  toLe 2 es.length ++ toLe 2 (es.filter (fun e => e.status == Status.PREEMPTED)).length ++ toLe 12 0 ++
  es.flatMap (fun e => toLe 2 e.seq ++ toLe 2 e.status)

/-- A step waits while another open frame holds one of its sequences (R169). -/
def State.stepWaits (s : State) (es : List StepEntry) : Bool :=
  es.any fun e => (s.cache.seq e.seq).st == .IN_STEP

/-- The frame that a request opens. -/
def FrameReq.frame (r : FrameReq) (num now : Nat) (es : Option (List StepEntry)) : Frame :=
  { num := num, openedAt := now, link := r.link, sq := r.sq, tag := r.tag, epoch := r.epoch, setGroup := r.setGroup, setNum := r.setNum
    missing := r.missing, closedAt := r.closedAt, steps := es, cacheTimeoutMs := r.cacheTimeoutMs
    codes := if r.missing = 0 then [] else [Status.STREAM_MISSING] }

/-- Open the frame of a request: its packet is taken, its sequences are held, and on an unplaceable graph it is INVALID
(R128, R151). Frame numbers of frame sets were given when the set was created (R318). -/
def State.openFrame (s : State) (gr : Graph) (r : FrameReq) (es : Option (List StepEntry)) : State :=
  let n := r.setFrame.getD gr.nextFrame
  let s1 := if r.sq = 0xFF then s else match s.front r.link r.sq with
    | some p => s.take p
    | none => s
  let s2 := s1.modGraph gr.num fun gr =>
    { gr with admittedAt := some s.now, frames := insertBy (·.num) (r.frame n s.now es) gr.frames
              nextFrame := if r.setFrame.isSome then gr.nextFrame else gr.nextFrame + 1 }
  let live := (es.getD []).filter (·.live)
  let c := live.foldl (fun c e => c.modSeq e.seq fun q => { q with st := .IN_STEP }) s2.cache
  let s3 := if live = [] then s2 else s2.setCache c
  if gr.unplaceable ∨ r.invalid then s3.withhold gr.num n Status.INVALID else s3

/-- A step of which no entry remains opens no frame: it completes with the highest code (R169). -/
def State.refuseStep (s : State) (r : FrameReq) (es : List StepEntry) : State :=
  match s.front r.link r.sq with
  | none => s
  | some p =>
    (s.take p).complete { kind := 0x80, link := p.link, cq := s.sqCq p.link p.sq, tag := p.tag, epoch := p.epoch
                          status := combineStatus (es.map (·.status)), cmdType := 0x02, sq := p.sq, graph := r.graph
                          payload := padTo 64 [] ++ stepBlock es }

/-- R450: a graph that is not safety-relevant is admitted at half its rate on shade level 1, and not at all from level 2 on. -/
def State.shadeAdmits (s : State) (gr : Graph) : Bool :=
  gr.bundle.header.safety == 1 || s.thermal.shade == 0 ||
  (s.thermal.shade == 1 && match gr.admittedAt with
    | some t => decide (t + 2 * gr.bundle.header.period ≤ s.now)
    | none => true)

/-- FRAME_ADMIT: the oldest request of a graph, once fewer than frames_in_flight frames are open (R128); a set's frames wait for
the version of its record (R323). -/
def State.frameAdmit (s : State) (g : Nat) : State :=
  match s.graph? g, s.graphs.requests.find? (fun r => r.graph == g) with
  | some gr, some r =>
    if gr.state = .running ∧ ¬ s.graphs.folding ∧ s.shadeAdmits gr ∧ gr.frames.length < gr.bundle.header.inFlight ∧
        ¬ s.stepWaits (r.steps.getD []) ∧
        (r.setFrame = none ∨ ¬ s.graphs.versions.any (fun v => v.graph == g && v.then_ == .record)) then
      let rest := ((takeFirst (fun r => r.graph == g) s.graphs.requests).map (·.2)).getD []
      let s1 := { s with graphs := { s.graphs with requests := rest } }
      match r.steps with
      | none => s1.openFrame gr r none
      | some es =>
        let es1 := s1.checkEntries gr es
        if es1.any (·.live) then s1.openFrame gr r (some es1) else s1.refuseStep r es1
    else s
  | _, _ => s

/-! ### Appends and lanes of an attention layer (R170, R179, R181) -/

/-- Start the appends of a layer that has not started (R170): one per sequence of the frame. -/
def startLayer (g f : Nat) (s : State) (a : AttnLayer) : State :=
  if s.cache.appends.any (fun x => x.graph == g && x.frame == f && x.layer == a.layer) then s
  else
    match s.frame? g f with
    | none => s
    | some fr =>
      let qs := s.frameSeqs g fr
      let new := (List.range qs.length).map fun i =>
        let q := nth (0, 0, 0) qs i
        let tb := (s.cache.pool (s.cache.seq q.1).pool).tokenBytes
        ({ graph := g, frame := f, entry := q.2.2, seq := q.1, layer := a.layer, done := 0, total := q.2.1
           kv := padTo (q.2.1 * tb) (nth [] a.kv i) } : PendingAppend)
      new.foldl (fun s p => runAppend s (s.cacheTimeout g f) p)
        { s with cache := { s.cache with appends := s.cache.appends ++ new } }

/-- Every append of the given layers is done. -/
def State.layersDone (s : State) (g f : Nat) (ls : List AttnLayer) : Bool :=
  ls.all fun a => (s.cache.appends.filter (fun x => x.graph == g && x.frame == f && x.layer == a.layer)).all
    fun x => x.done == x.total

/-- A sequence of a layer as the lanes see it: (seq_id, new positions, base_pos, length, bucket as a power of 2). -/
structure LaneSeq where
  seq : Nat
  new : Nat
  base : Nat
  len : Nat
  bucket : Nat
  deriving DecidableEq, Repr

/-- R181 step 1: log2 of the bucket of a visible length, 8 … 16. -/
def bucketOf (n : Nat) : Nat := ((List.range 9).find? (fun i => n ≤ 2 ^ (8 + i))).getD 8 + 8

/-- The lane with the smallest sum, the lowest among equals. -/
def smallestLane : List Nat → Nat
  | [] => 0
  | l => (findIdx? (fun x => x == l.foldl min (l.headD 0)) l).getD 0

/-- R181 steps 2 and 3: the sequences of each lane, in the order of assignment. -/
def assignLanes (n : Nat) (qs : List LaneSeq) : List (List LaneSeq) :=
  let sorted := sortBy (fun q => 16 - q.bucket) qs
  (sorted.foldl (fun (a : List Nat × List (List LaneSeq)) q =>
    let i := smallestLane a.1
    (a.1.modify i (· + 2 ^ q.bucket), a.2.modify i (· ++ [q]))) (List.replicate n 0, List.replicate n [])).2

/-- The sequences of a frame as a layer's lanes take them. -/
def State.laneSeqs (s : State) (g : Nat) (fr : Frame) : List LaneSeq :=
  (s.frameSeqs g fr).map fun q =>
    let r := s.cache.seq q.1
    { seq := q.1, new := q.2.1, base := r.basePos, len := r.length, bucket := bucketOf (r.length + q.2.1 - r.basePos) }

/-- One descriptor (R176) of the lane table, with the visible positions it covers and whether it is fused. -/
structure LaneDesc where
  bytes : List Byte
  seq : Nat
  head : Nat
  fused : Bool
  deriving DecidableEq, Repr

/-- The walk entries of one head of a sequence (R179): K segments, then V segments. -/
def walkEntries (c : ShelfCache) (q layer head : Nat) : List (List Byte) :=
  let p := c.pool (c.seq q).pool
  let l := c.list q layer
  let segs := (l.entries.foldl (fun (a : Nat × List (Nat × Shelf)) e =>
    let x := c.shelf e.2
    (a.1 + x.tokens, a.2 ++ [(a.1, x)])) (l.start, [])).2
  [0, 1].flatMap fun kv => segs.map fun sg =>
    toLe 8 (sg.2.addr + (kv * p.heads + head) * classTokens sg.2.cls * p.rowBytes) ++ toLe 4 sg.1 ++ toLe 2 sg.2.tokens ++
    toLe 1 kv ++ toLe 1 0

/-- The descriptors of one sequence of a lane: per KV head, per part of at most 1,024 rows, per pass of 65,536 positions
(R176, R179 … R181). The walk areas follow one another from `walk`; answers the descriptors and the walk lines used. -/
def laneDescs (c : ShelfCache) (a : AttnLayer) (q : LaneSeq) (walk : Nat) : List LaneDesc × Nat × List (Nat × List Byte) :=
  let heads := (c.pool (c.seq q.seq).pool).heads
  let per := if a.group = 0 then 1024 else 1024 / a.group
  let parts := (q.new + per - 1) / per
  let passes := max 1 ((q.len + q.new - q.base + 65535) / 65536)
  (List.range heads).foldl (fun acc h =>
    let fused := 64 < q.new * a.group
    let es := walkEntries c q.seq a.layer h
    let line := walk + acc.2.1
    let ds := (List.range parts).flatMap fun i =>
      let n := min per (q.new - i * per)
      (List.range passes).map fun k =>
        ({ bytes := toLe 2 q.seq ++ toLe 1 a.layer ++ toLe 1 h ++ toLe 2 (n * a.group) ++ toLe 1 a.group ++
             toLe 1 (b2n a.causal + 2 * b2n (0 < k) + 8 * (q.bucket - 8)) ++ toLe 4 (q.len + i * per) ++
             toLe 4 (if fused then line else 0)
           seq := q.seq, head := h, fused := fused } : LaneDesc)
    (acc.1 ++ ds, acc.2.1 + (if fused then (es.length + 7) / 8 else 0),
      acc.2.2 ++ (if fused then [(line, es.flatten)] else [])))
    ([], 0, [])

/-- Write the tables of the lanes on core `c` (R181 step 4) and the walk areas of their fused descriptors (R179); answers
the shelves that those descriptors pin. -/
def writeLanes (s : State) (g : Nat) (fr : Frame) (c : Nat) (a : AttnLayer) : State × List Nat :=
  let lanes := assignLanes a.lanes.length (s.laneSeqs g fr)
  ((List.range a.lanes.length).filter (fun i => (nth { core := 0, table := 0, walk := 0 } a.lanes i).core == c)).foldl
    (fun acc i =>
      let ln := nth { core := 0, table := 0, walk := 0 } a.lanes i
      let (ds, _, ws, pins) := (nth [] lanes i).foldl
        (fun (x : List LaneDesc × Nat × List (Nat × List Byte) × List Nat) q =>
          let (ds, used, ws) := laneDescs s.cache a q (ln.walk + x.2.1)
          (x.1 ++ ds, x.2.1 + used, x.2.2.1 ++ ws,
            x.2.2.2 ++ (if ds.any (·.fused) then (s.cache.list q.seq a.layer).entries.map (·.2) else [])))
        ([], 0, [], [])
      let s1 := acc.1.writeMem (coreBase c + 128 * ln.table) (ds.flatMap (·.bytes))
      (ws.foldl (fun s w => s.writeMem (coreBase c + 128 * w.1) w.2) s1, acc.2 ++ pins)) (s, [])

/-! ### Firing (R129) -/

/-- Whether the inputs and gates of a station are present for a frame (R129). -/
def Graph.fireReady (gr : Graph) (fr : Frame) (cd : Card) (copy : Nat) : Bool :=
  !fr.withheld && !fr.fired.contains (cd.station, copy) &&
  gr.frames.all (fun x => fr.num ≤ x.num || x.withheld || x.ended.contains (cd.station, copy) ||
    x.aborted.contains (cd.station, copy)) &&
  (cd.inEdges.take cd.nIn).all (fun ei =>
    match (gr.edge ei).kind with
    | 0 => match gr.stream? ei copy with
      | some st => st.rx.any (fun t => t.frame == fr.num)
      | none => false
    | 1 => (gr.edge ei).producer == 0xFFFF || fr.tokens.contains (ei, copy)
    | _ => true) &&
  (!bitN cd.flags 0 || gr.frames.all (fun x => fr.num ≤ x.num))

/-- A parity error in the card table (R153): the card fires no more until it is reloaded, and its graph's open frames
complete INVALID. -/
def State.cardParity (s : State) (g station copy d : Nat) : State :=
  match s.graph? g with
  | none => s
  | some gr =>
    let s1 := (s.raise .TDE d 3).modGraph g fun gr => { gr with parityCards := addNew gr.parityCards (station, copy) }
    gr.frames.foldl (fun s fr => s.withhold g fr.num Status.INVALID) s1

/-- Fire a station whose appends are done: the lane tables, the pins, and the ready slot. -/
def State.fire (s : State) (g : Nat) (fr : Frame) (cd : Card) (copy : Nat) (pl : Place) (attn : List AttnLayer) : State :=
  let (s1, hs) := attn.foldl (fun (a : State × List Nat) l =>
    let r := writeLanes a.1 g fr pl.core l
    (r.1, a.2 ++ r.2)) (s, [])
  if hs.all (fun h => (s1.cache.shelf h).pinnable) then
    let s2 := if hs = [] then s1 else s1.setCache (hs.foldl ShelfCache.pin s1.cache)
    let s3 := (s2.modGraph g fun gr =>
      let gr1 := gr.modFrame fr.num fun x => { x with fired := x.fired ++ [(cd.station, copy)] }
      { gr1 with parityCards := gr1.parityCards.filter (fun p => p ≠ (cd.station, copy)) }).wrapReg
        (ra .TDE_FIRE_COUNT (pl.core / 8))
    let rp : ReadyPass := { frame := fr.num, rank := cd.rank, station := cd.station, copy := copy, slot := pl.slot, graph := g
                            firedAt := s.now, pins := hs }
    s3.modCore pl.core fun k => CoreState.settle { k with ready := k.ready ++ [rp] }
  else s

/-- STATION_FIRE (R129, R170): the appends of its attention layers come first. -/
def State.stationFire (s : State) (g f station copy : Nat) (attn : List AttnLayer) (parity : Bool) : State :=
  match s.graph? g with
  | none => s
  | some gr =>
    match gr.frame? f, gr.card? station copy with
    | some fr, some cd =>
      let pl := gr.place station copy
      if parity then s.cardParity g station copy (pl.core / 8)
      else if gr.fireReady fr cd copy ∧ pl.placed ∧ ¬ s.coreFenced pl.core ∧ ¬ s.graphs.folding then
        let s1 := attn.foldl (startLayer g f) s
        if s1.layersDone g f attn then s1.fire g fr cd copy pl attn else s1
      else s
    | _, _ => s

/-! ### Aborts and stalls (R106, R147) -/

/-- Abort a station's pass by R106 without an engine error: the frame is INVALID and the core waits for its self-test. -/
def State.abortStation (s : State) (g f station copy : Nat) : State :=
  match s.graph? g with
  | none => s
  | some gr =>
    let c := (gr.place station copy).core
    let k := s.core c
    if k.run = .RUNNING ∧ k.graph = g ∧ k.frame = f ∧ k.station = station ∧ k.copy = copy then
      let s1 := s.modGraph g fun gr =>
        (gr.modFrame f fun fr => { fr with aborted := addNew fr.aborted (station, copy) }).releaseInputs station copy f
      let s2 := s1.setCore c { (s1.core c).clearPass with run := .HALTED, testHold := true, stopped := true }
      ((s2.unpin k.passPins).withhold g f Status.INVALID).askTest c 1
    else s.withhold g f Status.INVALID

/-- A stall report (R147): logged with its source (0 pass timeout, 1 frame timeout, 2 host), counted, and, for a core that
is not fenced, a targeted self-test is asked for (R148). -/
def State.stall (s : State) (core source : Nat) : State :=
  let s1 := (s.log .STATION_STALL (core / 8) [core, source]).satReg (ra .TDE_STALL_COUNT (core / 8))
  if s1.coreFenced core then s1 else s1.askTest core 0

/-! ### Tiles and credits (R125 … R127) -/

/-- The fields of a tile header as the receive side sees them (R124). -/
def Tile.withHeader (t : Tile) (h : List Byte) : Tile :=
  if h.isEmpty then t
  else
    { t with stream := leAt h 0 2, seq := leAt h 2 2, frame := leAt h 4 4, fmt := leAt h 8 1, last := bitN (leAt h 9 1) 0
             poisoned := bitN (leAt h 9 1) 1, widened := bitN (leAt h 9 1) 2, scales := bitN (leAt h 9 1) 3
             groupLen := leAt h 10 1, scaleFmt := leAt h 11 1, rows := leAt h 12 2, cols := leAt h 14 2
             graph := leAt h 24 2, producer := leAt h 26 2 }

/-- The 128 B that precede a tile's payload: the header and its padding (R124). -/
def Tile.header (t : Tile) : List Byte :=
  let pay := t.rows * rowBytes ((Fmt.ofCode t.fmt).getD .none) t.cols
  padTo 128 (toLe 2 t.stream ++ toLe 2 t.seq ++ toLe 4 t.frame ++ toLe 1 t.fmt ++
    toLe 1 (b2n t.last + 2 * b2n t.poisoned + 4 * b2n t.widened + 8 * b2n t.scales) ++ toLe 1 t.groupLen ++
    toLe 1 t.scaleFmt ++ toLe 2 t.rows ++ toLe 2 t.cols ++ toLe 4 pay ++ toLe 4 (if t.scales then 128 + pay else 0) ++
    toLe 2 t.graph ++ toLe 2 t.producer)

/-- R125, R39: a tile that disagrees with its stream entry. The region table of a spotlight edge is INT32 (R306, log 22). -/
def tileDisagrees (g ei : Nat) (e : Edge) (t : Tile) : Bool :=
  t.stream != ei || t.graph != g || t.producer != e.producer ||
  !(t.fmt == e.fmt || (t.fmt == 7 && t.widened) || (e.producer == 0xFFFF && t.seq == 0 && t.fmt == 0xA)) ||
  !([0, 32, 64, 128].contains t.groupLen)

/-- A stream without its first tile in flight. -/
def Stream.popTile (st : Stream) : Stream := { st with inFlight := st.inFlight.drop 1 }
/-- A stream whose arriving tile is dropped: its credit returns at once. -/
def Stream.dropTile (st : Stream) : Stream := { st.popTile with creditsBack := st.creditsBack + 1 }

/-- The tile is the next in order (R125). -/
def Stream.nextInOrder (st : Stream) (t : Tile) : Bool :=
  if st.inFrame then t.frame == st.expFrame && t.seq == st.expSeq else t.seq == 0 && st.minFrame ≤ t.frame

/-- A tile of a frame that takes no more of them: completed, withheld, or its consumer's pass ended or aborted (R125). A frame
that has not opened yet takes tiles: the intake sends them before the frame set closes (R307, R318). -/
def Graph.tileUnwanted (gr : Graph) (e : Edge) (copy f : Nat) : Bool :=
  match gr.frame? f with
  | none => f < gr.doneCount
  | some fr => fr.withheld || fr.aborted.contains (e.consumer, copy) || fr.ended.contains (e.consumer, copy)

/-- A stream after an accepted tile: what comes next. -/
def Stream.accept (st : Stream) (t : Tile) : Stream :=
  { st.popTile with
    inFrame := !t.last, expFrame := t.frame, expSeq := t.seq + 1, minFrame := if t.last then t.frame + 1 else t.frame }

/-- Accept a tile: into the next receive slot of the consumer's core, or into the output stage (R126). -/
def State.acceptTile (s : State) (g : Nat) (e : Edge) (ei copy : Nat) (st : Stream) (t : Tile) (core : Nat) : State :=
  if e.consumer = 0xFFFF then
    s.modGraph g fun gr =>
      (gr.modStream ei copy fun st => let x := st.accept t; { x with creditsBack := x.creditsBack + 1 }).modFrame t.frame
        fun fr => { fr with outTiles := fr.outTiles ++ [t] }
  else
    let s1 := s.modGraph g fun gr => gr.modStream ei copy fun st =>
      { st.accept t with
        nextSlot := (st.nextSlot + 1) % max 1 st.depth
        rx := st.rx ++ [{ slot := st.nextSlot, frame := t.frame, seq := t.seq, fmt := t.fmt, last := t.last
                          widened := t.widened, poisoned := t.poisoned, rows := t.rows, cols := t.cols
                          groupLen := t.groupLen, scaleFmt := t.scaleFmt }] }
    s1.writeMem (coreBase core + 128 * (st.rxLine + st.nextSlot * e.slotLines)) (t.header ++ t.body) t.poisoned

/-- TILE_ARRIVE (R125): `hdr` is the header as it arrives when it is not the one that was sent. -/
def State.tileArrive (s : State) (g ei copy : Nat) (hdr : List Byte) : State :=
  match s.graph? g with
  | none => s
  | some gr =>
    match gr.stream? ei copy with
    | none => s
    | some st =>
      match st.inFlight with
      | [] => s
      | t0 :: _ =>
        let t := t0.withHeader hdr
        let e := gr.edge ei
        let core := (gr.place e.consumer copy).core
        let drop := s.modGraph g fun gr => gr.modStream ei copy Stream.dropTile
        if e.consumer ≠ 0xFFFF ∧ s.coreFenced core then s.modGraph g fun gr => gr.modStream ei copy Stream.popTile
        else if tileDisagrees g ei e t then
          if gr.bundle.edges.length ≤ t.stream then drop.raise .TDE (core / 8) 0 else drop
        else if gr.tileUnwanted e copy t.frame then drop
        else if st.nextInOrder t then s.acceptTile g e ei copy st t core
        else
          (drop.raise .TDE (core / 8) 1).abortStation g (if st.inFrame then st.expFrame else t.frame) e.consumer copy

/-- CREDIT_RETURN (R127). -/
def State.creditReturn (s : State) (g ei copy : Nat) : State :=
  match s.graph? g with
  | none => s
  | some gr =>
    match gr.stream? ei copy with
    | none => s
    | some st =>
      let s1 := s.modGraph g fun gr => gr.modStream ei copy fun st =>
        Stream.pump { st with creditsBack := st.creditsBack - 1
                              credits := if st.credits < st.depth then st.credits + 1 else st.credits }
      if st.credits < st.depth then s1
      else
        let e := gr.edge ei
        let c := (gr.place e.producer copy).core
        let k := s.core c
        let s2 := s1.raise .TDE (c / 8) 2
        if k.run = .RUNNING ∧ k.graph = g ∧ k.station = e.producer ∧ k.copy = copy then
          s2.abortStation g k.frame e.producer copy
        else s2

/-! ### Tokens and versions (R131, R136, R153) -/

/-- TOKEN_ARRIVE: the oldest token of an edge and copy reaches the consumer's dependence engine (R131). -/
def State.tokenArrive (s : State) (g ei copy : Nat) : State :=
  match takeFirst (fun t : Token => t.graph == g && t.edge == ei && t.copy == copy) s.graphs.tokens with
  | none => s
  | some (t, rest) =>
    { s with graphs := { s.graphs with tokens := rest } }.modFrame g t.frame fun fr =>
      if fr.withheld then fr else { fr with tokens := addNew fr.tokens (ei, copy) }

/-- The first rise of a buffer's version that meets a condition, changed. -/
def State.modVersion (s : State) (p : VersionMove → Bool) (f : VersionMove → VersionMove) : State :=
  { s with graphs := { s.graphs with versions := match findIdx? p s.graphs.versions with
      | some i => s.graphs.versions.modify i f
      | none => s.graphs.versions } }

/-- VERSION_UPDATE: a new version arrives at a die, which acknowledges it (R136); on a wrap to 0 its remote cache gives up
every line of the buffer first (R137). -/
def State.versionUpdate (s : State) (g b d : Nat) : State :=
  let p (v : VersionMove) : Bool := v.graph == g && v.buffer == b && v.toSend.contains d
  match s.graphs.versions.find? p with
  | none => s
  | some v =>
    let s1 := s.modVersion p fun v => { v with toSend := v.toSend.filter (· != d), arrived := v.arrived ++ [d] }
    if v.version = 0 then s1.modRc d fun r =>
      { r with lines := r.lines.filter (fun l => !(l.graph == g && l.buffer == b)) }
    else s1

/-- VERSION_ACK: an acknowledgement arrives; the last one releases the token or completion (R136). -/
def State.versionAck (s : State) (g b d : Nat) : State :=
  let p (v : VersionMove) : Bool := v.graph == g && v.buffer == b && v.toAck.contains d && v.arrived.contains d
  match takeFirst p s.graphs.versions with
  | none => s
  | some (v, rest) =>
    let left := v.toAck.filter (· != d)
    if left = [] then { s with graphs := { s.graphs with versions := rest } }.releaseVersion v.then_
    else s.modVersion p fun v => { v with toAck := left, arrived := v.arrived.filter (· != d) }

/-- R153: a die that has not acknowledged a version for 100 µs. The fault manager treats it as a persistent link fault: it
tests the first link on the way to the die (R229). -/
def State.versionTimeout (s : State) (g b d : Nat) : State :=
  match s.graphs.versions.find? (fun v => v.graph == g && v.buffer == b && v.toAck.contains d && v.since + 100 ≤ s.now) with
  | none => s
  | some v =>
    let s1 := s.raise .TDE v.home 4
    let port := s.route v.home d
    { s1 with net := { s1.net with linkTests := addNew s1.net.linkTests (4 * v.home + port) } }

/-! ### Frame timeouts (R139) -/

/-- The card with the lowest rank among the passes of a frame that have neither ended nor been aborted. -/
def Graph.lowestUnfinished (gr : Graph) (fr : Frame) : Option Card :=
  fr.running.foldl (fun a p => match gr.card? p.1 p.2, a with
    | some c, some b => if c.rank < b.rank then some c else some b
    | some c, none => some c
    | none, a => a) none

/-- FRAME_TIMEOUT: the frame is INVALID, and its unfinished stations are handled as stalls (R139, R147). -/
def State.frameTimeout (s : State) (g f : Nat) : State :=
  match s.graph? g with
  | none => s
  | some gr =>
    match gr.frame? f with
    | none => s
    | some fr =>
      if ¬ fr.timedOut ∧ fr.openedAt + 1000 * gr.bundle.header.timeoutMs ≤ s.now then
        let cores := fr.running.map fun p => (gr.place p.1 p.2).core
        let st := ((gr.lowestUnfinished fr).map (·.station)).getD 0xFFFF
        let s1 := ((s.log .FRAME_TIMEOUT 0xFF [g, f, st]).modFrame g f fun fr => { fr with timedOut := true }).withhold g f
          Status.INVALID
        cores.foldl (fun s c => s.stall c 1) s1
      else s

/-! ### The commands -/

/-- GRAPH_LOAD op LOAD (R117); an op that is neither LOAD nor UNLOAD is BAD_PACKET (R256). -/
def execGraphLoad (link : Fin 2) (sq : Fin 64) (s : State) : Host.Outcome State Fault Refusal :=
  .next (match s.packet link sq 0x01 with
    | some p => if leAt p.header 17 1 = 1 then s else s.graphLoad p
    | none => s)
/-- GRAPH_LOAD op UNLOAD (R119). -/
def execGraphUnload (link : Fin 2) (sq : Fin 64) (s : State) : Host.Outcome State Fault Refusal :=
  .next (match s.packet link sq 0x01 with
    | some p => if leAt p.header 17 1 = 1 then s.graphUnload p else s
    | none => s)
/-- The unload of a graph ends (R119). -/
def execGraphUnloadDone (graph : Fin 64) (s : State) : Host.Outcome State Fault Refusal := .next (s.graphUnloadDone graph)
/-- GRAPH_RUN (R128). -/
def execGraphRun (link : Fin 2) (sq : Fin 64) (s : State) : Host.Outcome State Fault Refusal :=
  .next (match s.packet link sq 0x02 with
    | some p => s.graphRun p
    | none => s)
/-- FRAME_ADMIT (R128). -/
def execFrameAdmit (graph : Fin 64) (s : State) : Host.Outcome State Fault Refusal := .next (s.frameAdmit graph)
/-- STATION_FIRE (R129). -/
def execStationFire (graph : Fin 64) (frame station copy : Nat) (attn : List AttnLayer) (parity : Bool) (s : State) :
    Host.Outcome State Fault Refusal := .next (s.stationFire graph frame station copy attn parity)
/-- TILE_ARRIVE (R125). -/
def execTileArrive (graph : Fin 64) (edge copy : Nat) (header : List Byte) (s : State) : Host.Outcome State Fault Refusal :=
  .next (s.tileArrive graph edge copy header)
/-- CREDIT_RETURN (R127). -/
def execCreditReturn (graph : Fin 64) (edge copy : Nat) (s : State) : Host.Outcome State Fault Refusal :=
  .next (s.creditReturn graph edge copy)
/-- TOKEN_ARRIVE (R131). -/
def execTokenArrive (graph : Fin 64) (edge copy : Nat) (s : State) : Host.Outcome State Fault Refusal :=
  .next (s.tokenArrive graph edge copy)
/-- VERSION_UPDATE (R136). -/
def execVersionUpdate (graph : Fin 64) (buffer : Nat) (die : Fin 4) (s : State) : Host.Outcome State Fault Refusal :=
  .next (s.versionUpdate graph buffer die)
/-- VERSION_ACK (R136). -/
def execVersionAck (graph : Fin 64) (buffer : Nat) (die : Fin 4) (s : State) : Host.Outcome State Fault Refusal :=
  .next (s.versionAck graph buffer die)
/-- VERSION_TIMEOUT (R153). -/
def execVersionTimeout (graph : Fin 64) (buffer : Nat) (die : Fin 4) (s : State) : Host.Outcome State Fault Refusal :=
  .next (s.versionTimeout graph buffer die)
/-- FRAME_TIMEOUT (R139). -/
def execFrameTimeout (graph : Fin 64) (frame : Nat) (s : State) : Host.Outcome State Fault Refusal :=
  .next (s.frameTimeout graph frame)
/-- SEQ_STEP (R168). -/
def execSeqStep (link : Fin 2) (sq : Fin 64) (s : State) : Host.Outcome State Fault Refusal :=
  .next (match s.packet link sq 0x07 with
    | some p => s.seqStep p
    | none => s)

end Sys2Proof.Machine
end

