-- ==== Sys2Proof/Machine/Cache.lean ====
section
/-! DEFINITION. The ops of CACHE_OP (R154, R173 … R175, R182, R185), copies that end (R183), archiving (R187 … R191), the cache
timeout (R189) and restoring (R192). The manual gives no byte layout of a CACHE_OP entry, so the arguments of an op are
operands (log 21). -/

namespace Sys2Proof.Machine

/-- The code of CACHE_OP packets. -/
def cacheOp : Nat := 0x08

/-- Run one op on the next entry of the CACHE_OP packet at the front of a ring: its state and status (R173). -/
def State.cacheEntry (s : State) (link sq code : Nat) (op : State → State × Nat) (record : List Byte := []) : State :=
  match s.packet link sq cacheOp with
  | none => s
  | some _ =>
    match s.nextEntry link sq cacheOp with
    | none => s
    | some _ =>
      let (s1, st) := op s
      s1.endEntry link sq cacheOp code st record entryFuel

/-- The statuses of the checks that fail, combined (R272). -/
def worstOf (l : List (Bool × Nat)) : Nat := combineStatus ((l.filter (·.1)).map (·.2))

/-- R174: a sequence held by an open frame or being archived or restored. -/
def SeqRec.busy (r : SeqRec) : Bool := r.st == .IN_STEP || r.st == .ARCHIVING || r.st == .RESTORING

/-- The status of an op on a sequence that must be LIVE (R173, R174). -/
def liveStatus (q : Nat) (r : SeqRec) : Nat :=
  if 4095 < q ∨ r.st = .CLOSED then Status.BAD_PACKET else if r.st = .LIVE then 0 else Status.NOT_READY

/-- The status of an op that makes a sequence (R173, R174). -/
def newStatus (q : Nat) (r : SeqRec) : Nat :=
  if 4095 < q then Status.BAD_PACKET else if r.st = .CLOSED then 0
  else if r.busy then Status.NOT_READY else Status.BAD_PACKET

/-! ### Pools (R154, R160, R173, R190) -/

/-- The image copies of a graph. -/
def Graph.images (gr : Graph) : List Nat := gr.image0 :: gr.image1.toList

/-- A range that overlaps a pool, a catalogue region or an image copy of a loaded graph (R116, R154, R161). -/
def State.reservedRange (s : State) (a n : Nat) : Bool :=
  s.cache.pools.any (fun e => overlaps a n e.2.base (e.2.frames * e.2.shelfBytes)) ||
  [0, 1, 2, 3].any (fun d => match s.catRegion d with
    | some b => overlaps a n b 0x2000000
    | none => false) ||
  s.graphs.graphs.any fun gr => gr.images.any fun i => overlaps a n i gr.imageLen

/-- A completion ring that receives the completions of a command ring (R190). -/
def State.serves (s : State) (link ring : Nat) : Bool :=
  (List.range 64).any fun q => (s.sq link q).run != .DISABLED && s.sqCq link q == ring

/-- Frames of a new pool that touch a fenced set or a retired block are never handed out (R202, R204). -/
def State.markLost (s : State) (p : Pool) : Pool :=
  let m := s.mc p.die
  if m.lostSets = [] ∧ m.retired = [] then p
  else (List.range p.frames).foldl (fun p f =>
    let a := p.base + f * p.shelfBytes
    if (List.range (p.shelfBytes / 4096)).any (fun i => s.setFenced (a + 4096 * i) || s.retired (a + 4096 * i)) then
      { p with use := tblSet .free p.use f .lost } else p) p

/-- POOL_CREATE. -/
def State.poolCreate (s : State) (n : Nat) (p : Pool) : State × Nat :=
  let size := p.frames * p.shelfBytes
  let st := worstOf
    [bad (!([0x10000, 0x20000, 0x40000, 0x80000, 0x100000, 0x200000].contains p.shelfBytes)),
     bad (p.heads < 1 || 64 < p.heads), bad (p.d < 32 || 256 < p.d || p.d % 32 != 0), bad (p.fmt < 5 || 7 < p.fmt),
     bad (15 < n || 3 < p.die), bad (3 < p.altDie && p.altDie != 0xFF), zeroF (p.frames = 0),
     bad (p.shelfBytes < 256 * p.tokenBytes), bad (p.base % max 1 p.shelfBytes != 0), bad (!inStack p.base size p.die),
     bad (s.reservedRange p.base size), bad (s.cache.pool n).exists_, bad (1 < p.archiveLink || 63 < p.archiveRing),
     bad (s.serves p.archiveLink p.archiveRing), (s.dieFenced p.die, Status.FENCED),
     ((s.catRegion p.die).isNone, Status.NOT_READY)]
  if st = 0 then
    let s1 := s.setCache { s.cache with pools := tblSet {} s.cache.pools n (s.markLost p) }
    (if p.boundOnly then s1.writeRecord else s1, st)
  else (s, st)

/-- POOL_DESTROY: refused while a sequence of the pool is not CLOSED, or a shelf of it still drains. -/
def State.poolDestroy (s : State) (n : Nat) : State × Nat :=
  let p := s.cache.pool n
  let drains := (s.cache.cat p.die).shelves.any (fun e => e.2.pool == n)
  let st := worstOf [bad (!p.exists_), bad (s.cache.seqs.any (fun e => e.2.pool == n && e.2.st != .CLOSED)),
    (p.exists_ && drains, Status.NOT_READY)]
  if st = 0 then
    let s1 := s.setCache { s.cache with pools := tblSet {} s.cache.pools n {} }
    (if p.boundOnly then s1.writeRecord else s1, st)
  else (s, st)

/-! ### Sequences -/

/-- The next admit_stamp (R163). -/
def ShelfCache.stamp (c : ShelfCache) : ShelfCache × Nat :=
  ({ c with admitCount := (c.admitCount + 1) % 2 ^ 64 }, (c.admitCount + 1) % 2 ^ 64)

/-- OPEN. -/
def State.openSeq (s : State) (q pool priority layers window : Nat) : State × Nat :=
  let st := worstOf [(true, newStatus q (s.cache.seq q)), bad (15 < pool || !(s.cache.pool pool).exists_), bad (7 < priority),
    bad (layers < 1 || 128 < layers)]
  if st = 0 then
    let (c, n) := s.cache.stamp
    (s.setCache (c.modSeq q fun _ =>
      { pool := pool, st := .LIVE, priority := priority, layers := layers, window := window, admission := n }), st)
  else (s, st)

/-- The shelves of a layer over positions below `p`, when `p` ends one of them. -/
def ShelfCache.prefixOf (c : ShelfCache) (q layer p : Nat) : Option (List (Nat × Nat)) :=
  let l := c.list q layer
  let r := l.entries.foldl (fun (a : Nat × List (Nat × Nat)) e =>
    if a.1 < p then (a.1 + (c.shelf e.2).tokens, a.2 ++ [e]) else a) (l.start, [])
  if r.1 = p ∨ l.entries = [] then some r.2 else none

/-- Map a parent's shelves for a child in one layer: refs rise by 1 (R182); none without free list runs. -/
def ShelfCache.forkLayer (c : ShelfCache) (q parent layer : Nat) (es : List (Nat × Nat)) : Option ShelfCache :=
  let d := (c.pool (c.seq parent).pool).die
  let need := (es.length + 62) / 63
  let free := ((List.range ((c.cat d).usedRuns.length + need)).filter fun r =>
    r < catRuns && !(c.cat d).usedRuns.contains r).take need
  if free.length < need then none
  else
    let c1 := es.foldl (fun c e => c.modShelf e.2 fun x => { x with refs := x.refs + 1 }) c
    let c2 := c1.modList q layer fun _ => { start := (c.list parent layer).start, runs := free, entries := es }
    some (c2.modCat d fun k => { k with usedRuns := k.usedRuns ++ free })

/-- FORK (R182): `p` is the parent's committed length or a boundary between two of its shelves. The manual gives the child
no priority: a free value. -/
def State.forkSeq (s : State) (q parent p : Nat) : State × Nat :=
  let r := s.cache.seq parent
  let pre := (List.range r.layers).map fun l => s.cache.prefixOf parent l p
  let st := worstOf [(true, newStatus q (s.cache.seq q)), (true, liveStatus parent r), bad (r.length < p),
    bad (p < r.basePos || (p = r.basePos && p != r.length)), bad (p != r.length && pre.any Option.isNone)]
  if st = 0 then
    let (v, s1) := s.fresh
    let (c, n) := s1.cache.stamp
    let c1 := c.modSeq q fun _ =>
      { pool := r.pool, st := .LIVE, priority := v.toNat % 8, layers := r.layers, length := p, basePos := r.basePos
        window := r.window, admission := n, parent := parent }
    let c2 := (List.range r.layers).foldl (fun (c : Option ShelfCache) l =>
      c.bind fun c => c.forkLayer q parent l ((nth none pre l).getD ((c.list parent l).entries))) (some c1)
    match c2 with
    | some c3 => (s1.setCache c3, 0)
    | none => (s, Status.CACHE_EXHAUSTED)
  else (s, st)

/-- BIND (R175). -/
def State.bindSeq (s : State) (q graph perFrame : Nat) : State × Nat :=
  let r := s.cache.seq q
  let p := s.cache.pool r.pool
  let need := ((r.window + 255) / 256 + 2) * r.layers
  let st := worstOf [(true, liveStatus q r), bad (r.st = .LIVE && (!p.boundOnly || r.window < 256 || r.bound)), bad (63 < graph)]
  if st ≠ 0 then (s, st)
  else if p.freeCount < p.reservedTotal + need then (s, Status.CACHE_EXHAUSTED)
  else
    let c := (s.cache.modPool r.pool fun p => { p with reserved := tblSet 0 p.reserved q need }).modSeq q fun r =>
      { r with bound := true, graph := graph, perFrame := perFrame }
    ((s.setCache c).writeRecord, 0)

/-- The free block of class `c` at a unit is a part by itself: the next larger one is not free. -/
def partExact (parts : List (Nat × Nat)) (u c : Nat) : Bool :=
  let n := 16 / 2 ^ c
  partFree parts u n && (c == 1 || !partFree parts (u / (2 * n) * (2 * n)) (2 * n))

/-- The smallest free part that holds a class: (frame, first unit) (R185). -/
def Pool.smallestPart (p : Pool) : Nat → Option (Nat × Nat)
  | 0 => none
  | c + 1 =>
    let n := 16 / 2 ^ (c + 1)
    (p.use.findSome? fun e => match e.2 with
      | .split parts => ((List.range (2 ^ (c + 1))).find? (fun i => partExact parts (i * n) (c + 1))).map fun i => (e.1, i * n)
      | _ => none).orElse fun _ => p.smallestPart c

/-- The smallest class that holds some positions: 16 … 128 tokens. -/
def shortClass (tokens : Nat) : Nat := ([4, 3, 2, 1].find? (fun c => tokens ≤ classTokens c)).getD 1

/-- The byte runs that copy the positions of one shelf into another: (source, destination, bytes). -/
def copyRuns (p : Pool) (src dst : Shelf) : List (Nat × Nat × Nat) :=
  (List.range (2 * p.heads)).map fun i =>
    (src.addr + i * classTokens src.cls * p.rowBytes, dst.addr + i * classTokens dst.cls * p.rowBytes, src.tokens * p.rowBytes)

/-- Copy byte runs in memory, poison with them. -/
def State.copyBytes (s : State) (rs : List (Nat × Nat × Nat)) : State :=
  rs.foldl (fun s r => let (b, p) := s.readMem r.1 r.2.2; s.writeMem r.2.1 b p) s

/-- R185: compact the last shelf of one layer. -/
def sealLayer (q : Nat) (s : State) (layer : Nat) : State :=
  let c := s.cache
  match (c.list q layer).entries.getLast? with
  | none => s
  | some (_, h) =>
    let x := c.shelf h
    let p := c.pool x.pool
    let cls := shortClass x.tokens
    if x.refs = 1 ∧ 0 < x.tokens ∧ x.tokens ≤ 128 ∧ x.st = .FILLING ∧ x.cls < cls ∧ ¬ p.boundOnly then
      match (p.smallestPart cls).orElse (fun _ => if p.reservedTotal < p.freeCount then p.lowestFree.map (·, 0) else none),
          c.newHandle p.die with
      | some (f, u), some h2 =>
        let y : Shelf := { addr := p.base + f * p.shelfBytes + u * p.shelfBytes / 16, cls := cls, pool := x.pool, refs := 1
                           flags := 1, tokens := x.tokens, st := if x.tokens = classTokens cls then .FULL else .FILLING }
        let c1 := (c.modPool x.pool fun p => p.takePart f u cls).modShelf h2 fun _ => y
        let c2 := (c1.modCat p.die fun k => { k with allocShort := k.allocShort + 1 }).modList q layer fun l =>
          { l with entries := l.entries.dropLast ++ [(cls, h2)] }
        (s.copyBytes (copyRuns p x y)).setCache (c2.unmap h none)
      | _, _ => s
    else s

/-- SEAL (R185): the sequence becomes read-only. -/
def State.sealSeq (s : State) (q : Nat) : State × Nat :=
  let r := s.cache.seq q
  let st := liveStatus q r
  if st = 0 then
    let s1 := s.setCache (s.cache.modSeq q fun r => { r with sealed_ := true })
    ((List.range r.layers).foldl (sealLayer q) s1, 0)
  else (s, st)

/-- CLOSE (R173, R174): unmaps every shelf, drops a bookmark and a bound sequence's reserve; freed space goes to stalled
requesters (R187). -/
def State.closeSeq (s : State) (q : Nat) : State × Nat :=
  let r := s.cache.seq q
  if 4095 < q ∨ r.st = .CLOSED then (s, Status.BAD_PACKET)
  else if r.busy then (s, Status.NOT_READY)
  else
    let c := ((s.cache.unmapSeq q).modPool r.pool fun p => { p with reserved := tblSet 0 p.reserved q 0 }).modSeq q fun _ => {}
    let c1 := c.modCat (s.cache.pool r.pool).die fun k => { k with lists := k.lists.filter fun e => e.1 / 128 != q }
    (serveAppends (s.setCache c1), 0)

/-- SET_PRIORITY (R173). -/
def State.setPriority (s : State) (q priority : Nat) : State × Nat :=
  if 4095 < q ∨ (s.cache.seq q).st = .CLOSED ∨ 7 < priority then (s, Status.BAD_PACKET)
  else (s.setCache (s.cache.modSeq q fun r => { r with priority := priority }), 0)

/-- ARCHIVE (R187): as if chosen as a victim; a bound sequence never is (R175). -/
def State.archiveSeq (s : State) (q : Nat) : State × Nat :=
  let r := s.cache.seq q
  let st := worstOf [(true, liveStatus q r), bad r.bound]
  if st = 0 then (startArchive s q none, 0) else (s, st)

/-! ### Copies that end (R183) -/

/-- R183 steps 3 … 5 for the copy of an append: the positions are copied, the list entry names the new shelf, the source
loses the writer's ref and the pin, and the append goes on. -/
def State.cowDone (s : State) (q layer index : Nat) : State :=
  match s.cache.cows.find? (fun x => x.seq == q && x.layer == layer && x.index == index) with
  | none => s
  | some w =>
    let src := s.cache.shelf w.source
    let dst := s.cache.shelf w.dest
    let s1 := s.copyBytes (copyRuns (s.cache.pool src.pool) src dst)
    let c1 := { s1.cache with cows := s1.cache.cows.filter (fun x => x ≠ w) }
    let c2 := c1.modList q layer fun l => { l with entries := l.entries.modify index fun _ => (dst.cls, w.dest) }
    let c3 := ((c2.unmap w.source none).unpin w.source).modShelf w.dest fun x =>
      { x with tokens := src.tokens
               st := if x.st = .QUARANTINED then .QUARANTINED else if src.tokens = classTokens x.cls then .FULL else .FILLING }
    serveAppends (s1.setCache c3)

/-! ### Archiving (R187 … R191) -/

/-- R191: the packed stream of a shelf's positions. -/
def State.packShelf (s : State) (x : Shelf) : List Byte :=
  let p := s.cache.pool x.pool
  (List.range (2 * p.heads)).flatMap fun i =>
    (s.readMem (x.addr + i * classTokens x.cls * p.rowBytes) (x.tokens * p.rowBytes)).1

/-- R191: the archive header. -/
def archiveHeader (q layer : Nat) (flags epoch first tokens pool chunk off len : Nat) : List Byte :=
  padTo 64 (toLe 2 q ++ toLe 1 layer ++ toLe 1 flags ++ toLe 4 epoch ++ toLe 4 first ++ toLe 2 tokens ++ toLe 1 pool ++
    toLe 1 0 ++ toLe 4 chunk ++ toLe 4 off ++ toLe 4 len)

/-- R191: data bytes of one chunk. -/
def chunkBytes : Nat := 65536

/-- The archive ring of a pool has room for a chunk; a ring whose link is lost counts as full (R189, R190). -/
def State.archiveRoom (s : State) (p : Pool) (len : Nat) : Bool :=
  s.linkRuns p.archiveLink && (s.cq p.archiveLink p.archiveRing).enabled &&
  !(s.cq p.archiveLink p.archiveRing).midChain && 1 + (64 + len + 63) / 64 ≤ s.cqRoom p.archiveLink p.archiveRing

/-- Archive start of a shelf (R165). -/
def ShelfCache.archiveStart (c : ShelfCache) (h : Nat) : ShelfCache :=
  c.modShelf h fun x => if x.st = .QUARANTINED then { x with pins := x.pins + 1 }
    else { x with before := x.st, st := .ARCHIVING, pins := x.pins + 1 }

/-- Archive end of a shelf (R165): its state before, the pin off, then the victim's unmap. -/
def ShelfCache.archiveEnd (c : ShelfCache) (q layer h : Nat) : ShelfCache :=
  ((c.modShelf h fun x => if x.st = .ARCHIVING then { x with st := x.before, before := .UNUSED } else x).unpin h).unmapFirst
    q layer

/-- After a shelf or a sequence is out: space goes to the stalled requesters, and if stalls remain the next victim follows
(R187). -/
def afterShelf (s : State) (j : ArchiveJob) : State :=
  let s1 := if (s.cache.nextOut j).isNone then endArchive s j else s
  let s2 := serveAppends s1
  match s2.cache.stalls.find? (fun t => (s2.cache.seq t.seq).pool == j.pool) with
  | some t => match s2.cache.appends.find? (fun a => a.seq == t.seq && a.layer == t.layer) with
    | some pa => preempt s2 pa
    | none => s2
  | none => s2

/-- Change an archive job. -/
def ShelfCache.modJob (c : ShelfCache) (q : Nat) (f : ArchiveJob → ArchiveJob) : ShelfCache :=
  { c with archives := mapWhere (fun j => j.seq == q) f c.archives }

/-- ARCHIVE_CHUNK_WRITE: the next chunk of a sequence's archive, once its ring has room (R187, R189, R191). -/
def State.archiveChunk (s : State) (q : Nat) : State :=
  match s.cache.archives.find? (fun j => j.seq == q) with
  | none => s
  | some j =>
    match s.cache.nextOut j with
    | none => endArchive s j
    | some (layer, h) =>
      let x := s.cache.shelf h
      let p := s.cache.pool j.pool
      let all := s.packShelf x
      let data := (all.drop j.offset).take chunkBytes
      if x.tokens = 0 then
        let s1 := s.setCache (s.cache.unmapFirst q layer)
        afterShelf s1 j
      else if (j.offset = 0 ∧ (x.st = .FILLING ∨ x.st = .FULL ∨ x.st = .QUARANTINED) ∧ x.pins < 65535 ∨ 0 < j.offset) ∧
          s.archiveRoom p data.length then
        let lastShelf := decide (all.length ≤ j.offset + chunkBytes)
        let c1 := if j.offset = 0 then s.cache.archiveStart h else s.cache
        let c2 := if lastShelf then c1.archiveEnd q layer h else c1
        let j1 : ArchiveJob := { j with layer := layer, offset := if lastShelf then 0 else j.offset + chunkBytes
                                        chunk := j.chunk + 1, data := j.data ++ data }
        let lastSeq := lastShelf && (c2.nextOut j1).isNone
        let r := s.cache.seq q
        let c3 := (c2.modJob q fun _ => j1).modCat p.die fun k => { k with archiveOut := (k.archiveOut + 1) % 2 ^ 32 }
        let c4 := { c3 with stalls := c3.stalls.map fun t =>
          if (c3.seq t.seq).pool = j.pool then { t with restarted := s.now } else t }
        let hdr := archiveHeader q layer (b2n lastShelf + 2 * b2n lastSeq) r.epoch (s.cache.list q layer).start x.tokens j.pool
          j.chunk j.offset data.length
        let out : Completion := { kind := 0x81, link := p.archiveLink, cq := p.archiveRing, tag := 0xFFFFFFFF, status := 0
                                  cmdType := 0, sq := 0xFF }
        let s1 := (s.writePart out (hdr ++ data) 0 false).setCache c4
        if lastShelf then afterShelf s1 j1 else s1
      else s

/-- CACHE_TIMEOUT (R189): the step completes CACHE_EXHAUSTED. -/
def State.cacheExpired (s : State) (g f : Nat) : State :=
  match s.cache.stalls.find? (fun t => t.graph == g && t.frame == f && t.restarted + 1000 * t.timeoutMs ≤ s.now) with
  | none => s
  | some t =>
    let d := (s.cache.pool (s.cache.seq t.seq).pool).die
    let s1 := { s with cache := s.cache.modCat d fun k => { k with exhausted := min (k.exhausted + 1) 0xFFFFFFFF } }
    (s1.catError d 4 0).withhold g f Status.CACHE_EXHAUSTED

/-! ### Restoring (R192) -/

/-- The archive header of an ARCHIVE_IN packet breaks its layout (R191, R252). -/
def restoreBad (p : Packet) : Bool :=
  let b := p.payload
  let len := leAt b 24 4
  !zeroFrom p.header 16 48 || b.length < 128 || len < 64 || chunkBytes < len || len % 64 != 0 || b.length < 64 + len ||
  !zeroFrom b (64 + len) b.length || !zeroFrom b 15 1 || !zeroFrom b 28 36 || 3 < leAt b 3 1

/-- A restore is abandoned: its shelves go, and the sequence stays ARCHIVED (R192). -/
def State.abandon (s : State) (q : Nat) : State :=
  if (s.cache.seq q).st = .RESTORING then
    let c := (s.cache.unmapSeq q).modSeq q fun r => { r with st := .ARCHIVED }
    serveAppends (s.setCache { c with restores := c.restores.filter (fun j => j.seq != q) })
  else s

/-- Put restored positions of a layer at the end of its list; none when no space is found (R192). -/
def restoreTokens (q layer rowLen : Nat) : Nat → ShelfCache × List (Nat × List Byte) → List Byte →
    Option (ShelfCache × List (Nat × List Byte))
  | 0, a, _ => some a
  | n + 1, (c, ws), kv =>
    let put (c : ShelfCache) (h : Nat) : ShelfCache × List (Nat × List Byte) :=
      let x := c.shelf h
      (c.modShelf h fun x => { x with tokens := x.tokens + 1 }, ws ++ tokenWrites (c.pool x.pool) x x.tokens (kv.take rowLen))
    let grown := match c.growList q layer .RESTORING false with
      | some (c1, h) => some (put c1 h)
      | none => none
    let here := match (c.list q layer).entries.getLast? with
      | some (_, h) => if (c.shelf h).tokens < classTokens (c.shelf h).cls then some (put c h) else grown
      | none => grown
    match here with
    | some a => restoreTokens q layer rowLen n a (kv.drop rowLen)
    | none => none

/-- The positions of a packed stream (R191), position by position. -/
def unpackStream (p : Pool) (tokens : Nat) (bs : List Byte) : List Byte :=
  (List.range tokens).flatMap fun t => (List.range (2 * p.heads)).flatMap fun i =>
    (bs.drop ((i * tokens + t) * p.rowBytes)).take p.rowBytes

/-- Every shelf of a restored sequence is FILLING or FULL (R165). -/
def ShelfCache.restored (c : ShelfCache) (q : Nat) : ShelfCache :=
  (List.range (c.seq q).layers).foldl (fun c l => (c.list q l).entries.foldl (fun c e => c.modShelf e.2 fun x =>
    if x.st = .RESTORING then { x with st := if x.tokens = classTokens x.cls then .FULL else .FILLING } else x) c) c

/-- The last chunk is in: compare the digest (R192). -/
def State.endRestore (s : State) (q : Nat) (data : List Byte) : State × Nat :=
  let r := s.cache.seq q
  let d := (s.cache.pool r.pool).die
  if (shake256 data).take 16 = r.digest then
    let (c, n) := s.cache.stamp
    let c1 := (c.restored q).modSeq q fun r => { r with st := .LIVE, admission := n }
    (s.setCache { c1 with restores := c1.restores.filter (fun j => j.seq != q) }, Status.OK)
  else ((((s.catError d 2 0).log .ARCHIVE_DIGEST d [q])).abandon q, Status.AUTH_FAIL)

/-- One chunk of a restore that is the next expected: the positions of a complete shelf stream go into the sequence. -/
def State.restoreChunk (s : State) (q : Nat) (b : List Byte) (j : RestoreJob) : State × Nat :=
  let r := s.cache.seq q
  let p := s.cache.pool r.pool
  let layer := leAt b 2 1
  let tokens := leAt b 12 2
  let data := (b.drop 64).take (leAt b 24 4)
  let shelf := j.shelf ++ data
  let full := tokens * p.tokenBytes
  let j1 : RestoreJob := { j with next := j.next + 1, data := j.data ++ data, layer := layer, first := leAt b 8 4
                                  tokens := tokens, shelf := if shelf.length < full then shelf else []
                                  layers := addNew j.layers layer }
  let c0 := if j.layers.contains layer then s.cache else s.cache.modList q layer fun l => { l with start := leAt b 8 4 }
  let c1 := (c0.modSeq q fun r => { r with st := .RESTORING }).modCat p.die fun k =>
    { k with archiveIn := (k.archiveIn + 1) % 2 ^ 32 }
  let c2 := { c1 with restores := c1.restores.filter (fun x => x.seq != q) ++ [j1] }
  let placed := if shelf.length < full then some (c2, [])
    else restoreTokens q layer p.tokenBytes tokens (c2, []) (unpackStream p tokens shelf)
  match placed with
  | none => ((s.setCache c2).abandon q, Status.CACHE_EXHAUSTED)
  | some (c3, ws) =>
    let s1 := writeRuns (s.setCache c3) ws false
    if j1.next = r.chunks then s1.endRestore q j1.data else (s1, Status.OK)

/-- ARCHIVE_IN (R192). -/
def State.archiveIn (s : State) (p : Packet) : State :=
  let b := p.payload
  let q := leAt b 0 2
  let r := s.cache.seq q
  let pool := s.cache.pool r.pool
  if restoreBad p then s.takeFinish p Status.BAD_PACKET
  else
    let j := (s.cache.restores.find? (fun j => j.seq == q)).getD { seq := q, next := 0, data := [] }
    let within := leAt b 20 4 = j.shelf.length ∧ leAt b 20 4 + leAt b 24 4 ≤ leAt b 12 2 * pool.tokenBytes ∧
      (j.shelf = [] ∨ (leAt b 2 1 = j.layer ∧ leAt b 8 4 = j.first ∧ leAt b 12 2 = j.tokens))
    if (r.st = .ARCHIVED ∨ r.st = .RESTORING) ∧ leAt b 4 4 = r.epoch ∧ leAt b 16 4 = j.next ∧ j.next < r.chunks ∧
        leAt b 14 1 = r.pool ∧ leAt b 2 1 < r.layers ∧ 1 ≤ leAt b 12 2 ∧ leAt b 12 2 ≤ 256 ∧ within then
      let (s1, st) := s.restoreChunk q b j
      s1.takeFinish p st
    else ((s.catError pool.die 3 0).abandon q).takeFinish p Status.BAD_PACKET

/-! ### The commands -/

/-- POOL_CREATE (R154). -/
def execPoolCreate (link : Fin 2) (sq : Fin 64) (pool die base frames shelfBytes heads d fmt : Nat) (boundOnly : Bool)
    (altDie archiveLink archiveRing : Nat) (s : State) : Host.Outcome State Fault Refusal :=
  .next (s.cacheEntry link sq 0x01 fun s => s.poolCreate pool
    { die := die, base := base, frames := frames, shelfBytes := shelfBytes, heads := heads, d := d, fmt := fmt
      boundOnly := boundOnly, altDie := altDie, archiveLink := archiveLink, archiveRing := archiveRing })
/-- POOL_DESTROY (R173). -/
def execPoolDestroy (link : Fin 2) (sq : Fin 64) (pool : Nat) (s : State) : Host.Outcome State Fault Refusal :=
  .next (s.cacheEntry link sq 0x02 fun s => s.poolDestroy pool)
/-- OPEN (R173). -/
def execOpen_ (link : Fin 2) (sq : Fin 64) (seq pool priority layers window : Nat) (s : State) :
    Host.Outcome State Fault Refusal :=
  .next (s.cacheEntry link sq 0x03 fun s => s.openSeq seq pool priority layers window)
/-- FORK (R182). -/
def execFork (link : Fin 2) (sq : Fin 64) (seq parent pos : Nat) (s : State) : Host.Outcome State Fault Refusal :=
  .next (s.cacheEntry link sq 0x04 fun s => s.forkSeq seq parent pos)
/-- BIND (R175). -/
def execBind (link : Fin 2) (sq : Fin 64) (seq graph perFrame : Nat) (s : State) : Host.Outcome State Fault Refusal :=
  .next (s.cacheEntry link sq 0x05 fun s => s.bindSeq seq graph perFrame)
/-- SEAL (R185). -/
def execSeal (link : Fin 2) (sq : Fin 64) (seq : Nat) (s : State) : Host.Outcome State Fault Refusal :=
  .next (s.cacheEntry link sq 0x06 fun s => s.sealSeq seq)
/-- CLOSE (R173). -/
def execClose (link : Fin 2) (sq : Fin 64) (seq : Nat) (s : State) : Host.Outcome State Fault Refusal :=
  .next (s.cacheEntry link sq 0x07 fun s => s.closeSeq seq)
/-- SET_PRIORITY (R173). -/
def execSetPriority (link : Fin 2) (sq : Fin 64) (seq priority : Nat) (s : State) : Host.Outcome State Fault Refusal :=
  .next (s.cacheEntry link sq 0x08 fun s => s.setPriority seq priority)
/-- ARCHIVE (R187). -/
def execArchive (link : Fin 2) (sq : Fin 64) (seq : Nat) (s : State) : Host.Outcome State Fault Refusal :=
  .next (s.cacheEntry link sq 0x09 fun s => s.archiveSeq seq)
/-- QUERY (R173, R263): the 64 B record. -/
def execQuery (link : Fin 2) (sq : Fin 64) (seq : Nat) (s : State) : Host.Outcome State Fault Refusal :=
  .next (if seq < 4096 then s.cacheEntry link sq 0x0A (fun s => (s, 0)) ((s.cache.seq seq).encode seq)
    else s.cacheEntry link sq 0x0A (fun s => (s, Status.BAD_PACKET)) (List.replicate 64 0))
/-- A copy-on-write ends (R183). -/
def execCowCopyDone (seq layer index : Nat) (s : State) : Host.Outcome State Fault Refusal := .next (s.cowDone seq layer index)
/-- ARCHIVE_CHUNK_WRITE (R187). -/
def execArchiveChunkWrite (seq : Nat) (s : State) : Host.Outcome State Fault Refusal := .next (s.archiveChunk seq)
/-- CACHE_TIMEOUT (R189). -/
def execCacheTimeout (graph : Fin 64) (frame : Nat) (s : State) : Host.Outcome State Fault Refusal :=
  .next (s.cacheExpired graph frame)
/-- ARCHIVE_IN (R192). -/
def execArchiveIn (link : Fin 2) (sq : Fin 64) (s : State) : Host.Outcome State Fault Refusal :=
  .next (match s.packet link sq 0x09 with
    | some p => s.archiveIn p
    | none => s)

end Sys2Proof.Machine
end

