-- ==== Sys2Proof/Machine/RegOps.lean ====
section
/-! DEFINITION. Writes to registers by access type (R9 … R12, R251, R274): what the rows for single registers share. -/

namespace Sys2Proof.Machine

/-- A value with the bits that a register's fields do not take cleared (R10). -/
def maskReg (a : RegAddr) (v : Word) : Word := v &&& word (regRow a.reg).mask

/-- The plain write of a register's value. -/
def State.putReg (s : State) (a : RegAddr) (v : Word) : State := s.setReg a (maskReg a v)

/-- R11, R274: a write to an RWL register takes effect (`act`) from host_ready until SETUP_LOCK; after that it is discarded,
HIF_ERR_STATUS.setup_locked is set and SETUP_LOCKED logged. -/
def State.rwl (s : State) (hub : Nat) (a : RegAddr) (act : State → State) : State :=
  if ¬ s.hif.hostReady then s
  else if s.hif.locked then (s.raise .HIF hub 6).log .SETUP_LOCKED 0xFF [a.key]
  else act s

/-- The write of an RWL register that only sets its value. -/
def State.rwlWrite (s : State) (hub : Nat) (a : RegAddr) (v : Word) : State := s.rwl hub a fun s => s.putReg a v

/-- R11: writing 1 clears a W1C bit; the summary is formed anew (R270). -/
def State.w1c (s : State) (a : RegAddr) (v : Word) : State :=
  (s.setReg a (s.reg a &&& ~~~ v)).summarise (regBlock a.reg)

end Sys2Proof.Machine
end

