-- ==== Sys2Proof/Machine/Hbm.lean ====
section
/-! DEFINITION. The HBM controllers, their keepers and the remote caches: reads under the code (R199, R200), the write queue
(R205), row tests, repairs and retired blocks (R201, R202), command parity and lost sets (R203, R204), refresh and scrubbing
(R206, R207), and remote-cache lookups and fills (R210 … R212). -/

namespace Sys2Proof.Machine

/-! ### Reads (R198 … R200, R205) -/

/-- The state of a pseudo-channel. -/
def McState.pc (m : McState) (p : Nat) : PcState := tblGet {} m.pcs p
/-- Change a pseudo-channel. -/
def McState.modPc (m : McState) (p : Nat) (f : PcState → PcState) : McState := { m with pcs := tblMod {} m.pcs p f }

/-- A controller error with its address: the address registers take the first one (R213). -/
def State.mcError (s : State) (n bit a : Nat) : State :=
  let s1 := if s.reg (ra .MC_ERR_STATUS n) = 0 then
      (s.setReg (ra .MC_ERR_ADDR_LO n) (word a)).setReg (ra .MC_ERR_ADDR_HI n) (word (a / 2 ^ 32 % 65536 + 65536 * hbmPc a))
    else s
  s1.raise .MC n bit

/-- A corrected word: counted, and logged at most once per minute per pseudo-channel with the count (R200). -/
def State.hbmCe (s : State) (a : Nat) : State :=
  let n := stackOf a
  let p := hbmPc a
  let x := (s.mc n).pc p
  let s1 := ((s.mcError n 0 a).satReg (ra .MC_CE_COUNT n))
  let due := match x.ceLogged with
    | some t => decide (t + 60000000 ≤ s.now)
    | none => true
  if due then (s1.modMc n fun m => m.modPc p fun x => { x with ce := min (x.ce + 1) 0xFFFFFFFF, ceSince := 0
                                                               ceLogged := some s.now }).log .HBM_CE n [p, x.ceSince + 1]
  else s1.modMc n fun m => m.modPc p fun x => { x with ce := min (x.ce + 1) 0xFFFFFFFF, ceSince := x.ceSince + 1 }

/-- An uncorrectable word: counted, reported, and a row test asked for; the word goes back with poison unless the write-back
is cancelled (R200, R206). -/
def State.hbmUe (s : State) (a : Nat) (cancelled : Bool) : State :=
  let n := stackOf a
  let s1 := ((s.mcError n 1 a).satReg (ra .MC_UE_COUNT n)).log .HBM_UE n [a]
  let s2 := s1.modMc n fun m =>
    { m.modPc (hbmPc a) (fun x => { x with ue := min (x.ue + 1) 0xFFFFFFFF }) with
      rowTests := m.rowTests ++ [{ addr := a }] }
  if cancelled then s2 else s2.markPoison (a / 32 * 32) 32 true

/-- One read of a 32 B word by the code (R200). -/
def State.hbmWord (s : State) (a : Nat) (hw : HbmHw) (cancelled : Bool) : State :=
  if s.setFenced a ∨ s.retired a then s
  else match hw with
  | .ok => if s.rangePoison (a / 32 * 32) 32 then (s.mcError (stackOf a) 1 a).satReg (ra .MC_UE_COUNT (stackOf a)) else s
  | .ce => s.hbmCe a
  | .ue => s.hbmUe a cancelled

/-- HBM_READ: a read whose 64 B unit matches a queued write waits until that write has been issued (R205). -/
def State.hbmRead (s : State) (a : Nat) (hw : HbmHw) : State :=
  let n := stackOf a
  if hbmEnd ≤ a ∨ (s.mc n).run ≠ 3 then s
  else
    let p := hbmPc a
    let hit := ((s.mc n).pc p).writeQueue.contains (a / 64)
    let s1 := if hit then
        (s.modMc n fun m => m.modPc p fun x => { x with writeQueue := x.writeQueue.filter (· != a / 64) }).wrapReg
          (ra .MC_RAW_WAITS n)
      else s
    s1.hbmWord a hw false

/-- R205: a write queue holds 64 entries. -/
def writeQueueMax : Nat := 64

/-- HBM_WRITE_ACCEPT: a whole 64 B unit enters the write queue; from a full queue the oldest write is issued first. -/
def State.hbmWrite (s : State) (a : Nat) (data : List Byte) (poison : Bool) : State :=
  let n := stackOf a
  if hbmEnd ≤ a ∨ a % 64 ≠ 0 ∨ (s.mc n).run ≠ 3 then s
  else
    let s1 := s.writeMem a (padTo 64 data) poison
    if s.setFenced a then s1
    else s1.modMc n fun m => m.modPc (hbmPc a) fun x =>
      { x with writeQueue := (if x.writeQueue.length < writeQueueMax then x.writeQueue else x.writeQueue.drop 1) ++ [a / 64] }

/-! ### Losing a range (R204, R193) -/

/-- The image that a graph's copies are read from: a copy without poison, else copy 0. -/
def State.graphImage (s : State) (gr : Graph) : Img := s.image ((s.liveCopy gr.images gr.imageLen).getD gr.image0)

/-- The other place of a buffer: its alternate stack, or its home again once it lies on the alternate (R152, R469); none when
it has none that stands. -/
def State.otherPlace (s : State) (x : Buffer) : Option (Nat × Nat) :=
  let p := if x.at_ ≠ x.addr then (x.addr, x.home) else (x.altAddr, x.alt)
  if p.2 = 0xFF ∨ s.setFenced p.1 then none else some p

/-- Step 7 of R152 for one buffer: it moves to its other stack and starts from its initial value or zeros. -/
def rehome (g : Nat) (s : State) (bi : Nat) : State :=
  match s.graph? g with
  | none => s
  | some gr =>
    let x := nth {} gr.bundle.buffers bi
    match s.otherPlace x with
    | none => s
    | some (a, stack) =>
      let m := s.graphImage gr
      let s1 := s.modGraph g fun gr => { gr with bundle := { gr.bundle with
        buffers := gr.bundle.buffers.modify bi fun x => { x with at_ := a, committedHigh := false } } }
      let s2 := s1.writeMem a (List.replicate x.span 0)
      let s3 := if x.isState then resetStateBuffer m s2 g bi else s2.writeMem a (gr.bundle.initial m x)
      (s3.raiseVersion stack g bi id .fold).log .BUFFER_REHOMED stack [g, bi, a]

/-- A graph's buffers in a lost range: open frames withheld, buffers re-homed (R204). -/
def loseBuffers (lo hi : Nat) (s : State) (gr : Graph) : State :=
  let hit := (List.range gr.bundle.buffers.length).filter fun bi =>
    let x := nth {} gr.bundle.buffers bi
    overlaps x.at_ x.span lo (hi - lo)
  if hit = [] then s
  else
    let s1 := gr.frames.foldl (fun s fr => s.withhold gr.num fr.num Status.INVALID) s
    hit.foldl (rehome gr.num) s1

/-- A poisoned read or a fence of the range of its road map puts a planner in MAP_LOST (R348). -/
def State.loseMap (s : State) (h : Nat) : State :=
  ({ s with pln := { s.pln with pl := tblMod {} s.pln.pl h fun p => { p with run := .MAP_LOST } } }.raise .PLN h 4).log .ROADMAP_LOST
    (4 + h) [h]

/-- The road maps whose image a lost range touches. -/
def State.loseMaps (s : State) (lo hi : Nat) : State :=
  [0, 1].foldl (fun s h =>
    let p := tblGet {} s.pln.pl h
    if p.run = .READY ∧ overlaps p.map.addr p.map.len lo (hi - lo) then s.loseMap h
    else s) s

/-- What a lost range of a die's stack has for effect (R204). -/
def State.loseRange (s : State) (lo hi die : Nat) : State :=
  let keep (r : RcState) : RcState :=
    { r with lines := r.lines.filter (fun l => !(lo ≤ 128 * l.addr && 128 * l.addr < hi)) }
  let rcs := (s.hbm.rcs.map (fun e => (e.1, keep e.2))).filter (fun e => e.2 ≠ {})
  let s1 := { s with hbm := { s.hbm with rcs := rcs } }.loseMaps lo hi
  let s2 := s1.graphs.graphs.foldl (loseBuffers lo hi) s1
  let s3 := s2.graphs.graphs.foldl (fun s gr =>
    if gr.images.any (fun i => overlaps i gr.imageLen lo (hi - lo)) then s.log .IMAGE_COPY_LOST die [gr.num] else s) s2
  if (s3.catRegion die).any fun b => overlaps b 0x2000000 lo (hi - lo) then losePools s3 die fun d => !s3.dieFenced d
  else
    let c := s3.cache.modCat die (quarantineCat lo hi s3.cache.pools)
    s3.setCache { c with pools := (c.pools.map fun e => (e.1, if e.2.die = die then e.2.loseFrames lo hi else e.2)) }

/-- Serve a pseudo-channel's whole interleave set as lost (R204). -/
def State.loseSet (s : State) (n set : Nat) : State := s.modMc n fun m => { m with lostSets := addNew m.lostSets set }

/-- PC_FENCE: the fault manager fences a pseudo-channel and poisons its set's range (R204). -/
def State.fenceSet (s : State) (n p : Nat) : State :=
  let set := p / 4
  let s1 := (s.loseSet n set).modMc n fun m =>
    { m.modPc p (fun x => { x with st := 3 }) with setAvail := m.setAvail - (if bitN m.setAvail set then 2 ^ set else 0) }
  let lo := n * 0x400000000 + set * 0x80000000
  ((s1.raise .MC n 5).log .HBM_PC_FENCED n [p, set]).loseRange lo (lo + 0x80000000) n

/-! ### Row tests (R201, R202) -/

/-- The row that an address lies in, as one key. -/
def rowKey (a : Nat) : Nat := (hbmPc a * 32 + hbmBank a) * 16384 + hbmRow a

/-- R202: repairs per stack, retired blocks per interleave set, and the glint window of 24 h. -/
def repairMax : Nat := 256
/-- R202. -/
def retiredPerSet : Nat := 64
/-- R202: 24 h in µs. -/
def dayUs : Nat := 86400000000

/-- ROW_TEST: the oldest test asked for starts (R201). -/
def State.rowTest (s : State) (n : Nat) : State :=
  if (s.mc n).run = 3 ∧ ¬ (s.mc n).rowTests.any (·.started) then
    s.modMc n fun m => { m with rowTests := match m.rowTests with
      | t :: r => { t with started := true } :: r
      | [] => [] }
  else s

/-- Retire the 4 KiB block of a row (R202); a 65th block of a set fences the set instead. -/
def State.retire (s : State) (a : Nat) : State :=
  let n := stackOf a
  let blk := a % 0x400000000 / 4096
  let set := hbmSet a
  if retiredPerSet ≤ ((s.mc n).retired.filter (fun b => b / 0x80000 == set)).length then s.fenceSet n (4 * set)
  else ((s.modMc n fun m => { m with retired := m.retired ++ [blk] }).raise .MC n 4).log .HBM_PAGE_RETIRED n [blk]

/-- A lasting row: repaired when the stack has a spare row, else its block is retired; a repair that cannot be recorded
fences the set (R202). -/
def State.rowLasting (s : State) (a : Nat) (spare : Bool) : State :=
  let n := stackOf a
  let s1 := (s.mcError n 2 a).log .HBM_ROW_LASTING n [a]
  if spare then
    if (s1.mc n).repairs.length < repairMax then
      (s1.modMc n fun m => { m with repairs := m.repairs ++ [rowKey a] }).log .HBM_ROW_REPAIRED n [a]
    else s1.fenceSet n (hbmPc a)
  else s1.retire a

/-- ROW_TEST_DONE: a pass is a glint, and a second glint of the row within 24 h, or a fail, makes it lasting (R202). -/
def State.rowTestDone (s : State) (n : Nat) (passed spare : Bool) : State :=
  match (s.mc n).rowTests with
  | [] => s
  | t :: rest =>
    if ¬ t.started then s
    else
      let k := rowKey t.addr
      let s1 := s.modMc n fun m => { m with rowTests := rest }
      if passed then
        let again := (s.mc n).glints.any (fun g => g.1 == k && s.mgtTime < g.2 + dayUs)
        let s2 := (s1.modMc n fun m =>
          { m with glints := m.glints.filter (fun g => g.1 != k) ++ [(k, s.mgtTime)]
                   glintCount := min (m.glintCount + 1) 0xFFFFFFFF }).log .HBM_ROW_GLINT n [t.addr]
        if again then s2.rowLasting t.addr spare else s2
      else s1.rowLasting t.addr spare

/-! ### Command parity (R203) -/

/-- CA_PARITY_ALERT: an alert and its replay episode, of which the first `drawn` replays draw a new alert; when the fourth
does, the episode fails and the set is lost (R203, R204). -/
def State.caParity (s : State) (n p drawn : Nat) : State :=
  if (s.mc n).run ≠ 3 ∨ ((s.mc n).pc p).st ≠ 0 then s
  else
    let runs := min (drawn + 1) 4
    let s1 := (s.satReg (ra .MC_CA_REPLAYS n) runs).log .HBM_CA_REPLAY n [p, runs]
    if drawn < 4 then s1.modMc n fun m => m.modPc p fun x => { x with replays := drawn }
    else
      let s2 := (s1.modMc n fun m => m.modPc p fun x => { x with replays := 4, st := 2 }).loseSet n (p / 4)
      s2.raise .MC n 3

/-! ### Refresh, scrubbing and calibration (R206, R207) -/

/-- HBM_REFRESH: one per-bank refresh of a pseudo-channel. -/
def State.hbmRefresh (s : State) (n p : Nat) : State :=
  if (s.mc n).run = 3 then
    s.modMc n fun m => m.modPc p fun x => { x with refreshBank := (x.refreshBank + 1) % 32, refreshes := x.refreshes + 1 }
  else s

/-- The threshold in °C above which a refresh rate holds. -/
def refreshFloor (rate : Nat) : Int := if rate = 2 then 95 else 85

/-- The temperature of a stack in 0.125 °C (R446). -/
def State.stackTemp (s : State) (n : Nat) : Int := (tblGet ({} : SpotState) s.thermal.spots (22 + n)).value

/-- REFRESH_RATE_DOWN: after 1 s at least 3 °C below the threshold. -/
def State.refreshDown (s : State) (n : Nat) : State :=
  let m := s.mc n
  match m.coolSince with
  | some t =>
    if 0 < m.refresh ∧ t + 1000000 ≤ s.now then
      let r := m.refresh - 1
      (s.modMc n fun m => { m with
        refresh := r
        coolSince := if 0 < r ∧ s.stackTemp n + 24 ≤ 8 * refreshFloor r then some s.now else none }).log .HBM_REFRESH_RATE n [r]
    else s
  | none => s

/-- The size of a stack: 16 GiB. -/
def stackBytes : Nat := 0x400000000

/-- PATROL_SCRUB: the next 64 B unit; its first word meets `hw` (R206). -/
def State.patrolScrub (s : State) (n : Nat) (hw : HbmHw) (overtaken : Bool) : State :=
  let m := s.mc n
  if m.run ≠ 3 then s
  else
    let s1 := s.hbmWord (n * stackBytes + m.scrubPos) hw overtaken
    if m.scrubPos + 64 < stackBytes then
      s1.modMc n fun m => { m with scrubPos := m.scrubPos + 64, scrubbing := true }
    else
      (s1.modMc n fun m => { m with scrubPos := 0, scrubPasses := (m.scrubPasses + 1) % 2 ^ 32 }).log .HBM_SCRUB_DONE n []

/-- PHY_CALIBRATION: every 256 ms. -/
def State.phyCalibration (s : State) (n : Nat) : State :=
  if (s.mc n).run = 3 ∧ (s.mc n).lastCalibration + 256000 ≤ s.now then
    s.modMc n fun m => { m with lastCalibration := s.now }
  else s

/-! ### Remote caches (R210 … R212) -/

/-- The set of an address: A[20:7] XOR A[34:21]. -/
def rcSet (a : Nat) : Nat := Nat.xor (bitsN a 20 7) (bitsN a 34 21)

/-- The way that the tree of a set names: `bits` holds the nodes 1 … 15, each pointing at its older half. -/
def plruVictim (bits : Nat) : Nat :=
  let step (n : Nat) : Nat := 2 * n + b2n (bitN bits n)
  step (step (step (step 1))) - 16

/-- Point every node on the way to `w` away from it. -/
def plruTouch (bits w : Nat) : Nat :=
  [0, 1, 2, 3].foldl (fun b i =>
    let node := (16 + w) / 2 ^ (4 - i)
    let right := bitN (16 + w) (3 - i)
    if right then b - (if bitN b node then 2 ^ node else 0) else Nat.lor b (2 ^ node)) bits

/-- The buffer of a loaded graph that an address falls in, by a die's range table (R211). -/
def State.rangeOf (s : State) (d a : Nat) : Option (Nat × Nat) :=
  (s.rc d).ranges.find? fun r => match s.graph? r.1 with
    | some gr => let x := nth {} gr.bundle.buffers r.2; decide (x.at_ ≤ a ∧ a < x.at_ + x.span)
    | none => false

/-- The cache takes part: enabled, and not all ways are mapped out (R212). -/
def State.rcOn (s : State) (d : Nat) : Bool :=
  (s.reg (ra .RC_CTRL d)).getLsbD 0 && (s.rc d).waysOff != 0xFFFF

/-- An uncorrectable error of a line: it goes, and a way's fourth error maps the way out (R212). -/
def State.rcUe (s : State) (d : Nat) (l : RcLine) (bit : Nat) : State :=
  let n := tblGet 0 (s.rc d).wayErrors l.way + 1
  let s1 := ((s.satReg (ra .RC_UE_COUNT d)).raise .RC d bit).modRc d fun r =>
    { r with lines := r.lines.filter (fun x => x ≠ l), wayErrors := tblSet 0 r.wayErrors l.way n }
  if n = 4 then
    (s1.modRc d fun r => { r with waysOff := Nat.lor r.waysOff (2 ^ l.way), lines := r.lines.filter (fun x => x.way != l.way) }).log
      .RC_WAY_DISABLED d [l.way]
  else s1

/-- A fill starts for an address (R211). -/
def State.rcStartFill (s : State) (d a g b : Nat) : State :=
  s.modRc d fun r => { r with fills := r.fills ++ [{ addr := a / 128, graph := g, buffer := b, version := s.versionAt d g b }] }

/-- RC_LOOKUP by a core of die `d`: a hit needs the address and the current version; any other read that may allocate misses
and fills (R211, R212). -/
def State.rcLookup (s : State) (d a : Nat) (hw : RcHw) : State :=
  match s.rangeOf d a with
  | none => s
  | some (g, b) =>
    if hbmEnd ≤ a ∨ stackOf a = d ∨ ¬ s.rcOn d then s
    else
      let s1 := s.wrapReg (ra .RC_LOOKUPS d)
      match (s.rc d).lines.find? (fun l => l.addr == a / 128) with
      | none => s1.rcStartFill d a g b
      | some l =>
        if l.version = s.versionAt d l.graph l.buffer then
          let s2 := (s1.wrapReg (ra .RC_HITS d)).modRc d fun r =>
            { r with plru := tblMod 0 r.plru (rcSet a) (fun p => plruTouch p l.way) }
          match hw with
          | .ok => s2
          | .ce => s2.satReg (ra .RC_CE_COUNT d)
          | .ue => s1.rcUe d l 0
          | .tag => s1.rcUe d l 1
        else ((s1.wrapReg (ra .RC_STALE d)).modRc d fun r => { r with lines := r.lines.filter (fun x => x ≠ l) }).rcStartFill
          d a g b

/-- The way of a new line: the lowest free way in use, else the tree's victim, else the next way in use after it. -/
def RcState.newWay (r : RcState) (set : Nat) : Option Nat :=
  let on := (List.range 16).filter (fun w => !bitN r.waysOff w)
  let used := (r.lines.filter (fun l => rcSet (128 * l.addr) == set)).map (·.way)
  match on.find? (fun w => !used.contains w) with
  | some w => some w
  | none =>
    let v := plruVictim (tblGet 0 r.plru set)
    (on.find? (fun w => v ≤ w)).orElse fun _ => on.head?

/-- RC_FILL: the oldest fill of an address returns; it allocates unless it is poisoned or was overtaken by a write (R212). -/
def State.rcFill (s : State) (d a : Nat) : State :=
  match takeFirst (fun (f : RcFill) => f.addr == a / 128) (s.rc d).fills with
  | none => s
  | some (f, rest) =>
    let s1 := s.modRc d fun r => { r with fills := rest }
    let (data, poison) := s.readMem (128 * f.addr) 128
    if f.overtaken then s1.wrapReg (ra .RC_FILLS_DROPPED d)
    else if poison ∨ ¬ s.rcOn d then s1
    else
      match (s.rc d).newWay (rcSet a) with
      | none => s1
      | some w => s1.modRc d fun r =>
        { r with
          lines := r.lines.filter (fun l => l.addr != f.addr && !(l.way == w && rcSet (128 * l.addr) == rcSet a)) ++
            [{ addr := f.addr, graph := f.graph, buffer := f.buffer, version := f.version, way := w, data := data }]
          plru := tblMod 0 r.plru (rcSet a) (fun p => plruTouch p w) }

/-- RC_CTRL_WRITE: clearing en stops allocation and drops all lines (R212). -/
def State.rcCtrl (s : State) (hub d : Nat) (v : Word) : State :=
  s.rwl hub (ra .RC_CTRL d) fun s =>
    let s1 := s.putReg (ra .RC_CTRL d) v
    if v.getLsbD 0 then s1 else s1.modRc d fun r => { r with lines := [], fills := [] }

/-! ### The commands -/

/-- HBM_READ (R200). -/
def execHbmRead (addr : Nat) (hw : HbmHw) (s : State) : Host.Outcome State Fault Refusal := .next (s.hbmRead addr hw)
/-- HBM_WRITE_ACCEPT (R205). -/
def execHbmWriteAccept (addr : Nat) (data : List Byte) (poison : Bool) (s : State) : Host.Outcome State Fault Refusal :=
  .next (s.hbmWrite addr data poison)
/-- ROW_TEST (R201). -/
def execRowTest (stack : Fin 4) (s : State) : Host.Outcome State Fault Refusal := .next (s.rowTest stack)
/-- ROW_TEST_DONE (R202). -/
def execRowTestDone (stack : Fin 4) (passed spare : Bool) (s : State) : Host.Outcome State Fault Refusal :=
  .next (s.rowTestDone stack passed spare)
/-- CA_PARITY_ALERT (R203). -/
def execCaParityAlert (stack : Fin 4) (pc : Fin 32) (drawn : Fin 5) (s : State) : Host.Outcome State Fault Refusal :=
  .next (s.caParity stack pc drawn)
/-- PC_FENCE (R204): of a pseudo-channel whose set the controller serves as lost. -/
def execPcFence (stack : Fin 4) (pc : Fin 32) (s : State) : Host.Outcome State Fault Refusal :=
  .next (if ((s.mc stack).pc pc).st = 2 then s.fenceSet stack pc else s)
/-- HBM_REFRESH (R206). -/
def execHbmRefresh (stack : Fin 4) (pc : Fin 32) (s : State) : Host.Outcome State Fault Refusal := .next (s.hbmRefresh stack pc)
/-- REFRESH_RATE_DOWN (R206). -/
def execRefreshRateDown (stack : Fin 4) (s : State) : Host.Outcome State Fault Refusal := .next (s.refreshDown stack)
/-- PATROL_SCRUB (R206). -/
def execPatrolScrub (stack : Fin 4) (hw : HbmHw) (overtaken : Bool) (s : State) : Host.Outcome State Fault Refusal :=
  .next (s.patrolScrub stack hw overtaken)
/-- PHY_CALIBRATION (R207). -/
def execPhyCalibration (stack : Fin 4) (s : State) : Host.Outcome State Fault Refusal := .next (s.phyCalibration stack)
/-- RC_LOOKUP (R211). -/
def execRcLookup (die : Fin 4) (addr : Nat) (hw : RcHw) (s : State) : Host.Outcome State Fault Refusal :=
  .next (s.rcLookup die addr hw)
/-- RC_FILL (R212). -/
def execRcFill (die : Fin 4) (addr : Nat) (s : State) : Host.Outcome State Fault Refusal := .next (s.rcFill die addr)
/-- RC_CTRL_WRITE (R212). -/
def execRcCtrlWrite (hub : Fin 2) (die : Fin 4) (value : BitVec 32) (s : State) : Host.Outcome State Fault Refusal :=
  .next (s.rcCtrl hub die value)

end Sys2Proof.Machine
end

