-- ==== Sys2Proof/Machine/PlanOps.lean ====
section
/-! DEFINITION. Shared operations of the planners: which of them work and lead (R353, R376), the end of a MAP_EDITION and of a
PLAN_REQ (R354, R378), and the loss of a planner (R376, R379). -/

namespace Sys2Proof.Machine

/-! ### The planners -/

/-- A planner of the package. -/
def State.planner (s : State) (h : Nat) : PlannerState := tblGet {} s.pln.pl h
/-- Change a planner. -/
def State.modPlanner (s : State) (h : Nat) (f : PlannerState → PlannerState) : State :=
  { s with pln := { s.pln with pl := tblMod {} s.pln.pl h f } }
/-- Change the round of a planner. -/
def State.modRound (s : State) (h : Nat) (f : Round → Round) : State := s.modPlanner h fun p => { p with round := p.round.map f }

/-- A planner works: its hub die is not lost and it is not treated as lost (R376, R399). -/
def State.plannerRuns (s : State) (h : Nat) : Bool :=
  (s.planner h).run != .RESET && !(s.link h).lost && !s.lan.lostUnits.contains (36 + h)

/-- The planners that work. -/
def State.plannersOn (s : State) : List Nat := [0, 1].filter s.plannerRuns

/-- The leading planner (R353, R376). -/
def State.planLeader (s : State) : Nat := if s.plannerRuns s.mgt.active then s.mgt.active else 1 - s.mgt.active

/-- The planners that a mask names and that work. -/
def State.namedPlanners (s : State) (mask : Nat) : List Nat := s.plannersOn.filter (bitN mask)

/-- One planner has staged edition `e`: its MAP_EDITION completes once every named planner has. -/
def State.stagedBy (s : State) (h e : Nat) : State :=
  match takeFirst (fun (x : Nat × Packet × List Nat) => x.1 == e) s.pln.waiting with
  | none => s
  | some ((_, p, left), rest) =>
    let l := left.filter (· != h)
    if l = [] then { s with pln := { s.pln with waiting := rest } }.finish p Status.OK (toLe 4 e)
    else { s with pln := { s.pln with waiting := (e, p, l) :: rest } }

/-! ### Rounds that are abandoned (R376, R379) -/

/-- A round of a frame of graph `g`. -/
def RoundFor.ofGraph (g : Nat) : RoundFor → Bool
  | .frame g' _ => g' == g
  | .request _ => false

/-- The planners without the rounds that meet a condition, and without what is under way for them. -/
def PlannersState.dropRounds (x : PlannersState) (d : RoundFor → Bool) : PlannersState :=
  let drop (p : PlannerState) : PlannerState :=
    { p with frameRounds := p.frameRounds.filter (fun y => !d (.frame y.1 y.2.1)), round := p.round.filter (fun r => !d r.for_)
             requests := p.requests.filter (fun q => !d (.request q.id)), cuts := p.cuts.filter (fun c => !d c.for_) }
  { x with pl := (x.pl.map fun e => (e.1, drop e.2)).filter (fun e => e.2 ≠ {}), cuts := x.cuts.filter (fun c => !d c.2.for_)
           active := x.active.filter (fun q => !d (.request q.id)), digests := x.digests.filter (fun y => !d y.1), handed := x.handed.filter (fun y => !d y.for_) }

/-- The result area of a PLAN_REQ completion from its record (R378). -/
def requestResult (r : List Byte) : List Byte :=
  let part (o n : Nat) : List Byte := (r.drop o).take n
  part 0 8 ++ part 16 8 ++ part 44 4 ++ part 12 1

/-- Complete the PLAN_REQ of a round. -/
def State.endRequest (s : State) (q : PlanRequest) (status : Nat) (record : List Byte) : State :=
  { s with pln := s.pln.dropRounds fun w => w == RoundFor.request q.id }.finish q.pkt status (if record = [] then [] else requestResult record) record

/-- The request of a number that is not completed. -/
def State.request? (s : State) (id : Nat) : Option PlanRequest := s.pln.active.find? fun q => q.id == id

/-- A planner is lost with its hub die, or the planner is treated as lost: the other leads alone. -/
def State.losePlanner (s : State) (h : Nat) : State :=
  let o := 1 - h
  let led := s.planLeader == h
  let p := s.planner h
  let gone := s.pln.active.filter fun q => !bitN q.planners o
  let frames := match p.round with
    | some r => led && (match r.for_ with
      | .frame _ _ => true
      | .request _ => false)
    | none => false
  let s1 := s.modPlanner h fun _ => {}
  let s2 := gone.foldl (fun s q => s.endRequest q Status.FENCED []) s1
  let s3 := if frames then match s2.graph? (bits (s.reg (ra .PLN_CFG o)) 29 24) with
      | some gr => { (gr.frames.foldl (fun s fr => s.withhold gr.num fr.num Status.INVALID) s2) with
          pln := s2.pln.dropRounds (RoundFor.ofGraph gr.num) }
      | none => s2
    else s2
  let q := s3.planner o
  let last := match q.staging.getLast? with
    | some j => j.edition
    | none => q.newest
  let s4 : State := { s3 with pln := { s3.pln with
    lastNumber := if led then last else s3.pln.lastNumber, orders := [], cuts := [], digests := [] } }
  let s5 := s4.pln.handed.foldl (fun s y => match y.for_ with
    | .request id => match s.request? id with
      | some q => s.endRequest q y.status y.record
      | none => s
    | .frame _ _ => s) s4
  let lone := s5.pln.active.filter fun q =>
    !(s5.planner o).requests.any (fun x => x.id == q.id) && !(match (s5.planner o).round with
      | some r => r.for_ == .request q.id
      | none => false)
  let s6 := ({ s5 with pln := { s5.pln with handed := [] } }.modRound o fun r => { r with paired := false, leader := o }).modPlanner o fun p =>
    { p with requests := p.requests ++ lone }
  s6.pln.waiting.foldl (fun s w =>
    if led ∧ last ≠ w.1 ∧ ¬ q.staging.any (fun j => j.edition == w.1) then
      { s with pln := { s.pln with waiting := s.pln.waiting.filter fun x => x.1 != w.1 } }.finish w.2.1 Status.FENCED
    else s.stagedBy h w.1) s6

/-- A hub die has failed: its link and its planner are lost until the next package reset (R245, R376, R419). -/
def State.failHub (s : State) (h : Nat) : State := (s.losePlanner h).loseHub h

end Sys2Proof.Machine
end

