-- ==== Sys2Proof/Machine/Promise.lean ====
section
/-! DEFINITION. What every part of the device may ask of a lantern: its errors and event record (R416, R417), the single-fault
promise (R409) and the ratings condition (R458). -/

namespace Sys2Proof.Machine

/-! ### A lantern's errors and event record -/

/-- A lantern judges frames: it is RUNNING, or in its safe state. -/
def Lantern.works (l : Lantern) : Bool := l.run == .RUNNING || l.run == .SAFE

/-- The lanterns that work. -/
def State.workingLanterns (s : State) : List Nat := [0, 1].filter fun l => (s.lantern l).works

/-- R416: the event record holds 65,536 entries. -/
def recordEntries : Nat := 65536

/-- A lantern writes an event to its record, except in RESET and FAILED. -/
def State.lanRecord (s : State) (l : Nat) (ev : Event) (detail : List Nat) : State :=
  if (s.lantern l).run = .RESET ∨ (s.lantern l).run = .FAILED then s
  else
    let y := s.lantern l
    let e : RecEntry := { ev := ev, detail := detail, seq := y.recordNext, boot := y.boots, at_ := s.now - y.since }
    s.modLantern l fun x =>
      { x with record := (x.record ++ [e]).drop (x.record.length + 1 - recordEntries), recordNext := (x.recordNext + 1) % 2 ^ 32 }

/-- An event that a lantern logs: in its own record, and in the ledger (R416, R470). -/
def State.lanLog (s : State) (l : Nat) (ev : Event) (detail : List Nat) : State := (s.lanRecord l ev detail).log ev (4 + l) detail

/-- The checker ID of a lantern's error (R407). -/
def lanCheckerId (l bit : Nat) : Nat := 0x0F000000 + (4 + l) * 0x100000 + bit + 1

/-- An error event of a lantern: its bit reads 1 for 1 s (R417). -/
def State.lanError (s : State) (l bit : Nat) : State :=
  (s.modLantern l fun x =>
    { x with errFirst := if x.errStatus = 0 then lanCheckerId l bit else x.errFirst
             errHold := tblSet 0 x.errHold bit (s.now + 1000000) }).summarise .LAN

/-- A condition of a lantern that lasts: its bit reads 1 until it has ended and 1 s has passed since its event (R417). -/
def State.lanCondition (s : State) (l bit : Nat) (on : Bool) : State :=
  if on then
    if (s.lantern l).errLast.contains bit then s
    else ((s.lanError l bit).modLantern l fun x => { x with errLast := x.errLast ++ [bit] })
  else
    (s.modLantern l fun x => { x with
      errLast := x.errLast.filter (· != bit)
      errHold := tblMod 0 x.errHold bit fun t => if t ≤ s.now then 0 else t }).summarise .LAN

/-- LAN_ERR_HOLD_EXPIRY: the second of an event is over (R417). -/
def State.lanHoldExpiry (s : State) (l bit : Nat) : State :=
  if tblGet 0 (s.lantern l).errHold bit ≤ s.now ∧ ¬ (s.lantern l).errLast.contains bit then
    (s.modLantern l fun x => { x with errHold := tblSet 0 x.errHold bit 0 }).summarise .LAN
  else s

/-! ### The promise (R409) -/

/-- Every loaded safety-relevant graph has its checker placed (R113, R121). -/
def State.allChecked (s : State) : Bool :=
  s.graphs.graphs.all fun gr => gr.bundle.header.safety != 1 || (gr.bundle.header.checking != 0 && !gr.unplaceable)

/-- No unit is starved (R406). -/
def State.notStarved (s : State) : Bool := s.lan.units.all fun u => !u.2.starved

/-- LAN_PROMISE of a lantern. -/
def State.promise (s : State) (l : Nat) : Nat :=
  let x := s.lantern l
  let fields := 2 * b2n s.hif.locked + 4 * b2n s.allChecked + 8 * b2n s.notStarved + 16 * b2n (!s.mgt.otp.debugged) +
    32 * b2n x.withinRatings
  if x.run = .RESET ∨ x.run = .FAILED then 0
  else if fields = 62 ∧ s.mgt.otp.ordering = 1 then fields + 2 ^ 31 else fields

/-- LAN_PROMISE.holds. -/
def State.promiseHolds (s : State) (l : Nat) : Bool := bitN (s.promise l) 31

/-- The promise of the device holds while it holds at a lantern that works (log 33). -/
def State.promised (s : State) : Bool := s.workingLanterns.any s.promiseHolds

/-- A change in holds is recorded by its lantern and logged as PROMISE_CHANGE. -/
def State.promiseCheck (s : State) : State :=
  [0, 1].foldl (fun s l =>
    if (s.lantern l).works ∧ s.promiseHolds l ≠ (s.lantern l).promiseHeld then
      (s.modLantern l fun x => { x with promiseHeld := s.promiseHolds l }).log .PROMISE_CHANGE (4 + l) [l, b2n (s.promiseHolds l)]
    else s) s

/-! ### Ratings (R458) -/

/-- A power-good of a rail is low. -/
def State.pgoodLow (s : State) : Bool := (List.range 13).any fun r => !(tblGet ({} : RailState) s.thermal.rails r).good

/-- A condition under which the device is outside its ratings. -/
def State.outOfRatings (s : State) : Bool :=
  let t := s.thermal
  s.pgoodLow || t.spots.any (fun x => x.1 < 22 && 105 * 8 < x.2.value) || t.spots.any (fun x => 22 ≤ x.1 && 95 * 8 < x.2.value) ||
  (t.shade == 3 && (t.cause == 3 || t.cause == 5)) || t.flowSt == 1 || t.flowSt == 2 ||
  ((s.reg (ra .THM_CFG 0)).getLsbD 31 && (t.trayLost || t.inlet < -4000 || 7500 < t.inlet))

/-- The ratings conditions have been looked at: a lantern reads 0 while one holds, and for 10 s after the last of them. -/
def State.ratingsCheck (s : State) : State :=
  let out := s.outOfRatings
  ([0, 1].foldl (fun s l => s.modLantern l fun x =>
    if out then { x with withinRatings := false, ratingsSince := none }
    else { x with ratingsSince := if x.withinRatings then none else x.ratingsSince.orElse fun _ => some s.now }) s).promiseCheck

/-- RATINGS_HOLD_EXPIRY: ten seconds after the last condition has ended. -/
def State.ratingsExpiry (s : State) (l : Nat) : State :=
  match (s.lantern l).ratingsSince with
  | some t =>
    if t + 10000000 ≤ s.now ∧ ¬ s.outOfRatings then
      (s.modLantern l fun x => { x with withinRatings := true, ratingsSince := none }).promiseCheck
    else s
  | none => s

end Sys2Proof.Machine
end

