-- ==== Sys2Proof/Machine/Fences.lean ====
section
/-! DEFINITION. Fences, folds, targeted self-tests, stalls and the return home (R143 … R152, R223, R265, R398 … R401,
R419, R469). -/

namespace Sys2Proof.Machine

/-! ### Fences (R143 … R145) -/

/-- Whether a core lies in a unit. -/
def unitHas (u : FenceUnit) (c : Nat) : Bool :=
  match u with
  | .core x => x.val == c
  | .cluster k => k.val == c / 4
  | .die d => d.val == c / 8

/-- The fault manager has fenced this unit itself. -/
def State.unitFenced (s : State) (u : FenceUnit) : Bool :=
  match u with
  | .core c => s.graphs.fencedCores.contains c
  | .cluster k => s.graphs.fencedClusters.contains k
  | .die d => s.graphs.fencedDies.contains d

/-- Put a unit under a fence. -/
def State.markFenced (s : State) (u : FenceUnit) : State :=
  { s with graphs := match u with
    | .core c => { s.graphs with fencedCores := addNew s.graphs.fencedCores c }
    | .cluster k => { s.graphs with fencedClusters := addNew s.graphs.fencedClusters k }
    | .die d => { s.graphs with fencedDies := addNew s.graphs.fencedDies d } }

/-- Take a unit's fence away. -/
def State.markLifted (s : State) (u : FenceUnit) : State :=
  { s with graphs := match u with
    | .core c => { s.graphs with fencedCores := s.graphs.fencedCores.filter (· != c.val) }
    | .cluster k => { s.graphs with fencedClusters := s.graphs.fencedClusters.filter (· != k.val) }
    | .die d => { s.graphs with fencedDies := s.graphs.fencedDies.filter (· != d.val) } }

/-- Every open frame of a graph completes INVALID because of a fence, and its planning round is abandoned (R145, R379). -/
def State.withholdGraph (s : State) (g : Nat) : State :=
  match s.graph? g with
  | none => s
  | some gr =>
    let s1 := gr.frames.foldl (fun s fr => s.withhold g fr.num Status.INVALID) s
    { s1 with pln := s1.pln.dropRounds (RoundFor.ofGraph g) }

/-- Withhold the open frames of every graph that meets a condition. -/
def State.withholdWhere (s : State) (p : Graph → Bool) : State :=
  (s.graphs.graphs.filter p).foldl (fun s gr => s.withholdGraph gr.num) s

/-- R145: a graph has a station on the unit. -/
def Graph.onUnit (gr : Graph) (u : FenceUnit) : Bool := gr.places.any fun p => p.placed && unitHas u p.core

/-- The dies where a station's copies run. -/
def Graph.diesOf (gr : Graph) (station : Nat) : List Nat :=
  (gr.placed.filter (fun x => x.1.station == station && x.2.placed)).map (fun x => x.2.core / 8)

/-- The pairs of dies between which a graph's traffic runs: its streams, and its stations with the buffers they write and
read; what comes from outside starts at a hub die. -/
def Graph.flows (gr : Graph) : List (Nat × Nat) :=
  let ends (st : Nat) : List Nat := if st = 0xFFFF then [4, 5] else gr.diesOf st
  let pairs (a b : List Nat) := a.flatMap fun x => b.flatMap fun y => [(x, y), (y, x)]
  (gr.bundle.edges.flatMap fun e =>
    if e.kind = 0 then pairs (ends e.producer) (ends e.consumer)
    else pairs (ends e.producer ++ ends e.consumer) [dieOfAddr (nth {} gr.bundle.buffers e.buffer).at_]) ++
  gr.bundle.cards.flatMap fun c =>
    if c.stateBuf = 0xFFFF then [] else pairs (gr.diesOf c.station) [dieOfAddr (nth {} gr.bundle.buffers c.stateBuf).at_]

/-- R223: a graph has a stream or buffer whose route crosses a link. -/
def State.graphCrosses (s : State) (gr : Graph) (d p : Nat) : Bool := gr.flows.any fun f => s.crosses f.1 f.2 d p

/-- Fence one link at both its ends: its port states read FENCED, and frames that cross it are INVALID (R223, R236). -/
def State.fenceLink (s : State) (d p : Nat) : State :=
  match portPeer d p with
  | none => s
  | some (d', p') =>
    let s1 := s.withholdWhere (s.graphCrosses · d p)
    let f (x : PortState) : PortState := { x with st := 5, fenced := true, untested := true, flitFails := 0 }
    (s1.modPort d p f).modPort d' p' f

/-- A die that is gone owes no acknowledgement of a buffer version (R136). -/
def State.forgetDie (s : State) (d : Nat) : State :=
  let vs := s.graphs.versions.map fun v => { v with toSend := v.toSend.filter (· != d), toAck := v.toAck.filter (· != d)
                                                    arrived := v.arrived.filter (· != d) }
  let done := vs.filter (fun v => v.toAck.isEmpty)
  done.foldl (fun s v => s.releaseVersion v.then_)
    { s with graphs := { s.graphs with versions := vs.filter (fun v => !v.toAck.isEmpty) } }

/-- A die fence also fences the die's links and stack, and its pools are lost (R145, R193, R204). -/
def State.fenceDieParts (s : State) (d : Nat) : State :=
  let s1 := [0, 1, 2].foldl (fun s p => s.fenceLink d p) s
  let s2 := s1.loseRange (d * stackBytes) ((d + 1) * stackBytes) d
  let s3 := losePools s2 d fun x => !s2.dieFenced x
  let s4 := s3.setCache (s3.cache.modCat d fun k => { k with run := 3 })
  (s4.modRc d fun r => { r with lines := [], fills := [] }).forgetDie d

/-! ### The fold (R150 … R152, R469) -/

/-- The placement of every graph under the fences in force: number, places, and whether it keeps the limits beside the graphs
before it (R151). -/
def State.foldPlan (s : State) : List (Nat × List Place × Bool) :=
  (s.graphs.graphs.foldl (fun (acc : List (Nat × List Place × Bool) × List Placed) gr =>
    let own := gr.bundle.placedCards s.coreAlive
    let fits := placementFits own acc.2
    (acc.1 ++ [(gr.num, own.map (·.place), fits)], if fits then acc.2 ++ own else acc.2)) ([], [])).1

/-- The store that an on-chip address lies in has been lost: its core, or its cluster or die, is fenced. -/
def State.storeLost (s : State) (a : Nat) : Bool :=
  let d := dieOfAddr a
  let w := a % 0x1000000000
  if w < 0x8000000 then s.coreFenced (8 * d + w / storeBytes)
  else s.graphs.fencedClusters.contains (2 * d + (w - 0x10000000) / storeBytes) || s.dieFenced d

/-- The first byte of a store region of a place. -/
def MapEntry.base (r : MapEntry) (p : Place) : Nat :=
  (if r.store = 0 then coreBase p.core else clusterBase p.core) + 128 * r.line

/-- Move a state buffer: the COMMITTED copy goes along (R146, R512). -/
def State.moveState (s : State) (g bi a : Nat) : State :=
  match s.graph? g with
  | none => s
  | some gr =>
    let x := nth {} gr.bundle.buffers bi
    let (bs, p) := s.readMem (x.at_ + (if x.committedHigh then x.bytes else 0)) x.bytes
    (s.writeMem a bs p).modGraph g fun gr => { gr with bundle := { gr.bundle with
      buffers := gr.bundle.buffers.modify bi fun x => { x with at_ := a, committedHigh := false } } }

/-- Where an on-chip state buffer of a card lies at a place (R511, R512). -/
def Bundle.stateAt (b : Bundle) (c : Card) (p : Place) : Option Nat :=
  if p.level = 0 then some (nth {} b.buffers c.stateBuf).addr
  else ((b.regions c p).find? (fun r => r.kind == 3)).map (·.base p)

/-- The state buffer in a store goes with its station: moved, or set from its initial value when the store that held it is
lost (R142, R512). -/
def moveStationState (m : Img) (g : Nat) (s : State) (x : Card × Place) : State :=
  match s.graph? g with
  | none => s
  | some gr =>
    let b := nth {} gr.bundle.buffers x.1.stateBuf
    if x.1.stateBuf = 0xFFFF ∨ b.home ≠ 0xFF then s
    else
      match gr.bundle.stateAt x.1 x.2 with
      | none => s
      | some a =>
        if a = b.at_ then s
        else if s.storeLost b.at_ then
          resetStateBuffer m (s.modGraph g fun gr => { gr with bundle := { gr.bundle with
            buffers := gr.bundle.buffers.modify x.1.stateBuf fun x => { x with at_ := a, committedHigh := false } } })
            g x.1.stateBuf
        else s.moveState g x.1.stateBuf a

/-- Take one station of a graph off a core. -/
def CoreState.dropStation (k : CoreState) (p : Place) : CoreState :=
  let sl := tblGet {} k.slots p.slot
  { k with
    slots := tblSet {} k.slots p.slot {}
    prog := k.prog.filter (fun w => !((p.progStart ≤ w.1 && w.1 < p.progStart + sl.progLen) ||
      (p.rerunStart ≤ w.1 && w.1 < p.rerunStart + sl.rerunLen))) }

/-- Steps 4 … 6 and 8 of R152 for one graph: its stations that move, with their programs, streams, weights and state. -/
def State.moveStations (s : State) (g : Nat) (places : List Place) : State :=
  match s.graph? g with
  | none => s
  | some gr =>
    let b := gr.bundle
    let m := s.graphImage gr
    let moves := (b.cards.zip (gr.places.zip (places.zip b.programs))).filter (fun x => x.2.1 ≠ x.2.2.1)
    let s1 := moves.foldl (fun s x => if x.2.1.placed ∧ ¬ s.coreFenced x.2.1.core then
      s.modCore x.2.1.core (·.dropStation x.2.1) else s) s
    let s2 := s1.modGraph g fun gr =>
      { gr with places := places, unplaceable := false
                streams := (b.makeStreams places).map fun st => match gr.stream? st.edge st.copy with
                  | some old => old.carry st
                  | none => st }
    let s3 := moves.foldl (fun s x => installStation g s (x.1, x.2.2.1, x.2.2.2, b.copyOf x.1)) s2
    let s4 := moves.foldl (fun s x => copyWeights m b s (x.1, x.2.2.1)) s3
    moves.foldl (fun s x => moveStationState m g s (x.1, x.2.2.1)) s4

/-- One graph in a fold: it moves, stays, or becomes unplaceable (R151, R152). -/
def foldGraph (s : State) (x : Nat × List Place × Bool) : State :=
  match s.graph? x.1 with
  | none => s
  | some gr =>
    if ¬ x.2.2 then
      let s1 := s.withholdGraph x.1
      if gr.unplaceable then s1
      else ((s1.modGraph x.1 fun gr => { gr with unplaceable := true }).log .GRAPH_UNPLACEABLE 0xFF [x.1])
    else if x.2.1 = gr.places ∧ ¬ gr.unplaceable then s
    else (s.withholdGraph x.1).moveStations x.1 x.2.1

/-- Run a fold up to its last step, from the home placement with every fence in force (R152, R469). -/
def State.startFold (s : State) : State :=
  let s1 := { s with graphs := { s.graphs with folding := true } }.log .FOLD_START 0xFF []
  (s1.foldPlan.foldl foldGraph s1).setRoutes

/-- FENCE_SET: the fence, the frames it withholds, and the fold (R143 … R145, R152). -/
def State.fenceUnit (s : State) (u : FenceUnit) : State :=
  if s.unitFenced u then s
  else
    let s1 := s.withholdWhere (·.onUnit u)
    let s2 := match u with
      | .die d => (s1.markFenced u).fenceDieParts d
      | _ => s1.markFenced u
    let gone (t : Nat) : Bool := match u with
      | .die d => t == 32 + d.val || (t < 32 && unitHas u t)
      | _ => t < 32 && unitHas u t
    State.startFold { s2 with graphs := { s2.graphs with liftable := s2.graphs.liftable.filter (fun t => !gone t) } }

/-- FOLD_DONE: step 9 of R152. -/
def State.foldDone (s : State) : State :=
  if s.graphs.folding then
    let gs := s.graphs.graphs.map fun g => { g with placement := (g.placement + 1) % 2 ^ 32 }
    let s1 := { s with graphs := { s.graphs with folding := false, graphs := gs } }
    let s2 := [0, 1, 2, 3].foldl (fun s d => if s.dieFenced d then s else s.satReg (ra .TDE_FOLD_COUNT d)) s1
    s2.log .FOLD_DONE 0xFF []
  else s

/-! ### Lifting a fence (R146) -/

/-- The targeted self-tests that must have passed for a lift: each core's, or the die's. -/
def unitTests (u : FenceUnit) : List Nat :=
  match u with
  | .core c => [c]
  | .cluster k => (List.range 4).map (4 * k.val + ·)
  | .die d => [32 + d.val]

/-- A key of the register table of one of the blocks of Talxon die `d` (R109, R153, R195, R212, R213, R236). -/
def dieReg (d key : Nat) : Bool :=
  let inst := key / 32768 % 32
  let inBlock (b : Block) : Bool := (regRows b).any fun r => r.reg.ctorIdx == key / 2097152
  (inst / 8 == d && inBlock .CORE) || (inst == d && [Block.TDE, .CAT, .MC, .RC, .D2D].any inBlock)

/-- What the keeper of a stack keeps: everything but the controller's own counters and queues (R207, R213). -/
def McState.keep (m : McState) : McState :=
  { m with
    pcs := m.pcs.foldl (fun t e => tblSet {} t e.1 { st := if e.2.st = 2 ∨ e.2.st = 3 then e.2.st else 0 }) [], rowTests := [] }

/-- A die reset: cores, stores, engines, cache and links of one Talxon die; its HBM contents and its keeper stay (R418). The die
stays fenced until it rejoins (R419). -/
def State.resetDie (s : State) (d : Nat) : State :=
  let s1 := (List.range 8).foldl (fun s i => (s.resetCore (8 * d + i)).modCore (8 * d + i) fun k =>
    { k with run := .RESET, acc := [], ceBank := [], ceSince := 0, clusterLine := 0 }) s
  let s2 := (s1.zeroStore (clusterBase (8 * d))).zeroStore (clusterBase (8 * d + 4))
  let s3 := { s2 with regs := s2.regs.filter (fun e => !dieReg d e.1) }
  let s4 := s3.setCache (s3.cache.modCat d fun _ => { run := 1 })
  let s5 := (s4.modRc d fun r => { wayErrors := r.wayErrors, waysOff := r.waysOff }).modMc d McState.keep
  let f (x : PortState) : PortState := if x.lasting then x else { x with st := 2, fenced := false, tries := 0, sidebandFails := 0 }
  let s6 := [0, 1, 2].foldl (fun s p => match portPeer d p with
    | some (d', p') => if (s.port d p).lasting || !s.dieUp d' then s else (s.modPort d p f).modPort d' p' f
    | none => s) s5
  { s6 with recovery := { s6.recovery with
      dieResets := s6.recovery.dieResets.filter (fun x => x.1 != d) ++ [(d, s.now, false)] } }

/-- Place again what a lifted fence may let place (R151). -/
def State.replace (s : State) : State :=
  if s.graphs.graphs.any (·.unplaceable) then
    let s1 := { s with graphs := { s.graphs with folding := true } }.log .FOLD_START 0xFF []
    (s1.foldPlan.filter (fun x => x.2.2 && s1.graphs.graphs.any (fun g => g.num == x.1 && g.unplaceable))).foldl foldGraph s1
  else s

/-- FENCE_LIFT: after a passing test the unit takes a core or die reset and rejoins with no stations; a die stays fenced until
its reset has ended (R146, R419). -/
def State.liftFence (s : State) (u : FenceUnit) : State :=
  if s.unitFenced u ∧ (unitTests u).all (s.graphs.liftable.contains ·) ∧ ¬ s.graphs.folding then
    match u with
    | .die d => if s.recovery.dieResets.any (fun x => x.1 == d.val) then s else s.resetDie d
    | _ =>
      let s1 := s.markLifted u
      (((List.range 32).filter (unitHas u)).foldl (fun s c => s.resetCore c) s1).replace
  else s

/-! ### Stalls and targeted self-tests (R147, R148, R398 … R401) -/

/-- PASS_TIMEOUT: a pass that has run for its pass_timeout_us since firing. -/
def State.passTimeout (s : State) (c : Nat) : State :=
  let k := s.core c
  match s.passCard c with
  | some (_, cd) =>
    if k.run = .RUNNING ∧ k.firedAt + cd.passTimeout ≤ s.now ∧
        ¬ (s.graphs.tests ++ s.graphs.testing).any (fun t => t.unit == c && t.cause == 0) then s.stall c 0
    else s
  | none => s

/-- Abort the pass that runs on a core before its test (R106, R148). -/
def State.stopForTest (s : State) (c : Nat) : State :=
  let k := s.core c
  let s1 := if k.run = .RUNNING then
      let s0 := s.modGraph k.graph fun gr =>
        (gr.modFrame k.frame fun fr => { fr with aborted := addNew fr.aborted (k.station, k.copy) }).releaseInputs
          k.station k.copy k.frame
      ((s0.setCore c { (s0.core c).clearPass with run := .HALTED, testHold := true, stopped := true }).unpin
        k.passPins).withhold k.graph k.frame Status.INVALID
    else s
  s1.modCore c fun k => { k with run := .SELFTEST, testHold := true, tests := min (k.tests + 1) 65535, testResult := 3 }

/-- A unit whose fence a passing test may lift. -/
def State.liftTest (s : State) (u : Nat) : Bool :=
  if u < 32 then s.coreFenced u else u < 36 && s.dieFenced (u - 32)

/-- TARGETED_SELFTEST: the test asked for starts, and not while a fold runs (R149); the fault manager also tests a fenced unit
whose fence it wants to lift (R146). -/
def State.startTest (s : State) (u : Nat) : State :=
  if s.graphs.folding ∨ s.graphs.testing.any (fun t => t.unit == u) then s
  else
    let go (s : State) (t : TestReq) : State :=
      let s1 := { s with graphs := { s.graphs with testing := s.graphs.testing ++ [t] } }
      if u < 32 then s1.stopForTest u else s1
    match takeFirst (fun (t : TestReq) => t.unit == u) s.graphs.tests with
    | some (t, rest) => go { s with graphs := { s.graphs with tests := rest } } t
    | none => if s.liftTest u then go s { unit := u, cause := 6, at_ := s.now } else s

/-- What becomes of a unit with a lasting fault: a fence and a fold, or a hub unit treated as lost (R399); 42 + h stands for
the mesh of hub die h (R220, R419). -/
def State.lasting (s : State) (u chunk : Nat) : State :=
  let s1 := s.log .LASTING (if u < 32 then u / 8 else if u < 36 then u - 32 else 4 + u % 2) [u, chunk]
  if h : u < 32 then s1.fenceUnit (.core ⟨u, h⟩)
  else if h : u < 36 then s1.fenceUnit (.die ⟨u - 32, by omega⟩)
  else if 42 ≤ u then s1.failHub (u - 42)
  else
    let s2 := if u < 38 then s1.losePlanner (u - 36) else s1
    { s2 with lan := { s2.lan with lostUnits := addNew s2.lan.lostUnits u } }

/-- R400: the window of checked frames, and the glints that make a lasting fault. -/
def glintWindow : Nat := 1000
/-- R400. -/
def glintLimit : Nat := 3

/-- Count a glint of a unit (R399, R400). -/
def State.glint (s : State) (u : Nat) : State :=
  let l := (tblGet [] s.lan.glints u ++ [s.lan.checked]).filter (fun x => s.lan.checked < x + glintWindow)
  let s1 := { s with lan := { s.lan with glints := tblSet [] s.lan.glints u l } }.log .GLINT 0xFF [u]
  if glintLimit ≤ l.length then s1.lasting u 0 else s1

/-- The suspects of a mismatch that a unit's result concerns; the last result settles them: with every suspect of a SHADOW
mismatch passing there is no glint but SHADOW_DISAGREE, else each that passed counts one (R399, R401). -/
def State.suspectDone (s : State) (u : Nat) (passed : Bool) : State :=
  match takeFirst (fun (x : Suspects) => x.left.contains u) s.lan.suspects with
  | none => if passed then s.glint u else s
  | some (x, rest) =>
    let y : Suspects := { x with left := x.left.filter (· != u), passed := if passed then x.passed ++ [u] else x.passed
                                 failed := x.failed || !passed }
    if y.left ≠ [] then { s with lan := { s.lan with suspects := y :: rest } }
    else
      let s1 := { s with lan := { s.lan with suspects := rest } }
      match y.shadow, y.failed with
      | some (e, n), false =>
        ([0, 1].foldl (fun s l => s.modLantern l fun x => { x with shadowDisagree := min (x.shadowDisagree + 1) 0xFFFFFFFF })
          s1).log .SHADOW_DISAGREE 0xFF [e, n]
      | _, _ => y.passed.foldl (fun s v => s.glint v) s1

/-- SELFTEST_DONE: the result of the test that runs on a unit; `failed` is the failing chunk and, for a core, the failed unit of
CORE_SELFTEST. -/
def State.testDone (s : State) (u : Nat) (failed : Option (Nat × Nat)) : State :=
  match takeFirst (fun (t : TestReq) => t.unit == u) s.graphs.testing with
  | none => s
  | some (t, rest) =>
    let s1 := { s with graphs := { s.graphs with testing := rest } }
    let s2 := if u < 32 then s1.modCore u fun k =>
        CoreState.settle { k with run := .IDLE, testHold := false, stopped := false
                                  testResult := if failed.isNone then 1 else 2
                                  failedUnit := (failed.map (·.2)).getD 0 }
      else s1
    let s3 : State := match failed, t.cause with
      | none, 6 => { s2 with graphs := { s2.graphs with liftable := addNew s2.graphs.liftable u } }
      | some _, 6 => s2
      | _, 2 => s2.suspectDone u failed.isNone
      | none, _ => s2.glint u
      | some _, _ => s2
    match failed, t.cause with
    | some _, 6 => s3
    | some (chunk, _), _ => s3.lasting u chunk
    | none, _ => s3

/-! ### FENCE packets (R265) and the return home (R146) -/

/-- STALL_REPORT: a FENCE packet that names a core. -/
def State.stallReport (s : State) (p : Packet) : State :=
  let c := leAt p.header 18 2
  if p.argsOnly 20 = false ∨ 31 < c then s.takeFinish p Status.BAD_PACKET
  else (s.take p).stall c 2 |>.finish p Status.OK

/-- The home placement of a graph needs a fence lifted: a home core is not alive, or a state buffer's home stack is fenced. -/
def State.homeFenced (s : State) (gr : Graph) : Bool :=
  gr.bundle.cards.any (fun c => !s.coreAlive c.core) ||
  gr.bundle.buffers.any (fun x => x.isState && x.home != 0xFF && s.setFenced x.addr)

/-- RETURN_HOME and the ops that R265 does not list: a graph stops admitting frames. A second request for a graph that is on its
way home is NOT_READY. -/
def State.returnHome (s : State) (p : Packet) : State :=
  let g := leAt p.header 17 1
  if leAt p.header 16 1 ≠ 1 ∨ p.argsOnly 20 = false then s.takeFinish p Status.BAD_PACKET
  else
    match s.graph? g with
    | none => s.takeFinish p Status.BAD_PACKET
    | some gr =>
      if gr.state ≠ .running ∨ s.homeFenced gr then s.takeFinish p Status.NOT_READY
      else (s.take p).modGraph g fun gr => { gr with state := .paused, waiter := some p }

/-- Bring a graph's state buffers in HBM home with their COMMITTED copies. -/
def State.stateHome (s : State) (g : Nat) : State :=
  match s.graph? g with
  | none => s
  | some gr =>
    (List.range gr.bundle.buffers.length).foldl (fun s bi =>
      let x := nth {} gr.bundle.buffers bi
      if x.isState ∧ x.home ≠ 0xFF ∧ x.at_ ≠ x.addr then (s.moveState g bi x.addr).raiseVersion x.home g bi id .fold
      else s) s

/-- RETURN_HOME_RESUME: once the graph's frames have completed, its stations, weights and state move home and admission
resumes (R146, R223); a fence that came meanwhile ends the request NOT_READY. -/
def State.returnHomeResume (s : State) (g : Nat) : State :=
  match s.graph? g with
  | none => s
  | some gr =>
    if gr.state = .paused ∧ gr.frames = [] ∧ ¬ s.graphs.folding then
      let answer (s : State) (code : Nat) : State :=
        let s1 := s.modGraph g fun gr => { gr with state := .running, waiter := none }
        match gr.waiter with
        | some p => s1.finish p code
        | none => s1
      if s.homeFenced gr then answer s Status.NOT_READY
      else
        let home := gr.bundle.cards.map (gr.bundle.placeAt · 0)
        let s1 := ((s.moveStations g home).stateHome g).setRoutes
        answer (s1.modGraph g fun gr => { gr with placement := (gr.placement + 1) % 2 ^ 32 }) Status.OK
    else s

/-! ### The commands -/

/-- FENCE_SET (R143). -/
def execFenceSet (unit : FenceUnit) (s : State) : Host.Outcome State Fault Refusal := .next (s.fenceUnit unit)
/-- FOLD_DONE (R152). -/
def execFoldDone (s : State) : Host.Outcome State Fault Refusal := .next s.foldDone
/-- FENCE_LIFT (R146). -/
def execFenceLift (unit : FenceUnit) (s : State) : Host.Outcome State Fault Refusal := .next (s.liftFence unit)
/-- STALL_REPORT (R147, R265). -/
def execStallReport (link : Fin 2) (sq : Fin 64) (s : State) : Host.Outcome State Fault Refusal :=
  .next (match s.packet link sq 0x0B with
    | some p => if leAt p.header 16 1 = 0 then s.stallReport p else s
    | none => s)
/-- PASS_TIMEOUT (R147). -/
def execPassTimeout (core : Fin 32) (s : State) : Host.Outcome State Fault Refusal := .next (s.passTimeout core)
/-- TARGETED_SELFTEST (R148, R398, R399). -/
def execTargetedSelftest (unit : Fin 42) (s : State) : Host.Outcome State Fault Refusal := .next (s.startTest unit)
/-- SELFTEST_DONE (R399). -/
def execSelftestDone (unit : Fin 42) (failed : Option (Nat × Nat)) (s : State) : Host.Outcome State Fault Refusal :=
  .next (s.testDone unit failed)
/-- RETURN_HOME (R146, R265). -/
def execReturnHome (link : Fin 2) (sq : Fin 64) (s : State) : Host.Outcome State Fault Refusal :=
  .next (match s.packet link sq 0x0B with
    | some p => if leAt p.header 16 1 = 0 then s else s.returnHome p
    | none => s)
/-- RETURN_HOME_RESUME (R146). -/
def execReturnHomeResume (graph : Fin 64) (s : State) : Host.Outcome State Fault Refusal := .next (s.returnHomeResume graph)

end Sys2Proof.Machine
end

