-- ==== Sys2Proof/Machine/Fabric.lean ====
section
/-! DEFINITION. The on-die network and the die-to-die links: routing a message, mesh errors (R214 … R220), replays and link
faults (R228, R229), width agreement (R232, R233) and loop-back tests (R234). -/

namespace Sys2Proof.Machine

/-! ### Nodes and headers (R214 … R216, R227) -/

/-- The node of a module of a port (R214, R215). -/
def moduleNode (d p m : Nat) : Nat × Nat :=
  if 4 ≤ d then (2 * p + m, 0)
  else match p with
    | 0 => (3 + m, 0)
    | 1 => (5, 2 + m)
    | 2 => (1 + m, 7)
    | _ => (1 + m, 0)

/-- A node of a die's mesh: 6 × 8 on a Talxon die, 4 × 3 on a hub die (R214, R215). -/
def isNode (d x y : Nat) : Bool := if d < 4 then x < 6 && y < 8 else x < 4 && y < 3

end Sys2Proof.Machine

namespace Sys2Proof.NetMsg
open Sys2Proof.Machine

/-- vc: 0 CTRL, 1 STREAM, 2 MEM_REQ, 3 MEM_RSP, in the order of R217. -/
def vc (m : NetMsg) : Nat := bitsN m.header.toNat 63 62
/-- dst_die. -/
def dstDie (m : NetMsg) : Nat := bitsN m.header.toNat 61 59
/-- dst_x, dst_y. -/
def dst (m : NetMsg) : Nat × Nat := (bitsN m.header.toNat 58 56, bitsN m.header.toNat 55 53)
/-- src_die. -/
def srcDie (m : NetMsg) : Nat := bitsN m.header.toNat 52 50
/-- src_x, src_y. -/
def src (m : NetMsg) : Nat × Nat := (bitsN m.header.toNat 49 47, bitsN m.header.toNat 46 44)
/-- Flits of the message. -/
def flits (m : NetMsg) : Nat := bitsN m.header.toNat 43 38 + 1
/-- tag. -/
def tag (m : NetMsg) : Nat := bitsN m.header.toNat 31 0

/-- The poisoned response to a read (R220): MEM_RSP back to the requester, poison set, one flit. -/
def poisoned (m : NetMsg) : NetMsg :=
  { header := BitVec.ofNat 64 (3 * 2 ^ 62 + m.srcDie * 2 ^ 59 + m.src.1 * 2 ^ 56 + m.src.2 * 2 ^ 53 +
      m.dstDie * 2 ^ 50 + m.dst.1 * 2 ^ 47 + m.dst.2 * 2 ^ 44 + 2 ^ 37 + 2 ^ 36 + m.tag)
    read := false, addr := m.addr, payload := List.replicate 64 0 }

end Sys2Proof.NetMsg

namespace Sys2Proof.Machine

/-- The width code of a module in a port's trained-width word: 0 down, 3 full (R236). -/
def PortState.moduleWidth (x : PortState) (m : Nat) : Nat := bits x.width (2 * m + 1) (2 * m)

/-- The modules of a port: four between Talxon dies, two to a hub die (R15). -/
def modulesOf (d p : Nat) : Nat := if 4 ≤ d ∨ p = 0 then 2 else 4

/-- The up modules of a role (1 MEM), in ascending number. -/
def PortState.upModules (x : PortState) (n role : Nat) : List Nat :=
  (List.range n).filter fun m => x.moduleWidth m != 0 && b2n (bitN x.role m) == role

/-- R227: the module that a message takes; none when no module of its role is up. -/
def exitModule (x : PortState) (n : Nat) (m : NetMsg) : Option Nat :=
  if m.vc = 0 then (if x.moduleWidth 0 = 0 then none else some 0)
  else
    let ms := x.upModules n (if m.vc = 1 then 0 else 1)
    let k := if m.vc = 1 then m.tag / 65536 else Nat.xor (bitsN m.addr 13 6) (bitsN m.addr 21 14)
    ms[k % ms.length]?

/-- One hop inside a die: first along x, then along y (R219). -/
def hop (x y tx ty : Nat) : Nat × Nat :=
  if x < tx then (x + 1, y) else if tx < x then (x - 1, y) else if y < ty then (x, y + 1) else (x, y - 1)

/-- Change the network. -/
def State.modNet (s : State) (f : NetState → NetState) : State := { s with net := f s.net }

/-- A message reaches its destination; a response ends its read (R220). -/
def State.deliver (s : State) (d x y : Nat) (m : NetMsg) : State :=
  s.modNet fun n =>
    { n with
      delivered := n.delivered ++ [{ die := d, x := x, y := y, msg := m }]
      reads := if m.vc = 3 then n.reads.filter (fun r => !(r.die == d && r.x == x && r.y == y && r.tag == m.tag)) else n.reads }

/-- A message for an unreachable die: a read gets a poisoned response, anything else goes (R220). -/
def State.unreachableMsg (s : State) (d : Nat) (m : NetMsg) : State :=
  let s1 := s.raise .D2D d 6
  if m.vc = 2 ∧ m.read then s1.deliver m.srcDie m.src.1 m.src.2 m.poisoned else s1

/-- Forward a message from a node (R219): to the destination, to the next router, or across the link of its exit module. -/
def State.forward (s : State) (d x y : Nat) (m : NetMsg) : State :=
  let go (s : State) (d x y : Nat) : State :=
    s.modNet fun n => { n with messages := n.messages ++ [{ die := d, x := x, y := y, msg := m }] }
  if m.dstDie = d then
    if m.dst = (x, y) then s.deliver d x y m else let p := hop x y m.dst.1 m.dst.2; go s d p.1 p.2
  else
    let p := s.route d m.dstDie
    match portPeer d p with
    | none => s.unreachableMsg d m
    | some (d', p') =>
      match exitModule (s.port d p) (modulesOf d p) m with
      | none => go s d x y
      | some k =>
        let e := moduleNode d p k
        if (x, y) ≠ e then let q := hop x y e.1 e.2; go s d q.1 q.2
        else if (s.port d p).st = 4 ∧ (s.port d' p').st = 4 then
          let q := moduleNode d' p' k
          let s1 := s.modPort d p fun x => { x with txFlits := (x.txFlits + m.flits) % 2 ^ 32 }
          go (s1.modPort d' p' fun x => { x with rxFlits := (x.rxFlits + m.flits) % 2 ^ 32 }) d' q.1 q.2
        else go s d x y

/-- MESH_ROUTE: the router at a node takes a message of its input, or one that its endpoint sends; a header parity error drops
the message and asks for the die's mesh test (R220). -/
def State.meshRoute (s : State) (d x y : Nat) (m : NetMsg) (parity : Bool) : State :=
  let here (t : MeshMsg) : Bool := t.die == d && t.x == x && t.y == y && t.msg == m
  let arrived := s.net.messages.any here
  if ¬ isNode d x y ∨ (¬ arrived ∧ ¬ (m.srcDie = d ∧ m.src = (x, y))) then s
  else
    let s1 := if arrived then s.modNet fun n => { n with messages := ((takeFirst here n.messages).map (·.2)).getD [] }
      else if m.vc = 2 ∧ m.read then
        s.modNet fun n => { n with reads := n.reads ++ [{ die := d, x := x, y := y, tag := m.tag, since := s.now, msg := m }] }
      else s
    if parity then
      ((s1.raise .D2D d 5 (8 * y + x)).log .MESH_PARITY d [x, y]).modNet fun n => { n with meshTests := addNew n.meshTests d }
    else s1.forward d x y m

/-- MEM_READ_TIMEOUT: 100 µs without a response (R220). -/
def State.readTimeout (s : State) (d x y tag : Nat) : State :=
  match s.net.reads.find? (fun r => r.die == d && r.x == x && r.y == y && r.tag == tag && r.since + 100 ≤ s.now) with
  | none => s
  | some r => s.deliver d x y r.msg.poisoned

/-- MESH_TEST: a pass is a glint, a fail fences the die (R220); a hub die cannot be fenced and is lost (R419). -/
def State.meshTest (s : State) (d : Fin 6) (passed : Bool) : State :=
  if s.net.meshTests.contains d.val then
    let s1 := s.modNet fun n => { n with meshTests := n.meshTests.filter (· != d.val) }
    let u := if d.val < 4 then 32 + d.val else 38 + d.val
    if passed then s1.glint u
    else if h : d.val < 4 then s1.fenceUnit (.die ⟨d.val, h⟩)
    else s1.failHub (d.val - 4)
  else s

/-! ### Replays and link faults (R228, R229) -/

/-- R228: one flit's first failure and its 4 replays. -/
def flitFailLimit : Nat := 5
/-- R228. -/
def replayLimit : Nat := 1000
/-- One hour in µs. -/
def hourUs : Nat := 3600000000

/-- D2D_FLIT_CRC_FAIL: a failed flit is replayed (R228). -/
def State.crcFail (s : State) (d p : Nat) (same : Bool) : State :=
  if (s.port d p).st ≠ 4 then s
  else
    (s.raise .D2D d 0 (p * 256)).modPort d p fun x =>
      let within := s.now < x.replaySince + 1000000
      { x with
        crcErr := min (x.crcErr + 1) 0xFFFFFFFF
        replays := min (x.replays + 1) 0xFFFFFFFF
        replaySec := if within then x.replaySec + 1 else 1
        replaySince := if within then x.replaySince else s.now
        flitFails := if same then x.flitFails + 1 else 1 }

/-- D2D_LINK_DOWN: cause 0 four failed replays of a flit, 1 no acknowledgement and 2 no flit for 20 µs. -/
def State.linkDown (s : State) (d p cause : Nat) : State :=
  match portPeer d p with
  | none => s
  | some (d', p') =>
    if (s.port d p).st = 4 ∧ (cause ≠ 0 ∨ flitFailLimit ≤ (s.port d p).flitFails) then
      ((s.raise .D2D d 1 (p * 256)).modPort d p (fun x => { x with st := 1 })).modPort d' p' fun x => { x with st := 1 }
    else s

/-- D2D_LINK_MARGINAL: more than 1,000 replays within 1 s, at most once per hour per link. -/
def State.linkMarginal (s : State) (d p : Nat) : State :=
  let x := s.port d p
  let due : Bool := match x.marginalAt with
    | some t => decide (t + hourUs ≤ s.now)
    | none => true
  if replayLimit < x.replaySec ∧ due then
    ((s.raise .D2D d 4 (p * 256)).modPort d p (fun x => { x with marginalAt := some s.now })).log .D2D_LINK_MARGINAL d [p]
  else s

/-- After a link fence: new routes, and the whole fold when a die has become unreachable (R223). -/
def State.reroute (s : State) : State :=
  let cut (s : State) : List Nat := [0, 1, 2, 3].filter fun d => !s.dieFenced d && s.dieCut d
  if (cut s).any (fun d => s.graphs.graphs.any fun g => g.places.any fun p => p.placed && p.core / 8 == d) then s.startFold
  else s.setRoutes

/-- D2D_LINK_FENCE: of a link that is down, or that owes a version's acknowledgement (R153, R223, R228). -/
def State.linkFence (s : State) (d p : Nat) : State :=
  let owed := s.net.linkTests.contains (4 * d + p)
  if (portPeer d p).isSome ∧ ((s.port d p).st = 1 ∨ owed) ∧ ¬ (s.port d p).fenced then
    let s1 := s.modNet fun n => { n with linkTests := n.linkTests.filter (· != 4 * d + p) }
    let s2 := if (s.port d p).st = 1 then s1.log .D2D_LINK_DOWN d [p] else s1
    ((s2.fenceLink d p).log .D2D_LINK_FENCED d [p]).reroute
  else s

/-- Change both ends of a link. -/
def State.modLinkEnds (s : State) (d p : Nat) (f : PortState → PortState) : State :=
  match portPeer d p with
  | some (d', p') => (s.modPort d p f).modPort d' p' f
  | none => s

/-- D2D_LOOPBACK_TEST: after a fence, with both dies alive (R229). A pass retrains the link and leaves it closed; a fail or a third
glint leaves it fenced. -/
def State.loopback (s : State) (d p : Nat) (passed : Bool) : State :=
  match portPeer d p with
  | none => s
  | some (d', _) =>
    let x := s.port d p
    if x.fenced ∧ x.untested ∧ ¬ x.lasting ∧ s.dieUp d ∧ s.dieUp d' then
      if passed then
        let n := min (x.glints + 1) 3
        let s1 := (s.modLinkEnds d p fun x => { x with glints := n, untested := false }).log .D2D_LINK_GLINT d [p]
        if 3 ≤ n then s1.modLinkEnds d p fun x => { x with lasting := true }
        else s1.modLinkEnds d p fun x => { x with st := 2, fenced := false, tries := 0, sidebandFails := 0
                                                  retrains := min (x.retrains + 1) 0xFFFFFFFF }
      else s.modLinkEnds d p fun x => { x with lasting := true, untested := false }
    else s

/-! ### Width agreement (R232, R233) -/

/-- A module 0 and one module of each role are up. -/
def PortState.usable (x : PortState) (n : Nat) : Bool :=
  x.moduleWidth 0 != 0 && !(x.upModules n 0).isEmpty && !(x.upModules n 1).isEmpty

/-- An exchange has failed: retrain at full width, after three failed retrains at half width, then a fence (R233). -/
def State.exchangeFailed (s : State) (d p : Nat) : State :=
  let n := (s.port d p).tries + 1
  if n ≤ 4 then
    s.modLinkEnds d p fun x => { x with tries := n, width := 0, peerWidth := 0, retrains := min (x.retrains + 1) 0xFFFFFFFF }
  else ((s.fenceLink d p).log .LINK_WIDTH_MISMATCH d [p]).reroute

/-- WIDTH_WORD_EXCHANGE: the trained-width words of the two ends of a link that trains. -/
def State.widthWords (s : State) (d p : Nat) (own peer : Word) : State :=
  match portPeer d p with
  | none => s
  | some (d', p') =>
    if (s.port d p).st ≠ 2 ∨ (s.port d' p').st ≠ 2 then s
    else
      let s1 := (s.modPort d p fun x => { x with width := own, peerWidth := peer }).modPort d' p' fun x =>
        { x with width := peer, peerWidth := own }
      let n := modulesOf d p
      if bits own 27 0 = bits peer 27 0 then
        if (s1.port d p).usable n then
          let s2 := s1.modLinkEnds d p fun x => { x with st := 3, tries := 0, sidebandFails := 0 }
          if (List.range n).all (fun m => (s2.port d p).moduleWidth m == 3) then s2 else s2.log .D2D_WIDTH_REDUCED d [p]
        else s1.exchangeFailed d p
      else ((s1.raise .D2D d 2 (p * 256)).raise .D2D d' 2 (p' * 256)).exchangeFailed d p

/-- SIDEBAND_TIMEOUT: the partner's word has not come within 10 ms; the third time the link is fenced (R233). -/
def State.sidebandTimeout (s : State) (d p : Nat) : State :=
  if (portPeer d p).isNone ∨ (s.port d p).st ≠ 2 then s
  else
    let n := (s.port d p).sidebandFails + 1
    let s1 := s.modLinkEnds d p fun x => { x with sidebandFails := n }
    if 3 ≤ n then (((s1.raise .D2D d 3 (p * 256)).fenceLink d p).log .D2D_SIDEBAND_TIMEOUT d [p]).reroute
    else s1.exchangeFailed d p

/-! ### Loop-back tests (R234) -/

/-- Start a test of a port: mode 1 near-end, 2 far-end; one port of a die at a time, far-end with both ends alive and only on a
fenced or closed link. -/
def State.startPortTest (s : State) (d p mode : Nat) : State :=
  match portPeer d p with
  | none => s
  | some (d', _) =>
    let x := s.port d p
    if s.net.portTests.any (fun t => t.1 == d) ∨ x.st = 6 ∨
        (mode = 2 ∧ ¬ ((x.st = 3 ∨ x.st = 5) ∧ s.dieUp d ∧ s.dieUp d')) then s
    else (s.modNet fun n => { n with portTests := n.portTests ++ [(d, p, mode, x.st)] }).modPort d p fun x => { x with st := 6 }

/-- D2D_TEST_DONE: the result of the test that runs on a die. It passes with no flit error and no more failing lanes than lane
repair covers. -/
def State.portTestDone (s : State) (d errors : Nat) (lanesOk : Bool) : State :=
  match takeFirst (fun (t : Nat × Nat × Nat × Nat) => t.1 == d) s.net.portTests with
  | none => s
  | some ((_, p, _, st), rest) =>
    let pass := errors == 0 && lanesOk
    (((s.modNet fun n => { n with portTests := rest }).modPort d p fun x => { x with st := st })).setReg (ra .D2D_TEST_RESULT d)
      (word (b2n pass * 2 ^ 31 + p * 2 ^ 28 + min errors 0xFFFF))

/-! ### The commands -/

/-- MEM_READ_TIMEOUT (R220). -/
def execMemReadTimeout (die : Fin 6) (x y tag : Nat) (s : State) : Host.Outcome State Fault Refusal :=
  .next (s.readTimeout die x y tag)
/-- MESH_ROUTE (R219). -/
def execMeshRoute (die : Fin 6) (x y : Nat) (msg : NetMsg) (parity : Bool) (s : State) : Host.Outcome State Fault Refusal :=
  .next (s.meshRoute die x y msg parity)
/-- MESH_TEST (R220). -/
def execMeshTest (die : Fin 6) (passed : Bool) (s : State) : Host.Outcome State Fault Refusal := .next (s.meshTest die passed)
/-- D2D_FLIT_CRC_FAIL (R228). -/
def execD2dFlitCrcFail (die : Fin 6) (port : Fin 3) (sameFlit : Bool) (s : State) : Host.Outcome State Fault Refusal :=
  .next (s.crcFail die port sameFlit)
/-- D2D_LINK_DOWN (R228). -/
def execD2dLinkDown (die : Fin 6) (port cause : Fin 3) (s : State) : Host.Outcome State Fault Refusal :=
  .next (s.linkDown die port cause)
/-- D2D_LINK_MARGINAL (R228). -/
def execD2dLinkMarginal (die : Fin 6) (port : Fin 3) (s : State) : Host.Outcome State Fault Refusal :=
  .next (s.linkMarginal die port)
/-- D2D_LINK_FENCE (R223). -/
def execD2dLinkFence (die : Fin 6) (port : Fin 3) (s : State) : Host.Outcome State Fault Refusal := .next (s.linkFence die port)
/-- D2D_LOOPBACK_TEST (R229). -/
def execD2dLoopbackTest (die : Fin 6) (port : Fin 3) (passed : Bool) (s : State) : Host.Outcome State Fault Refusal :=
  .next (s.loopback die port passed)
/-- D2D_TEST_NEAR_END (R234). -/
def execD2dTestNearEnd (die : Fin 6) (port : Fin 3) (s : State) : Host.Outcome State Fault Refusal :=
  .next (s.startPortTest die port 1)
/-- D2D_TEST_FAR_END (R234). -/
def execD2dTestFarEnd (die : Fin 6) (port : Fin 3) (s : State) : Host.Outcome State Fault Refusal :=
  .next (s.startPortTest die port 2)
/-- D2D_TEST_DONE (R234). -/
def execD2dTestDone (die : Fin 6) (flitErrors : Nat) (lanesOk : Bool) (s : State) : Host.Outcome State Fault Refusal :=
  .next (s.portTestDone die flitErrors lanesOk)
/-- WIDTH_WORD_EXCHANGE (R232). -/
def execWidthWordExchange (die : Fin 6) (port : Fin 3) (own peer : BitVec 32) (s : State) : Host.Outcome State Fault Refusal :=
  .next (s.widthWords die port own peer)
/-- SIDEBAND_TIMEOUT (R233). -/
def execSidebandTimeout (die : Fin 6) (port : Fin 3) (s : State) : Host.Outcome State Fault Refusal :=
  .next (s.sidebandTimeout die port)

end Sys2Proof.Machine
end

