-- ==== Sys2Proof/Machine/HostLink.lean ====
section
/-! DEFINITION. The rings of the host links: set-up (R244, R245, R251), doorbells (R246), taking packets (R247, R250, R252, R268),
writing completions (R248, R249, R254), and the interrupts of a ring (R269). -/

namespace Sys2Proof.Machine

/-! ### Ring set-up (R244, R251, R267) -/

/-- HIF_SETUP_LOCK: the magic value locks every RWL register of the package (R251). -/
def setupMagic : Nat := 0x00004C4B

/-- A write to HIF_SETUP_LOCK on either link. -/
def State.setupLock (s : State) (v : Word) : State :=
  if s.hif.hostReady ∧ v.toNat = setupMagic then { s with hif := { s.hif with locked := true } } else s

/-- A host address in two registers. -/
def State.addrOf (s : State) (lo hi : RegAddr) : Nat := (s.reg lo).toNat + (s.reg hi).toNat * 2 ^ 32

/-- The windows of a link: its enabled rings and the status lines of its enabled CQs, each as base and length (R245). -/
def State.windows (s : State) (h : Nat) : List (Nat × Nat) :=
  (List.range 64).flatMap fun q =>
    (if (s.sq h q).run = .DISABLED then []
     else [(s.addrOf (ra .HIF_SQ_BASE_LO h q) (ra .HIF_SQ_BASE_HI h q), 64 * s.sqUnits h q)]) ++
    (if (s.cq h q).enabled then
       [(s.addrOf (ra .HIF_CQ_BASE_LO h q) (ra .HIF_CQ_BASE_HI h q), 64 * s.cqUnits h q),
        (s.addrOf (ra .HIF_CQ_STAT_LO h q) (ra .HIF_CQ_STAT_HI h q), 64)]
     else [])

/-- A range that overlaps a window of either link (R244). -/
def State.inWindow (s : State) (w : Nat × Nat) : Bool := (s.windows 0 ++ s.windows 1).any fun x => overlaps w.1 w.2 x.1 x.2

/-- size_log2 is out of range (R244). -/
def badRingSize (v : Word) : Bool := bits v 20 16 < 16 || 24 < bits v 20 16

/-- A refused enable: the ring stays disabled, and ring_cfg is set with the ring in HIF_ERR_FIRST (R244). -/
def State.ringRefused (s : State) (h ring : Nat) (a : RegAddr) (v : Word) : State :=
  (s.putReg a (v &&& 0x7FFFFFFF)).raise .HIF h 1 ring

/-- A write to HIF_SQ_CFG (R244): enabling checks the ring, an enabled ring's size and CQ stand, and clearing en disables it. -/
def State.writeSqCfg (s : State) (h q : Nat) (v : Word) : State :=
  let a := ra .HIF_SQ_CFG h q
  s.rwl h a fun s =>
    if (s.sq h q).run ≠ .DISABLED then
      if v.getLsbD 31 then s else (s.putReg a (s.reg a &&& 0x7FFFFFFF)).modSq h q fun _ => {}
    else if ¬ v.getLsbD 31 then s.putReg a v
    else if badRingSize v ∨ ¬ (s.cq h (bits v 5 0)).enabled ∨
        s.inWindow (s.addrOf (ra .HIF_SQ_BASE_LO h q) (ra .HIF_SQ_BASE_HI h q), 64 * ringUnits v) then s.ringRefused h q a v
    else (s.putReg a v).modSq h q fun _ => { run := .IDLE }

/-- A write to HIF_CQ_CFG (R244). -/
def State.writeCqCfg (s : State) (h q : Nat) (v : Word) : State :=
  let a := ra .HIF_CQ_CFG h q
  s.rwl h a fun s =>
    if (s.cq h q).enabled then
      if v.getLsbD 31 then s else (s.putReg a (s.reg a &&& 0x7FFFFFFF)).modCq h q fun _ => {}
    else if ¬ v.getLsbD 31 then s.putReg a v
    else if badRingSize v ∨
        s.inWindow (s.addrOf (ra .HIF_CQ_BASE_LO h q) (ra .HIF_CQ_BASE_HI h q), 64 * ringUnits v) ∨
        s.inWindow (s.addrOf (ra .HIF_CQ_STAT_LO h q) (ra .HIF_CQ_STAT_HI h q), 64) then s.ringRefused h (64 + q) a v
    else (s.putReg a v).modCq h q fun _ => { enabled := true }

/-- An address register of a ring: discarded while the ring is enabled (R244). -/
def State.writeRingAddr (s : State) (h : Nat) (a : RegAddr) (enabled : Bool) (v : Word) : State :=
  s.rwl h a fun s => if enabled then s else s.putReg a v

/-- A write to HIF_NOTICE_RING: one that names an archive ring is discarded with ring_cfg set (R267). -/
def State.writeNoticeRing (s : State) (h : Nat) (v : Word) : State :=
  let a := ra .HIF_NOTICE_RING h
  s.rwl h a fun s =>
    if v.getLsbD 31 ∧ s.isArchiveRing h (bits v 5 0) then s.raise .HIF h 1 (64 + bits v 5 0) else s.putReg a v

/-! ### Doorbells (R246) -/

/-- Units from one position of a ring to another. -/
def ringDist (n a b : Nat) : Nat := (b + n - a) % n

/-- A write to an SQ's doorbell moves its tail; one at or above the ring's size, or past the head, is discarded. -/
def State.sqDoorbell (s : State) (h q : Nat) (v : Word) : State :=
  let r := s.sq h q
  let n := s.sqUnits h q
  let t := bits v 17 0
  if r.run = .DISABLED ∨ n ≤ t ∨ ringDist n r.head t < ringDist n r.head r.tail then s.raise .HIF h 0 q
  else s.modSq h q fun r => { r with tail := t }

/-- A write to a CQ's doorbell moves its head; one past the tail is discarded. -/
def State.cqDoorbell (s : State) (h q : Nat) (v : Word) : State :=
  let r := s.cq h q
  let n := s.cqUnits h q
  let t := bits v 17 0
  if ¬ r.enabled ∨ n ≤ t ∨ ringDist n r.head r.tail < ringDist n r.head t then s.raise .HIF h 0 (64 + q)
  else if t = r.head then s
  else s.modCq h q fun r => { r with head := t, fullSince := none, fullLogged := false }

/-! ### Taking packets (R247, R250, R252) -/

/-- An SQ goes into ERROR: one BAD_PACKET completion with the tag that was read (R250). -/
def State.sqError (s : State) (h q tag : Nat) : State :=
  let s1 := (s.modSq h q fun r => { r with run := .ERROR, shortSince := none, outstanding := r.outstanding + 1 }).raise .HIF h 2 q
  s1.complete { kind := 0x80, link := h, cq := s.sqCq h q, tag := tag, status := Status.BAD_PACKET, cmdType := 0, sq := q
                epoch := (s.link h).epoch }

/-- A request outside its ring's window: not issued, and the hub die is treated as faulty (R245). -/
def State.windowFault (s : State) (h ring : Nat) : State :=
  ((s.raise .HIF h 3 ring).log .HIF_WINDOW (4 + h) [ring]).failHub h

/-- A packet of type CACHE_OP or CONFIG that is read: none of its entries, or a bad count, ends it at once, and so do unlisted
items at its start (R173, R264, R273). -/
def State.startEntries (s : State) (p : Packet) : State :=
  match p.entries with
  | none => s.takeFinish p Status.BAD_PACKET
  | some [] => s.finishEntries p
  | some (e :: _) =>
    if entryUnknown p.type e then s.endEntry p.link p.sq p.type (leAt e 0 2) Status.BAD_PACKET [] entryFuel else s

/-- A packet that has been read whole, and what its checks leave of it (R250, R252). -/
def State.readPacket (s : State) (p : Packet) : State :=
  let s1 := s.modSq p.link p.sq fun r => { r with run := .FETCHING, shortSince := none, taken := [p] }
  if p.poisoned then s1.takeFinish p Status.DATA_POISON
  else if ¬ p.headerOk then s1.takeFinish p Status.BAD_PACKET
  else if p.type = 0x08 ∨ p.type = 0x0A then s1.startEntries p
  else s1

/-- SQ_FETCH of a packet whose header is `header`. -/
def State.fetch (s : State) (h q : Nat) (header payload : List Byte) (hw : FetchHw) : State :=
  let r := s.sq h q
  if ¬ s.linkRuns h ∨ r.run = .DISABLED ∨ r.run = .ERROR ∨ r.taken ≠ [] ∨ r.head = r.tail then s
  else
    match hw with
    | .window => s.windowFault h q
    | .badHeader => s.sqError h q 0xFFFFFFFF
    | _ =>
      let p : Packet := { link := h, sq := q, header := header, payload := payload, poisoned := hw == .badPayload
                          epoch := (s.link h).epoch }
      if 1025 < leAt header 2 2 then s.sqError h q p.tag
      else if ringDist (s.sqUnits h q) r.head r.tail < p.units then
        s.modSq h q fun r => { r with run := .FETCHING, shortSince := r.shortSince.orElse fun _ => some s.now, shortTag := p.tag }
      else if p.order ∧ 0 < r.outstanding then s.hold p
      else s.readPacket p

/-- SQ_TAIL_TIMEOUT: 1 ms past the doorbelled tail (R250). -/
def State.tailTimeout (s : State) (h q : Nat) : State :=
  match (s.sq h q).shortSince with
  | some t => if t + 1000 ≤ s.now then s.sqError h q (s.sq h q).shortTag else s
  | none => s

/-- HIF_SQ_RESTART: head and tail 0, and the ring leaves ERROR (R250). -/
def State.sqRestart (s : State) (h q : Nat) (v : Word) : State :=
  if s.hif.hostReady ∧ v.getLsbD 0 ∧ (s.sq h q).run = .ERROR then
    s.modSq h q fun r => { r with run := .IDLE, head := 0, tail := 0, taken := [] }
  else s

/-- BAD_PACKET_TYPE: a type that R255 does not list. -/
def State.badType (s : State) (h q : Nat) : State :=
  match s.front h q with
  | some p => if p.type = 0 ∨ 0x0E < p.type then s.takeFinish p Status.BAD_PACKET else s
  | none => s

/-! ### Completions and interrupts (R248, R249, R254, R269) -/

/-- COMPLETION_WRITE: the next part of the oldest completion of a CQ, once it fits. -/
def State.writeCompletion (s : State) (h q : Nat) (window : Bool) : State :=
  match (s.cq h q).queue with
  | [] => s
  | c :: rest =>
    if ¬ s.linkRuns h ∨ ¬ (s.cq h q).enabled then s
    else if window then s.windowFault h (64 + q)
    else
      let body := (c.payload.drop (c.part * partBytes)).take partBytes
      let more := decide ((c.part + 1) * partBytes < c.payload.length)
      if s.cqRoom h q < 1 + (body.length + 63) / 64 then
        s.modCq h q fun r => { r with fullSince := r.fullSince.orElse fun _ => some s.now }
      else
        let s1 := s.modCq h q fun r =>
          { r with fullSince := none, fullLogged := false
                   queue := if more then { c with part := c.part + 1 } :: rest else rest }
        let s2 := s1.writePart c body c.part more
        if more then s2 else s2.settleSq h c.sq

/-- CQ_IRQ_TIMER: HIF_CQ_MOD.time_us since the first completion not yet signalled (R269). -/
def State.cqTimer (s : State) (h q : Nat) : State :=
  let t := s.field (ra .HIF_CQ_MOD h q) 23 8
  match (s.cq h q).firstAt with
  | some f =>
    if t ≠ 0 ∧ f + t ≤ s.now then
      (s.modCq h q fun r => { r with unsignalled := 0, firstAt := none }).msix h (s.field (ra .HIF_CQ_CFG h q) 5 0)
    else s
  | none => s

/-- CQ_FULL_TIMEOUT: 100 ms full, once per episode (R249). -/
def State.cqFull (s : State) (h q : Nat) : State :=
  match (s.cq h q).fullSince with
  | some t =>
    if t + 100000 ≤ s.now ∧ ¬ (s.cq h q).fullLogged then
      ((s.modCq h q fun r => { r with fullLogged := true }).raise .HIF h 5 (64 + q)).log .CQ_FULL (4 + h) [h, q]
    else s
  | none => s

/-! ### The commands -/

/-- HIF_SETUP_LOCK (R251). -/
def execHifSetupLock (_hub : Fin 2) (value : BitVec 32) (s : State) : Host.Outcome State Fault Refusal := .next (s.setupLock value)
/-- SQ_ENABLE (R244). -/
def execSqEnable (link : Fin 2) (sq : Fin 64) (value : BitVec 32) (s : State) : Host.Outcome State Fault Refusal :=
  .next (s.writeSqCfg link sq value)
/-- CQ_ENABLE (R244). -/
def execCqEnable (link : Fin 2) (cq : Fin 64) (value : BitVec 32) (s : State) : Host.Outcome State Fault Refusal :=
  .next (s.writeCqCfg link cq value)
/-- SQ_DOORBELL (R246). -/
def execSqDoorbell (link : Fin 2) (sq : Fin 64) (value : BitVec 32) (s : State) : Host.Outcome State Fault Refusal :=
  .next (s.sqDoorbell link sq value)
/-- CQ_DOORBELL (R246). -/
def execCqDoorbell (link : Fin 2) (cq : Fin 64) (value : BitVec 32) (s : State) : Host.Outcome State Fault Refusal :=
  .next (s.cqDoorbell link cq value)
/-- SQ_FETCH (R247): the operands spell a packet of R252, or the command is malformed. -/
def execSqFetch (link : Fin 2) (sq : Fin 64) (header payload : List Byte) (hw : FetchHw) (s : State) :
    Host.Outcome State Fault Refusal :=
  if header.length = 64 ∧ payload.length = 64 * leAt header 2 2 then .next (s.fetch link sq header payload hw)
  else .fault .malformedHeader
/-- SQ_TAIL_TIMEOUT (R250). -/
def execSqTailTimeout (link : Fin 2) (sq : Fin 64) (s : State) : Host.Outcome State Fault Refusal := .next (s.tailTimeout link sq)
/-- HIF_SQ_RESTART (R250). -/
def execHifSqRestart (link : Fin 2) (sq : Fin 64) (value : BitVec 32) (s : State) : Host.Outcome State Fault Refusal :=
  .next (s.sqRestart link sq value)
/-- BAD_PACKET_TYPE (R255). -/
def execBadPacketType (link : Fin 2) (sq : Fin 64) (s : State) : Host.Outcome State Fault Refusal := .next (s.badType link sq)
/-- COMPLETION_WRITE (R248). -/
def execCompletionWrite (link : Fin 2) (cq : Fin 64) (window : Bool) (s : State) : Host.Outcome State Fault Refusal :=
  .next (s.writeCompletion link cq window)
/-- CQ_IRQ_TIMER (R269). -/
def execCqIrqTimer (link : Fin 2) (cq : Fin 64) (s : State) : Host.Outcome State Fault Refusal := .next (s.cqTimer link cq)
/-- CQ_FULL_TIMEOUT (R249). -/
def execCqFullTimeout (link : Fin 2) (cq : Fin 64) (s : State) : Host.Outcome State Fault Refusal := .next (s.cqFull link cq)
/-- HIF_NOTICE_RING_WRITE (R267). -/
def execHifNoticeRingWrite (link : Fin 2) (value : BitVec 32) (s : State) : Host.Outcome State Fault Refusal :=
  .next (s.writeNoticeRing link value)

end Sys2Proof.Machine
end

