-- ==== Sys2Proof/Machine/Packets.lean ====
section
/-! DEFINITION. Host packets that no other chapter owns: TENSOR_PUT to memory (R259), TENSOR_GET (R260), the CONFIG items (R264)
and NOP (R266). -/

namespace Sys2Proof.Machine

/-! ### Items of TENSOR_PUT and TENSOR_GET (R259, R260) -/

/-- An item: device address and length. -/
def Packet.item (p : Packet) (i : Nat) : Nat × Nat := (leAt p.header (32 + 16 * i) 8, leAt p.header (40 + 16 * i) 4)

/-- The items of a packet. -/
def Packet.items (p : Packet) : List (Nat × Nat) := (List.range (leAt p.header 17 1)).map p.item

/-- The argument bytes outside the kind, the count and the items are 0. -/
def Packet.itemsOk (p : Packet) : Bool :=
  let n := leAt p.header 17 1
  n ≤ 2 && zeroFrom p.header 18 14 && zeroFrom p.header (32 + 16 * n) 64 &&
  (List.range n).all (fun i => leAt p.header (44 + 16 * i) 4 == 0)

/-- An address or a length is no multiple of 64 B (R198, R259). -/
def itemSkewed (x : Nat × Nat) : Bool := x.1 % 64 != 0 || x.2 % 64 != 0

/-- A range that touches a fenced or lost interleave set or a retired block (R202, R204). -/
def State.rangeFenced (s : State) (a n : Nat) : Bool :=
  (List.range ((a % 4096 + n + 4095) / 4096)).any fun i => s.setFenced (a + 4096 * i) || s.retired (a + 4096 * i)

/-- The receive ring of a mirror-link port (R435). -/
def State.mirRing (s : State) (h : Nat) : Option Nat :=
  let lo := s.reg (ra .MIR_RX_BASE_LO h)
  if lo.getLsbD 0 then some (bits lo 31 14 * 16384 + bits (s.reg (ra .MIR_RX_BASE_HI h)) 15 0 * 2 ^ 32) else none

/-- A range that the host may not write: an image, a catalogue region, a pool (R116, R161), a road map in force (R348), a
mirror-link ring (R435). -/
def State.putRefused (s : State) (a n : Nat) : Bool :=
  s.reservedRange a n ||
  [0, 1].any (fun h =>
    let p := tblGet {} s.pln.pl h
    overlaps a n p.map.addr p.map.len ||
    (match s.mirRing h with
     | some b => overlaps a n b 16384
     | none => false))

/-- The status of one item of a TENSOR_PUT (R259, R273). -/
def State.putStatus (s : State) (x : Nat × Nat) : Nat :=
  if x.2 = 0 then Status.ZERO_FIELD
  else if itemSkewed x ∨ ¬ inHbm x.1 x.2 then Status.BAD_PACKET
  else combineStatus [if s.rangeFenced x.1 x.2 then Status.FENCED else 0, if s.putRefused x.1 x.2 then Status.BAD_PACKET else 0]

/-- The buffers of loaded graphs that a range touches: graph, buffer, stack. -/
def State.buffersIn (s : State) (a n : Nat) : List (Nat × Nat × Nat) :=
  s.graphs.graphs.flatMap fun gr => (List.range gr.bundle.buffers.length).filterMap fun bi =>
    let x := nth {} gr.bundle.buffers bi
    if overlaps a n x.at_ x.span then some (gr.num, bi, dieOfAddr x.at_) else none

/-- TENSOR_PUT MEMORY: all items are written, or none; the versions of the buffers touched rise, and the packet completes when
every die knows them (R136, R259). A kind that R259 does not list is BAD_PACKET. -/
def State.putMemory (s : State) (p : Packet) : State :=
  let xs := p.items
  let need := (xs.map (·.2)).foldl (· + ·) 0
  if leAt p.header 16 1 ≠ 0 ∨ ¬ p.itemsOk then s.takeFinish p Status.BAD_PACKET
  else
    let sts := xs.map s.putStatus
    let bad := (¬ xs.any (fun x => itemSkewed x || x.2 == 0)) ∧ (p.payload.length < need ∨ ¬ zeroFrom p.payload need p.payload.length)
    let code := combineStatus ((if bad then Status.BAD_PACKET else 0) :: sts)
    if code ≠ Status.OK then s.takeFinish p code
    else
      let s1 := (s.take p)
      let s2 := (List.range xs.length).foldl (fun s i =>
        let o := ((xs.take i).map (·.2)).foldl (· + ·) 0
        let x := nth (0, 0) xs i
        s.writeMem x.1 ((p.payload.drop o).take x.2)) s1
      let bs := (xs.flatMap fun x => s.buffersIn x.1 x.2).foldl addNew []
      if bs = [] then s2.finish p Status.OK
      else
        let id := s2.hif.putNext
        let s3 := { s2 with hif := { s2.hif with putNext := id + 1, puts := s2.hif.puts ++ [(id, p, bs.length)] } }
        bs.foldl (fun s b => s.raiseVersion b.2.2 b.1 b.2.1 (·.putDone id) (.put id)) s3

/-- The 64 B units of an item of a TENSOR_GET with poisoned units set to 0, and whether one was poisoned (R260). -/
def State.getUnits (s : State) (x : Nat × Nat) : List Byte × Bool :=
  (List.range (x.2 / 64)).foldl (fun acc i =>
    let (bs, q) := s.readMem (x.1 + 64 * i) 64
    (acc.1 ++ (if q then List.replicate 64 0 else bs), acc.2 || q)) ([], false)

/-- An item of a TENSOR_GET: a store of a fenced core answers nothing, so its units are poisoned (R143, R220). -/
def State.getItem (s : State) (x : Nat × Nat) : List Byte × Bool :=
  if hbmEnd ≤ x.1 ∧ (storeBaseOf x.1).any (fun b => s.storeLost b) then (List.replicate x.2 0, true) else s.getUnits x

/-- TENSOR_GET (R260). -/
def State.tensorGet (s : State) (p : Packet) : State :=
  let xs := p.items
  if ¬ p.itemsOk ∨ leAt p.header 16 1 ≠ 0 ∨ ¬ p.payload.isEmpty then s.takeFinish p Status.BAD_PACKET
  else
    let long : Bool := 65536 < (xs.map (·.2)).foldl (· + ·) 0
    let code : Nat := combineStatus ((if long then Status.BAD_PACKET else 0) :: xs.map fun x =>
      if x.2 = 0 then Status.ZERO_FIELD else if itemSkewed x ∨ ¬ validRange x.1 x.2 then Status.BAD_PACKET else 0)
    if code ≠ Status.OK then s.takeFinish p code
    else
      let r := xs.map s.getItem
      s.takeFinish p (if r.any (·.2) then Status.DATA_POISON else Status.OK) [] (r.flatMap (·.1))

/-! ### CONFIG items (R264) -/

/-- The code of CONFIG packets. -/
def configType : Nat := 0x0A

/-- Run the CONFIG item that is next on a ring when its code is `code`. -/
def State.configItem (s : State) (link sq code : Nat) (f : State → List Byte → State × Nat) : State :=
  match s.nextEntry link sq configType with
  | some (_, e) =>
    if leAt e 0 2 = code ∧ (s.sq link sq).run ≠ .HELD then
      let (s1, st) := f s e
      s1.endEntry link sq configType code st [] entryFuel
    else s
  | none => s

/-- The value of an item. -/
def itemValue (e : List Byte) : Nat := leAt e 8 4

/-- An item that SETUP_LOCK locks, with its range (R264). -/
def State.lockedItem (s : State) (e : List Byte) (lo hi : Nat) (f : State → State × Nat) : State × Nat :=
  if s.hif.locked then (s, Status.SETUP_LOCKED)
  else if itemValue e < lo ∨ hi < itemValue e then (s, Status.BAD_PACKET)
  else f s

/-- FIT_RATIO (R60): both copies of a station, from the next frame that starts. -/
def fitRatioItem (s : State) (e : List Byte) : State × Nat :=
  let g := leAt e 2 1
  let st := leAt e 4 2
  match s.graph? g with
  | none => (s, Status.BAD_PACKET)
  | some gr =>
    if ¬ gr.bundle.cards.any (fun c => c.station == st) then (s, Status.BAD_PACKET)
    else if gr.bundle.header.safety = 1 ∧ s.hif.locked then (s, Status.SETUP_LOCKED)
    else if itemValue e < 256 ∨ 65536 < itemValue e then (s, Status.BAD_PACKET)
    else
      let ps := (gr.placed.filter (fun x => x.1.station == st && x.2.placed)).map (·.2)
      (ps.foldl (fun s pl => s.modCore pl.core fun k =>
        { k with slots := tblMod {} k.slots pl.slot fun x => { x with nextRatio := some (itemValue e, gr.nextFrame) } }) s, 0)

/-- POWER_CAP (R444). -/
def powerCapItem (s : State) (e : List Byte) : State × Nat :=
  if itemValue e < 120 ∨ 360 < itemValue e then (s, Status.BAD_PACKET)
  else ({ s with thermal := { s.thermal with cap := itemValue e } }, 0)

/-- The graphs that a set group names (R310). -/
def State.groupGraphs (s : State) (h g : Nat) : List Nat :=
  let v := s.reg (ra .ALN_G_CFG h g)
  bits v 5 0 :: ((if v.getLsbD 15 then [bits v 13 8] else []) ++ (if v.getLsbD 23 then [bits v 21 16] else []) ++
    (if v.getLsbD 30 then [bits v 29 24] else []))

/-- The set group that an item names by one of its graphs: an enabled group first, else group 0 … 7 in order (log 24). -/
def State.groupOfGraph (s : State) (g : Nat) : Option Nat :=
  let h := s.mgt.active
  ((List.range 8).find? (fun k => (s.reg (ra .ALN_G_CFG h k)).getLsbD 31 && (s.groupGraphs h k).contains g)).orElse
    fun _ => (List.range 8).find? (fun k => (s.groupGraphs h k).contains g)

/-- Set a package-wide register of both hubs (R313); a lost hub keeps nothing. -/
def State.setBoth (s : State) (r : Reg) (u : Nat) (v : Word) (w : Nat := 0) : State :=
  (s.setReg (ra r 0 u w) v).setReg (ra r 1 u w) v

/-- An item that sets a register of a set group. -/
def groupItem (r : Reg) (lo hi : Nat) (s : State) (e : List Byte) : State × Nat :=
  s.lockedItem e lo hi fun s =>
    match s.groupOfGraph (leAt e 2 1) with
    | some k => (s.setBoth r k (word (itemValue e)), 0)
    | none => (s, Status.BAD_PACKET)

/-- SELFTEST_PERIOD (R405): in both lanterns. -/
def selftestPeriodItem (s : State) (e : List Byte) : State × Nat :=
  s.lockedItem e 50 1000 fun s =>
    ([0, 1].foldl (fun s l => s.modLantern l fun x => { x with periodMs := itemValue e }) s, 0)

/-! ### The commands -/

/-- TENSOR_PUT_MEMORY (R259). -/
def execTensorPutMemory (link : Fin 2) (sq : Fin 64) (s : State) : Host.Outcome State Fault Refusal :=
  .next (match s.packet link sq 0x03 with
    | some p => if leAt p.header 16 1 = 1 then s else s.putMemory p
    | none => s)
/-- TENSOR_GET (R260). -/
def execTensorGet (link : Fin 2) (sq : Fin 64) (s : State) : Host.Outcome State Fault Refusal :=
  .next (match s.packet link sq 0x04 with
    | some p => s.tensorGet p
    | none => s)
/-- FIT_RATIO (R60). -/
def execFitRatio (link : Fin 2) (sq : Fin 64) (s : State) : Host.Outcome State Fault Refusal :=
  .next (s.configItem link sq 1 fitRatioItem)
/-- POWER_CAP (R444). -/
def execPowerCap (link : Fin 2) (sq : Fin 64) (s : State) : Host.Outcome State Fault Refusal :=
  .next (s.configItem link sq 2 powerCapItem)
/-- SET_WAIT (R321): for sets created after it. -/
def execSetWait (link : Fin 2) (sq : Fin 64) (s : State) : Host.Outcome State Fault Refusal :=
  .next (s.configItem link sq 3 (groupItem .ALN_G_WAIT 1000 200000))
/-- REF_ORDER (R311). -/
def execRefOrder (link : Fin 2) (sq : Fin 64) (s : State) : Host.Outcome State Fault Refusal :=
  .next (s.configItem link sq 4 (groupItem .ALN_G_REF_ORDER 0 0xFFFFFFFF))
/-- SELFTEST_PERIOD (R405). -/
def execSelftestPeriod (link : Fin 2) (sq : Fin 64) (s : State) : Host.Outcome State Fault Refusal :=
  .next (s.configItem link sq 5 selftestPeriodItem)
/-- CONTRADICTION_LIMIT (R339). -/
def execContradictionLimit (link : Fin 2) (sq : Fin 64) (s : State) : Host.Outcome State Fault Refusal :=
  .next (s.configItem link sq 6 (groupItem .ALN_G_CONTRA_LIMIT 1 1048576))
/-- NOP (R266). -/
def execNop (link : Fin 2) (sq : Fin 64) (s : State) : Host.Outcome State Fault Refusal :=
  .next (match s.packet link sq 0x0C with
    | some p => s.takeFinish p (if p.argsOnly 16 then Status.OK else Status.BAD_PACKET)
    | none => s)

end Sys2Proof.Machine
end

