-- ==== Sys2Proof/Machine/Jpeg.lean ====
section
/-! DEFINITION. The decoders' JPEG (R295): baseline sequential DCT images of ITU-T T.81 with Huffman coding, 8-bit precision and
three components sampled 4:2:0 or 4:2:2 in one interleaved scan. -/

namespace Sys2Proof.Machine

/-! ### Segments -/

/-- A Huffman table: length, code, value. -/
abbrev Huff := List (Nat × Nat × Nat)

/-- What the segments of an image declare. -/
structure Jpeg where
  width : Nat := 0
  height : Nat := 0
  /-- identifier, horizontal and vertical sampling, quantisation table -/
  comps : List (Nat × Nat × Nat × Nat) := []
  /-- quantisation tables in zigzag order -/
  quant : Tbl (List Nat) := []
  /-- Huffman tables: DC 0 … 3, AC 4 … 7 -/
  huff : Tbl Huff := []
  restart : Nat := 0
  /-- per scan component: identifier, DC table, AC table -/
  scan : List (Nat × Nat × Nat) := []
  coded : List Byte := []
  deriving DecidableEq, Repr

/-- The codes of one length: `n` consecutive codes from `code` on. -/
def huffCodes (len code : Nat) (vals : List Byte) : Huff :=
  (List.range vals.length).map fun i => (len, code + i, (nth 0 vals i).toNat)

/-- A Huffman table from its counts of codes per length and its values. -/
def huffTable (counts : List Nat) (vals : List Byte) : Huff :=
  (counts.foldl (fun (a : Huff × Nat × Nat × List Byte) n =>
    let (t, code, len, vs) := a
    (t ++ huffCodes len code (vs.take n), (code + n) * 2, len + 1, vs.drop n)) ([], 0, 1, vals)).1

/-- The tables of a DHT segment. -/
def readHuff : Nat → List Byte → Jpeg → Jpeg
  | 0, _, j => j
  | n + 1, bs, j =>
    if bs.length < 17 then j
    else
      let counts := (bs.drop 1).take 16 |>.map (·.toNat)
      let total := counts.foldl (· + ·) 0
      let id := leAt bs 0 1
      readHuff n (bs.drop (17 + total))
        { j with huff := tblSet [] j.huff (id % 4 + id / 16 % 2 * 4) (huffTable counts ((bs.drop 17).take total)) }

/-- The tables of a DQT segment; a 16-bit table is not baseline with 8-bit precision and is left out. -/
def readQuant : Nat → List Byte → Jpeg → Jpeg
  | 0, _, j => j
  | n + 1, bs, j =>
    if bs.length < 65 ∨ 16 ≤ leAt bs 0 1 then j
    else readQuant n (bs.drop 65) { j with quant := tblSet [] j.quant (leAt bs 0 1 % 4) (((bs.drop 1).take 64).map (·.toNat)) }

/-- A frame header of baseline DCT: none when its precision is not 8 bits. -/
def readFrame (bs : List Byte) (j : Jpeg) : Option Jpeg :=
  if leAt bs 0 1 ≠ 8 ∨ j.comps ≠ [] then none
  else
    some { j with
      height := beAt bs 1 2, width := beAt bs 3 2
      comps := (List.range (leAt bs 5 1)).map fun i =>
        (leAt bs (6 + 3 * i) 1, leAt bs (7 + 3 * i) 1 / 16, leAt bs (7 + 3 * i) 1 % 16, leAt bs (8 + 3 * i) 1) }

/-- A scan header; none unless it is the one sequential scan. -/
def readScan (bs : List Byte) (rest : List Byte) (j : Jpeg) : Option Jpeg :=
  let n := leAt bs 0 1
  if leAt bs (1 + 2 * n) 1 ≠ 0 ∨ leAt bs (2 + 2 * n) 1 ≠ 63 ∨ leAt bs (3 + 2 * n) 1 ≠ 0 then none
  else
    some { j with
      scan := (List.range n).map fun i => (leAt bs (1 + 2 * i) 1, leAt bs (2 + 2 * i) 1 / 16 % 4, leAt bs (2 + 2 * i) 1 % 4)
      coded := rest }

/-- The segments up to the scan. Other frame types and arithmetic coding are not accepted; APPn and COM are skipped. -/
def readSegments : Nat → List Byte → Jpeg → Option Jpeg
  | 0, _, _ => none
  | n + 1, bs, j =>
    match bs with
    | m :: k :: r =>
      if m ≠ 0xFF#8 then none
      else
        let c := k.toNat
        if c = 0xFF then readSegments n (k :: r) j
        else
          let len := beAt r 0 2
          let body := (r.drop 2).take (len - 2)
          let next := r.drop len
          if len < 2 ∨ r.length < len then none
          else if c = 0xC4 then readSegments n next (readHuff body.length body j)
          else if c = 0xDB then readSegments n next (readQuant body.length body j)
          else if c = 0xDD then readSegments n next { j with restart := beAt body 0 2 }
          else if c = 0xC0 then
            match readFrame body j with
            | some j1 => readSegments n next j1
            | none => none
          else if c = 0xDA then readScan body next j
          else if 0xE0 ≤ c ∧ c ≤ 0xEF ∨ c = 0xFE then readSegments n next j
          else none
    | _ => none

/-- The headers of an image, from its start-of-image marker on. -/
def readJpeg (bs : List Byte) : Option Jpeg :=
  if bs.take 2 = [0xFF#8, 0xD8#8] then readSegments bs.length (bs.drop 2) {} else none

/-- The width and height that the frame header declares, where there is one: all that R294's first checks need. -/
def jpegSize (bs : List Byte) : Option (Nat × Nat) := (readJpeg bs).map fun j => (j.width, j.height)

/-- R295: three components, 4:2:0 or 4:2:2, in one interleaved scan, with every table that they name. -/
def Jpeg.ok (j : Jpeg) : Bool :=
  (j.comps.map fun c => (c.2.1, c.2.2.1)) ∈ [[(2, 2), (1, 1), (1, 1)], [(2, 1), (1, 1), (1, 1)]] &&
  j.scan.map (·.1) == j.comps.map (·.1) &&
  j.comps.all (fun c => tblGet [] j.quant c.2.2.2 != []) &&
  j.scan.all (fun c => tblGet [] j.huff c.2.1 != [] && tblGet [] j.huff (4 + c.2.2) != [])

/-! ### Entropy-coded data -/

/-- The coded data up to the end marker, cut at its restart markers, with byte stuffing taken out. -/
def cutSegments : Nat → List Byte → List Byte → List (List Byte)
  | 0, _, acc => [acc.reverse]
  | n + 1, bs, acc =>
    match bs with
    | [] => [acc.reverse]
    | b :: r =>
      if b ≠ 0xFF#8 then cutSegments n r (b :: acc)
      else
        match r with
        | [] => [acc.reverse]
        | k :: r1 =>
          if k = 0x00#8 then cutSegments n r1 (b :: acc)
          else if k = 0xFF#8 then cutSegments n r acc
          else if 0xD0 ≤ k.toNat ∧ k.toNat ≤ 0xD7 then acc.reverse :: cutSegments n r1 []
          else [acc.reverse]

/-- The bits of bytes, most significant first. -/
def toBits (bs : List Byte) : List Bool := bs.flatMap fun b => (List.range 8).map fun i => b.getLsbD (7 - i)

/-- Read `n` bits: none when they run out. -/
def readBits (n : Nat) (bs : List Bool) : Option (Nat × List Bool) :=
  if bs.length < n then none else some ((bs.take n).foldl (fun a b => 2 * a + b2n b) 0, bs.drop n)

/-- Read one code: none where the data ends or no table holds the code. -/
def readCode (t : Huff) : Nat → Nat → Nat → List Bool → Option (Nat × List Bool)
  | 0, _, _, _ => none
  | n + 1, len, code, bs =>
    match bs with
    | [] => none
    | b :: r =>
      let c := 2 * code + b2n b
      match t.find? (fun e => e.1 == len + 1 && e.2.1 == c) with
      | some e => some (e.2.2, r)
      | none => readCode t n (len + 1) c r

/-- The value of `n` magnitude bits. -/
def extendBits (n v : Nat) : Int := if n = 0 then 0 else if v < 2 ^ (n - 1) then (v : Int) - 2 ^ n + 1 else v

/-- The AC coefficients of a block from index `k` on, in zigzag order. -/
def readAc (t : Huff) : Nat → Nat → List Int → List Bool → Option (List Int × List Bool)
  | 0, _, acc, bs => some (acc, bs)
  | n + 1, k, acc, bs =>
    if 64 ≤ k then some (acc, bs)
    else
      match readCode t 16 0 0 bs with
      | none => none
      | some (rs, r) =>
        let run := rs / 16
        let size := rs % 16
        if size = 0 then
          if run = 15 then readAc t n (k + 16) acc r else some (acc, r)
        else
          match readBits size r with
          | none => none
          | some (v, r1) =>
            if 64 ≤ k + run then none else readAc t n (k + run + 1) (acc.set (k + run) (extendBits size v)) r1

/-- One block: its coefficients in zigzag order, with the DC prediction. -/
def readBlock (dc ac : Huff) (pred : Int) (bs : List Bool) : Option (List Int × List Bool) :=
  match readCode dc 16 0 0 bs with
  | none => none
  | some (size, r) =>
    match readBits size r with
    | none => none
    | some (v, r1) => readAc ac 64 1 ((List.replicate 64 0).set 0 (pred + extendBits size v)) r1

/-- The blocks of one MCU: per component its blocks in order; the predictions run along. -/
def readMcu (j : Jpeg) (preds : List Int) (bs : List Bool) : Option (List (List (List Int)) × List Int × List Bool) :=
  (List.range 3).foldl (fun acc c =>
    match acc with
    | none => none
    | some (out, ps, bs) =>
      let (_, h, v, _) := nth (0, 1, 1, 0) j.comps c
      let (_, d, a) := nth (0, 0, 0) j.scan c
      let blocks := (List.range (h * v)).foldl (fun acc _ =>
        match acc with
        | none => none
        | some (ls, p, bs) =>
          match readBlock (tblGet [] j.huff d) (tblGet [] j.huff (4 + a)) p bs with
          | none => none
          | some (b, r) => some (ls ++ [b], nth 0 b 0, r)) (some ([], nth 0 ps c, bs))
      match blocks with
      | none => none
      | some (ls, p, r) => some (out ++ [ls], ps.set c p, r)) (some ([], preds, bs))

/-- `n` MCUs of one restart segment. -/
def readMcus (j : Jpeg) : Nat → List Int → List Bool → Option (List (List (List (List Int))))
  | 0, _, _ => some []
  | n + 1, preds, bs =>
    match readMcu j preds bs with
    | none => none
    | some (m, ps, r) => (readMcus j n ps r).map (m :: ·)

/-- The MCUs of an image: none when a segment ends before its blocks. -/
def readAllMcus (j : Jpeg) : Nat → Nat → List (List Byte) → Option (List (List (List (List Int))))
  | 0, left, _ => if left = 0 then some [] else none
  | n + 1, left, segs =>
    if left = 0 then some []
    else
      match segs with
      | [] => none
      | sg :: r =>
        let k := if j.restart = 0 then left else min j.restart left
        match readMcus j k [0, 0, 0] (toBits sg) with
        | none => none
        | some ms => (readAllMcus j n (left - k) r).map (ms ++ ·)

/-! ### The inverse DCT -/

/-- The zigzag order: the place (row × 8 + column) of each coefficient (ITU-T T.81). -/
def zigzag : List Nat :=
  [0, 1, 8, 16, 9, 2, 3, 10, 17, 24, 32, 25, 18, 11, 4, 5, 12, 19, 26, 33, 40, 48, 41, 34, 27, 20, 13, 6, 7, 14, 21, 28] ++
  [35, 42, 49, 56, 57, 50, 43, 36, 29, 22, 15, 23, 30, 37, 44, 51, 58, 59, 52, 45, 38, 31, 39, 46, 53, 60, 61, 54, 47, 55, 62, 63]

/-- RNE(2^11 × cos(k π / 16)) for k = 0 … 8. -/
def cosTable : List Int := [2048, 2009, 1892, 1703, 1448, 1138, 784, 400, 0]

/-- 2^11 × cos(k π / 16) for any k, by symmetry. -/
def cosSixteenth (k : Nat) : Int :=
  let m := k % 32
  if m ≤ 8 then nth 0 cosTable m else if m ≤ 16 then -nth 0 cosTable (16 - m)
  else if m ≤ 24 then -nth 0 cosTable (m - 16) else nth 0 cosTable (32 - m)

/-- C[x][u] of R295: RNE(2^12 × a(u) × cos((2x + 1) u π / 16)). -/
def idctCoef (x u : Nat) : Int := if u = 0 then 1448 else cosSixteenth ((2 * x + 1) * u)

/-- A place of an 8 × 8 block. -/
def blockAt (b : List Int) (y x : Nat) : Int := nth 0 b (8 * y + x)

/-- One block to 64 samples 0 … 255: dequantised, rows first, then columns. -/
def idct (q : List Nat) (zz : List Int) : List Nat :=
  let f := (List.range 64).foldl (fun (a : List Int) i => a.set (nth 0 zigzag i) (nth 0 zz i * (nth 0 q i : Nat))) (List.replicate 64 0)
  let rows := (List.range 64).map fun i =>
    ((List.range 8).foldl (fun a u => a + idctCoef (i % 8) u * blockAt f (i / 8) u) (0 : Int) + 2 ^ 8) / 2 ^ 9
  (List.range 64).map fun i =>
    let s := ((List.range 8).foldl (fun a v => a + idctCoef (i / 8) v * blockAt rows v (i % 8)) (0 : Int) + 2 ^ 14) / 2 ^ 15
    (max 0 (min 255 (s + 128))).toNat

/-! ### The image -/

/-- A sample of component `c` at its own resolution: MCU, block in the MCU, place in the block. -/
def compSample (j : Jpeg) (mcus : List (List (List (List Nat)))) (perRow c y x : Nat) : Nat :=
  let (_, h, v, _) := nth (0, 1, 1, 0) j.comps c
  let m := nth [] mcus (y / (8 * v) * perRow + x / (8 * h))
  let b := nth [] (nth [] m c) (y % (8 * v) / 8 * h + x % (8 * h) / 8)
  nth 0 b (y % 8 * 8 + x % 8)

/-- The planes Y, Cb and Cr at full resolution, 8 bits, rows in order; chroma is replicated (R297). None when the coded data
does not give the declared blocks. -/
def decodeJpeg (bs : List Byte) : Option (Nat × Nat × List (List Nat)) :=
  match readJpeg bs with
  | none => none
  | some j =>
    if ¬ j.ok then none
    else
      let v := (nth (0, 1, 1, 0) j.comps 0).2.2.1
      let perRow := (j.width + 15) / 16
      let n := perRow * ((j.height + 8 * v - 1) / (8 * v))
      match readAllMcus j n n (cutSegments j.coded.length j.coded []) with
      | none => none
      | some ms =>
        let mcus := ms.map fun m => (List.range 3).map fun c =>
          (nth [] m c).map (idct (tblGet [] j.quant (nth (0, 1, 1, 0) j.comps c).2.2.2))
        some (j.width, j.height, (List.range 3).map fun c => (List.range (j.width * j.height)).map fun i =>
          let y := i / j.width
          let x := i % j.width
          if c = 0 then compSample j mcus perRow 0 y x else compSample j mcus perRow c (y / v) (x / 2))

end Sys2Proof.Machine
end

