-- ==== Sys2Proof/Machine/Pixels.lean ====
section
/-! DEFINITION. From samples to tensor elements: the pixel pipeline (R297), resizing (R298), normalisation and augmentation (R302)
and the draws of Philox4x32-10 (R304). -/

namespace Sys2Proof.Machine

/-! ### Unpacking (R288, R297) -/

/-- The bit depth of a raw format. -/
def rawDepth (fmt : Nat) : Nat := match fmt with
  | 1 => 8 | 2 => 10 | 3 => 12 | 4 => 16 | _ => 8

/-- Bytes of a line of `w` pixels of a CSI-2 format, in eighths of a byte per pixel (R288). -/
def rawBits (fmt : Nat) : Nat := match fmt with
  | 1 => 8 | 2 => 10 | 3 => 12 | 4 => 16 | _ => 16

/-- R288: the multiple that a width must be. -/
def widthRule (fmt : Nat) : Nat := match fmt with
  | 2 => 4 | 3 => 2 | 5 => 2 | _ => 1

/-- The components that a sample of a format declares (R288). -/
def declaredComps (fmt : Nat) : Nat := if fmt = 5 then 2 else if fmt = 0x10 then 0 else 1

/-- The values of a packed line of `w` pixels (MIPI CSI-2 packing, PRESUMED, log 25). -/
def unpackLine (fmt w : Nat) (bs : List Byte) : List Nat :=
  let at_ (i : Nat) : Nat := leAt bs i 1
  match fmt with
  | 2 => (List.range w).map fun i => at_ (i / 4 * 5 + i % 4) * 4 + at_ (i / 4 * 5 + 4) / 4 ^ (i % 4) % 4
  | 3 => (List.range w).map fun i => at_ (i / 2 * 3 + i % 2) * 16 + at_ (i / 2 * 3 + 2) / 16 ^ (i % 2) % 16
  | 4 => (List.range w).map fun i => leAt bs (2 * i) 2
  | _ => (List.range w).map at_

/-- An image plane: width, height, values in row order. -/
structure Plane where
  w : Nat
  h : Nat
  v : List Nat
  deriving DecidableEq, Repr

/-- The value at a place. -/
def Plane.at_ (p : Plane) (y x : Nat) : Nat := nth 0 p.v (y * p.w + x)

/-! ### The pixel pipeline (R297) -/

/-- The colour of a pixel: 0 R, 1 G, 2 B, by the colour filter array (0 RGGB, 1 GRBG, 2 GBRG, 3 BGGR). -/
def cfaColour (cfa y x : Nat) : Nat :=
  let y := y + cfa / 2
  let x := x + cfa % 2
  if y % 2 = 0 ∧ x % 2 = 0 then 0 else if y % 2 = 1 ∧ x % 2 = 1 then 2 else 1

/-- A coordinate mirrored into an axis of `n`: pixel −1 is pixel 1. -/
def mirror (n : Nat) (i : Int) : Nat :=
  if i < 0 then (-i).toNat else if (n : Int) ≤ i then (2 * n - 2 - i).toNat else i.toNat

/-- The mean of R297 step 3. -/
def meanDown (l : List Nat) : Nat := if l = [] then 0 else (l.foldl (· + ·) 0 + l.length / 2) / l.length

/-- The value of colour `c` at a pixel: its own, or the mean of its nearest neighbours. -/
def demosaic (p : Plane) (cfa c y x : Nat) : Nat :=
  if cfaColour cfa y x = c then p.at_ y x
  else
    let of_ (l : List (Int × Int)) : List Nat := l.filterMap fun d =>
      let yy := mirror p.h (y + d.1)
      let xx := mirror p.w (x + d.2)
      if cfaColour cfa yy xx = c then some (p.at_ yy xx) else none
    let near := of_ [(-1, 0), (1, 0), (0, -1), (0, 1)]
    if near = [] then meanDown (of_ [(-1, -1), (-1, 1), (1, -1), (1, 1)]) else meanDown near

/-- What a stream's registers say of its pixel pipeline. -/
structure PipeCfg where
  fmt : Nat
  cfa : Nat
  black : Nat
  gains : List Nat
  ccmEn : Bool
  /-- the matrix, row-major, S3.12 -/
  ccm : List Int
  deriving DecidableEq, Repr

/-- The colour matrix (R297 step 6) over the planes there are. -/
def PipeCfg.matrix (c : PipeCfg) (i : Nat) (v : List Int) : Nat :=
  let s := (List.range v.length).foldl (fun a j => a + nth 0 c.ccm (3 * i + j) * nth 0 v j) (0 : Int)
  (max 0 (min 65535 ((s + 2048) / 4096))).toNat

/-- The 16-bit planes before the matrix, and the matrix's input offsets. -/
def PipeCfg.finish (c : PipeCfg) (off : List Int) (ps : List Plane) : List Plane :=
  if ¬ c.ccmEn then ps
  else
    match ps with
    | [] => []
    | p :: _ => (List.range ps.length).map fun i =>
      { p with v := (List.range p.v.length).map fun k =>
          c.matrix i ((List.range ps.length).map fun j => ((nth 0 (nth p ps j).v k : Nat) : Int) - nth 0 off j) }

/-- A raw sample to planes (R297 steps 1 … 6). -/
def PipeCfg.raw (c : PipeCfg) (w : Nat) (lines : List (List Byte)) : List Plane :=
  let b := rawDepth c.fmt
  let p : Plane := { w := w, h := lines.length, v := lines.flatMap fun l => (unpackLine c.fmt w l).map (· - c.black) }
  let balance (colour v : Nat) : Nat := min (2 ^ b - 1) ((v * nth 0 c.gains colour + 2048) / 4096) * 2 ^ (16 - b)
  let out (colour : Nat) (f : Nat → Nat → Nat) : Plane :=
    let v := (List.range (p.w * p.h)).map fun i => balance colour (f (i / p.w) (i % p.w))
    { p with v := v }
  c.finish [0, 0, 0] (if c.cfa = 4 then [out 0 p.at_] else [0, 1, 2].map fun k => out k (demosaic p c.cfa k))

/-- Y, Cb and Cr at 8 bits to planes. -/
def PipeCfg.ycc (c : PipeCfg) (ps : List Plane) : List Plane :=
  c.finish [0, 32768, 32768] (ps.map fun p => { p with v := p.v.map (· * 256) })

/-- A YUV422 8-bit sample to planes: U Y V Y in the order of CSI-2 (PRESUMED, log 25), chroma replicated. -/
def PipeCfg.yuv (c : PipeCfg) (w : Nat) (lines : List (List Byte)) : List Plane :=
  let plane (f : List Byte → Nat → Nat) : Plane :=
    { w := w, h := lines.length, v := lines.flatMap fun l => (List.range w).map (f l) }
  c.ycc [plane fun l i => leAt l (2 * i + 1) 1, plane fun l i => leAt l (i / 2 * 4) 1, plane fun l i => leAt l (i / 2 * 4 + 2) 1]

/-! ### Resizing (R298) -/

/-- One axis: `n` samples given by `f` to `out` samples. -/
def resizeAxis (n out : Nat) (f : Nat → Nat) : List Nat :=
  let k := n / out
  let m := if 2 ≤ k then n / k else n
  let src : List Nat := if 2 ≤ k then
      (List.range m).map fun i => ((List.range k).foldl (fun a j => a + f (i * k + j)) 0 + k / 2) / k
    else (List.range n).map f
  (List.range out).map fun o =>
    let raw : Int := ((((2 * o + 1) * m : Nat) : Int) - out) * 65536 / (2 * out)
    let pos := (max 0 (min raw (((m - 1) * 65536 : Nat) : Int))).toNat
    let i := pos / 65536
    let w := pos / 256 % 256
    (nth 0 src i * (256 - w) + nth 0 src (min (i + 1) (m - 1)) * w + 128) / 256

/-- A plane to `w` × `h`, horizontal first. -/
def Plane.resize (p : Plane) (w h : Nat) : Plane :=
  let rows := (List.range p.h).map fun y => resizeAxis p.w w (p.at_ y)
  let cols := (List.range w).map fun x => resizeAxis p.h h fun y => nth 0 (nth [] rows y) x
  { w := w, h := h, v := (List.range (w * h)).map fun i => nth 0 (nth [] cols (i % w)) (i / w) }

/-- A crop: x0, y0 inclusive, x1, y1 exclusive (R301). -/
def Plane.crop (p : Plane) (x0 y0 x1 y1 : Nat) : Plane :=
  let w := x1 - x0
  { w := w, h := y1 - y0, v := (List.range (w * (y1 - y0))).map fun i => p.at_ (y0 + i / w) (x0 + i % w) }

/-! ### Draws (R304) -/

/-- One round of Philox4x32 on four words with two key words. -/
def philoxRound (c : List Nat) (k0 k1 : Nat) : List Nat :=
  let a := 0xD2511F53 * nth 0 c 0
  let b := 0xCD9E8D57 * nth 0 c 2
  [((b / 2 ^ 32) ^^^ nth 0 c 1) ^^^ k0, b % 2 ^ 32, ((a / 2 ^ 32) ^^^ nth 0 c 3) ^^^ k1, a % 2 ^ 32]

/-- Philox4x32-10: the four output words of a counter and a key. -/
def philox (c : List Nat) (k0 k1 : Nat) : List Nat :=
  (List.range 10).foldl (fun c i => philoxRound c ((k0 + i * 0x9E3779B9) % 2 ^ 32) ((k1 + i * 0xBB67AE85) % 2 ^ 32)) c

/-- What the draws of a sample rest on: the stream seed and the sample index. -/
structure Seed where
  lo : Nat
  hi : Nat
  index : Nat
  deriving DecidableEq, Repr

/-- The four words of a draw. -/
def Seed.draw (s : Seed) (purpose plane slot block : Nat) : List Nat :=
  philox [s.index % 2 ^ 32, s.index / 2 ^ 32 % 2 ^ 32, purpose * 2 ^ 24 + plane * 2 ^ 16 + slot * 2 ^ 8, block] s.lo s.hi

/-- u = (r >> 8) × 2^−24, exactly. -/
def unitDraw (r : Nat) : FVal := .fin false (r / 256) (-24)
/-- u as FP32. -/
def unitF32 (r : Nat) : F32 := roundF32 (unitDraw r)
/-- 2u − 1, exactly. -/
def signedDraw (r : Nat) : FVal := ((FVal.fin false 2 0).mul (unitDraw r)).add (.fin true 1 0)

/-- FP32 2u − 1. -/
def signedF32 (r : Nat) : F32 := fsub (fmul (roundF32 (.fin false 2 0)) (unitF32 r)) f32One

/-- The jitter of a slot: whole pixels (R304). -/
def Seed.jitter (s : Seed) (amp slot : Nat) : Int × Int :=
  let r := s.draw 1 0 slot 0
  let d (i : Nat) : Int := ((FVal.fin false amp 0).mul (signedDraw (nth 0 r i))).toIntRNE
  (d 0, d 1)

/-! ### Normalisation and augmentation (R302) -/

/-- What a binding's registers say of its output elements. -/
structure NormCfg where
  fmt : Nat
  aug : Bool
  gainAmp : F32
  offsetAmp : F32
  noiseAmp : F32
  jitter : Nat
  /-- per plane: mean and inv_std -/
  norm : List (F32 × F32)
  scale : F32
  deriving DecidableEq, Repr

/-- One output element: plane `c`, slot `s`, element `j`, from its 16-bit value (R302). -/
def NormCfg.elem (n : NormCfg) (sd : Seed) (gain offset : F32) (c s j v : Nat) : Conv :=
  let x0 := roundF32 (.fin false v (-16))
  let x1 := if n.aug then
      let r := sd.draw 2 c s (j / 2)
      let ua := unitF32 (nth 0 r (2 * (j % 2)))
      let ub := unitF32 (nth 0 r (2 * (j % 2) + 1))
      fadd (fadd (fmul x0 gain) offset) (fmul n.noiseAmp (fsub ua ub))
    else x0
  let (mean, inv) := nth (0, 0) n.norm c
  let x2 := fmul (fsub x1 mean) inv
  let x3 := if n.fmt = 2 then fmul x2 n.scale else x2
  convert ((Fmt.ofCode n.fmt).getD .none) x3

/-- A resized plane as output elements, rows in order, and how many saturated. -/
def NormCfg.plane (n : NormCfg) (sd : Seed) (c s : Nat) (p : Plane) : List Nat × Nat :=
  let r := sd.draw 0 0 0 0
  let gain := fadd f32One (fmul n.gainAmp (signedF32 (nth 0 r 0)))
  let offset := fmul n.offsetAmp (signedF32 (nth 0 r 1))
  let es := (List.range p.v.length).map fun j => n.elem sd gain offset c s j (nth 0 p.v j)
  (es.map (·.bits), (es.filter (·.sat)).length)

/-- The row of a tile: its elements, padded to whole lines (R124). -/
def packRow (fmt : Fmt) (es : List Nat) : List Byte :=
  let n := (es.length * fmt.bits + 1023) / 1024 * 128
  padTo n (es.flatMap fun e => toLe (fmt.bits / 8) e)

end Sys2Proof.Machine
end

