-- ==== Sys2Proof/Machine/Intake.lean ====
section
/-! DEFINITION. Shared operations of the intake: samples and their order (R286, R287, R290, R291), placeholders (R292, R293), tiles
of the bindings and fill tiles (R306, R307), spotlights (R299 … R301) and checks before decoding (R294). -/

namespace Sys2Proof.Machine

/-! ### Streams and samples -/

/-- The intake of a hub runs: it is out of reset and its hub die is not lost. -/
def State.intakeRuns (s : State) (h : Nat) : Bool := (s.intake h).run == 1 && !(s.link h).lost && !s.lan.lostUnits.contains (38 + h)

/-- The arrival counter: 100 MHz from its base (R286). -/
def State.arrival (s : State) (h : Nat) : Nat := ((s.now - (s.intake h).arrivalBase) * 100) % 2 ^ 64

/-- The package stream of a hub-local stream (R277). -/
def packageStream (h u : Nat) : Nat := if u < 12 then 12 * h + u else 24 + 2 * h + (u - 12)

/-- A stream of a hub. -/
def State.stream (s : State) (h u : Nat) : StreamSt := tblGet {} (s.intake h).streams u
/-- Change a stream. -/
def State.modStreamSt (s : State) (h u : Nat) (f : StreamSt → StreamSt) : State :=
  s.modIntake h fun k => { k with streams := tblMod {} k.streams u f }
/-- A port of a hub. -/
def State.sinPort (s : State) (h p : Nat) : PortSt := tblGet {} (s.intake h).ports p
/-- Change a port. -/
def State.modSinPort (s : State) (h p : Nat) (f : PortSt → PortSt) : State :=
  s.modIntake h fun k => { k with ports := tblMod {} k.ports p f }
/-- A sample by its identity. -/
def State.sample? (s : State) (h id : Nat) : Option Sample := (s.intake h).samples.find? (fun x => x.id == id)
/-- Change a sample. -/
def State.modSample (s : State) (h id : Nat) (f : Sample → Sample) : State :=
  s.modIntake h fun k => { k with samples := mapWhere (fun x => x.id == id) f k.samples }

/-- The samples of a stream, oldest first. -/
def State.samplesOf (s : State) (h u : Nat) : List Sample := (s.intake h).samples.filter (fun x => x.stream == u)
/-- The oldest sample of a stream: the one that the reorder buffer releases next (R290). -/
def State.frontSample (s : State) (h u : Nat) : Option Sample := (s.samplesOf h u).head?
/-- The sample that a stream is receiving. -/
def State.openSample (s : State) (h u : Nat) : Option Sample := (s.samplesOf h u).find? (fun x => x.st == .receiving)

/-- The port that feeds a hub-local stream (R277). -/
def streamPort (u : Nat) : Nat := if u < 8 then u / 2 else if u < 12 then 4 + (u - 8) / 2 else u - 6

/-- A stream takes samples from its port. -/
def State.fromPort (s : State) (h u : Nat) : Bool := s.streamOn h u && !s.streamHost h u
/-- A port is enabled. -/
def State.portOn (s : State) (h p : Nat) : Bool := s.sinField h .SIN_P_CFG p 31 31 == 1

/-- No reorder entry is left for a stream (R290). -/
def State.entriesFull (s : State) (h u : Nat) : Bool :=
  16 ≤ ((s.samplesOf h u).filter (·.entry)).length || 64 ≤ ((s.intake h).samples.filter (·.entry)).length

/-- Bytes of a stream's share of the input buffer, and bytes of it in use (R291). -/
def State.shareBytes (s : State) (h u : Nat) : Nat := s.sinField h .SIN_S_BUF u 8 0 * 65536
/-- Bytes that a stream holds of its share. -/
def State.heldBytes (s : State) (h u : Nat) : Nat := ((s.samplesOf h u).map (·.held)).foldl (· + ·) 0

/-- A compressed or point stream, whose samples are received into the input buffer (R291). -/
def State.buffered (s : State) (h u : Nat) : Bool := s.streamFmt h u == 0x10 || s.streamFmt h u == 0x20

/-! ### Ends of samples (R292, R293) -/

/-- The code of a kind (R292). -/
def Kind.code : Kind → Nat
  | .DATA => 0 | .EMPTY => 1 | .DECODE_OVERRUN => 2 | .DIM_IMPLAUSIBLE => 3 | .LOST => 4

/-- The status of a HOST sample's last part (R292, R293). -/
def Sample.status (x : Sample) : Nat := match x.kind with
  | .DATA => Status.OK
  | .EMPTY => Status.EMPTY
  | .DECODE_OVERRUN => Status.DECODE_OVERRUN
  | .DIM_IMPLAUSIBLE => Status.DIM_IMPLAUSIBLE
  | .LOST => if x.hwError then Status.DATA_POISON else Status.INVALID

/-- Complete a sample's last part, when it has been taken. -/
def State.endLast (s : State) (h id : Nat) : State :=
  match s.sample? h id with
  | some x => match x.last with
    | some p => (s.modSample h id fun x => { x with last := none }).finish p x.status
    | none => s
  | none => s

/-- SAMPLE_PLACEHOLDER: at most once per stream per second (R292). -/
def State.logPlaceholder (s : State) (h u kind : Nat) : State :=
  let t := (s.stream h u).loggedAt
  if t.all (fun t => t + 1000000 ≤ s.now) then
    (s.modStreamSt h u fun x => { x with loggedAt := some s.now }).log .SAMPLE_PLACEHOLDER (4 + h) [packageStream h u, kind]
  else s

/-- Report the begin of a sample to the leading aligner (R312). -/
def State.reportBegin (s : State) (h id : Nat) : State :=
  match s.sample? h id with
  | some x => s.modIntake h fun k => { k with
      reports := insertBegin { id := x.id, stream := x.stream, arrival := x.arrival, begins := true } k.reports }
  | none => s
where
  /-- A begin goes ahead of the end of the same sample, which a sample that is LOST at once has already. -/
  insertBegin (r : SampleReport) : List SampleReport → List SampleReport
    | [] => [r]
    | x :: l => if x.id = r.id then r :: x :: l else x :: insertBegin r l

/-- Report a sample's end to the leading aligner (R312). -/
def State.reportEnd (s : State) (h : Nat) (x : Sample) (kind : Kind) : State :=
  s.modIntake h fun k => { k with reports := k.reports ++
    [{ id := x.id, stream := x.stream, arrival := x.arrival, begins := false, kind := kind }] }

/-- The samples' tiles that still wait for credits become fill tiles: payload all 0 (R307). -/
def State.fillQueued (s : State) (frames : List (Nat × Nat)) (edges : List (Nat × Nat)) : State :=
  frames.foldl (fun s f => s.modGraph f.1 fun gr =>
    { gr with streams := gr.streams.map fun st =>
        if edges.contains (f.1, st.edge) then
          let q := st.queued.map fun t => if t.frame = f.2 then { t with body := List.replicate t.body.length 0 } else t
          { st with queued := q }
        else st }) s

/-- The edges of the bindings of a stream: graph and edge. -/
def State.bindingEdges (s : State) (h u : Nat) : List (Nat × Nat) :=
  (List.range 16).flatMap fun b =>
    let x := s.binding h b
    if x.en ∧ x.stream = u then (s.bindingNeeds h x).map fun n => (n.graph, n.edge) else []

/-- A sample becomes a placeholder: its kind is known, it leaves a decoder, the device counts and logs it, and its last part
completes if it has been taken (R292, R293). `wait`: the rest of it is still to come and is discarded (R291). -/
def State.place (s : State) (h id : Nat) (kind : Kind) (wait : Bool := false) : State :=
  match s.sample? h id with
  | none => s
  | some x =>
    if x.kind ≠ .DATA then s
    else
      let u := x.stream
      let s1 := s.modSample h id fun x =>
        { x with kind := kind, st := if wait then x.st else .done, decoder := none, data := [], lines := [], points := []
                 planes := [], held := 0 }
      let s2 := s1.modIntake h fun k => { k with ready := k.ready.filter (· != id) }
      let s3 := (s2.modStreamSt h u fun x => { x with lastKind := kind.code }).satReg (ra .SIN_S_PLACEHOLDERS h u)
      let s4 := match kind with
        | .DECODE_OVERRUN => (s3.satReg (ra .SIN_S_OVERRUNS h u)).raise .SIN h 4 u
        | .DIM_IMPLAUSIBLE => s3.raise .SIN h 5 u
        | _ => s3
      let s5 := (s4.fillQueued x.frames (s4.bindingEdges h u)).logPlaceholder h u kind.code
      let s6 := if x.host ∧ x.last = none ∧ ¬ wait then s5.reportBegin h id else s5
      (if x.host ∧ wait then s6 else s6.reportEnd h x kind).endLast h id

/-- The rest of a placeholder has been received or will not come. A host sample reports its begin with its last part. -/
def State.endWait (s : State) (h id : Nat) : State :=
  match s.sample? h id with
  | none => s
  | some x =>
    if x.kind = .DATA ∨ x.st ≠ .receiving then s
    else
      let s1 := s.modSample h id fun x => { x with st := .done }
      (if x.host then (s1.reportBegin h id).reportEnd h x x.kind else s1).endLast h id

/-- A sample is LOST by an overflow (R290, R291). -/
def State.placeOverflow (s : State) (h id : Nat) (wait : Bool) : State :=
  match s.sample? h id with
  | some x => ((s.satReg (ra .SIN_P_OVERFLOW h (streamPort x.stream))).raise .SIN h 3 x.stream).place h id .LOST wait
  | none => s

/-- A sample is LOST by a header, CRC, FCS or checksum error at its port (R280). -/
def State.placePort (s : State) (h id : Nat) : State :=
  match s.sample? h id with
  | some x => (s.raise .SIN h 2 x.stream).place h id .LOST
  | none => s

/-! ### Spotlight lists (R299, R300) -/

/-- The spotlight list of a binding, for a sample that starts now: none when it is absent or late. -/
def State.spotList (s : State) (h b : Nat) (late : Bool) : Option (List (List Nat)) :=
  let x := s.binding h b
  let base := bits (s.sinReg h .SIN_B_SPOT_LO b) 31 12 * 4096 + bits (s.sinReg h .SIN_B_SPOT_HI b) 15 0 * 2 ^ 32
  match (s.graph? x.spotGraph).bind (·.lastUsable) with
  | none => none
  | some (f, t) =>
    let (bs, poison) := s.readMem (base + 4096 * (f % 4)) 1044
    let n := leAt bs 4 1
    if s.now - t ≤ (s.sinReg h .SIN_B_SPOT_AGE b).toNat ∧ ¬ late ∧ ¬ poison ∧ leAt bs 0 4 = f ∧ leAt bs 1040 4 = f ∧ n ≤ 64 then
      some ((List.range n).map fun r =>
        [leAt bs (16 + 16 * r) 2, leAt bs (18 + 16 * r) 2, leAt bs (20 + 16 * r) 2, leAt bs (22 + 16 * r) 2, leAt bs (24 + 16 * r) 1])
    else none

/-- A count of 16 bits in a register that saturates. -/
def State.satField (s : State) (a : RegAddr) (hi lo n : Nat) : State :=
  s.setField a hi lo (min (2 ^ (hi + 1 - lo) - 1) (s.field a hi lo + n))

/-- Read the lists of the bindings of a stream at a camera frame start (R300). -/
def State.readSpots (s : State) (h u : Nat) (late : List Nat) : State × List (Nat × List (List Nat)) :=
  ((List.range 16).filter (fun b => let x := s.binding h b; x.en && x.spotEn && x.stream == u)).foldl (fun acc b =>
    match acc.1.spotList h b (late.contains b) with
    | some l => (acc.1, acc.2 ++ [(b, l)])
    | none => (acc.1.satField (ra .SIN_B_SPOT_MISSED h b) 15 0 1, acc.2)) (s, [])

/-! ### Beginning a sample (R286, R287, R290) -/

/-- Begin a sample of a stream with an index: it takes a reorder entry, or is LOST at once when none is left. Answers its
identity. -/
def State.beginSample (s : State) (h u index : Nat) (late : List Nat) (host : Bool) : State × Nat :=
  let full := s.entriesFull h u
  let id := (s.intake h).nextId
  let camera : Bool := s.streamFmt h u != 0x20
  let (s0, spots) := if camera then s.readSpots h u late else (s, [])
  let x : Sample := { id := id, stream := u, index := index, arrival := s.arrival h, entry := !full, host := host, spots := spots }
  let s1 := s0.modIntake h fun k => { k with nextId := id + 1, samples := k.samples ++ [x] }
  let s2 := (s1.modStreamSt h u fun t =>
    { t with next := if host then index else index + 1, silent := false, lastBegin := s.now }).wrapReg (ra .SIN_S_SAMPLES h u)
  (if full then s2.placeOverflow h id false else s2, id)

/-- Begin a sample of a port stream, and report it. -/
def State.beginPort (s : State) (h u : Nat) (late : List Nat) : State × Nat :=
  let (s1, id) := s.beginSample h u (s.stream h u).next late false
  (s1.reportBegin h id, id)

/-! ### Tiles (R306, R307) -/

/-- The payloads of an edge's tiles for one frame: shape and bytes. -/
abbrev TileData := List (TileShape × List Byte)

/-- Queue the tiles of an edge for a frame at every copy's stream, unless they have been made, and send what has credits. -/
def State.queueTiles (s : State) (g ei f : Nat) (ts : TileData) (poisoned : Bool := false) : State :=
  let tile (i : Nat) (x : TileShape × List Byte) : Tile :=
    { stream := ei, seq := i, frame := f, fmt := x.1.fmt, last := i + 1 == ts.length, rows := x.1.rows, cols := x.1.cols
      graph := g, producer := 0xFFFF, body := x.2, poisoned := poisoned }
  let new := ts.zipIdx.map fun x => tile x.2 x.1
  s.modGraph g fun gr =>
    let sts := gr.streams.map fun st =>
      if st.edge ≠ ei ∨ f < st.nextMade then st
      else Stream.pump { st with nextMade := f + 1, queued := st.queued ++ new }
    { gr with streams := sts }

/-- The bytes of an all-zero payload of a shape. -/
def TileShape.zeros (t : TileShape) : List Byte := List.replicate (t.rows * rowBytes ((Fmt.ofCode t.fmt).getD .none) t.cols) 0

/-- Fill tiles of a shape list: zero payload, which leaves every valid field 0 (R307). -/
def fillData (l : List TileShape) : TileData := l.map fun t => (t, t.zeros)

/-- The edges of a binding with their tile shapes, in order. -/
def State.bindingShapes (s : State) (h : Nat) (x : Binding) : List (Nat × List TileShape) :=
  let p := s.streamPlanes h x.stream
  if s.streamFmt h x.stream = 0x20 then
    let m := s.streamMax h x.stream
    [(x.baseEdge, pointShapes (m.1 * m.2) 8)]
  else (x.baseEdge, x.baseShapes p) :: (if x.spotEn then [(x.spotEdge, x.spotShapes p)] else [])

/-- The enabled bindings of a stream. -/
def State.bindingsOf (s : State) (h u : Nat) : List Nat :=
  (List.range 16).filter fun b => let x := s.binding h b; x.en && x.stream == u

/-- FILL_TILES (R307): every binding edge of a stream gets fill tiles for the frames of a set. -/
def State.fillTiles (s : State) (h u : Nat) (frames : List (Nat × Nat)) : State :=
  if ¬ s.intakeRuns h then s else
  (s.bindingsOf h u).foldl (fun s b =>
    let x := s.binding h b
    match frames.find? (fun f => f.1 == x.graph) with
    | some f => (s.bindingShapes h x).foldl (fun s e => s.queueTiles x.graph e.1 f.2 (fillData e.2)) s
    | none => s) s

/-- Every earlier set of a group has closed, or has this stream's sample finished: the tiles of a set's member may be made
(R125, R307). -/
def State.setTurn (s : State) (h u : Nat) (set : Option (Nat × Nat)) : Bool :=
  match set with
  | none => true
  | some (g, k) => ((tblGet {} s.aln.groups g).sets).all fun st =>
      k ≤ st.num || st.closed || st.members.any (fun m => m.stream == packageStream h u && m.done)

/-- A tile of a frame still waits for credits on an edge of a stream's bindings. -/
def State.tilesWait (s : State) (h u : Nat) (frames : List (Nat × Nat)) : Bool :=
  (s.bindingEdges h u).any fun e => match frames.find? (fun f => f.1 == e.1), s.graph? e.1 with
    | some f, some gr => gr.streams.any fun st => st.edge == e.2 && st.queued.any (fun t => t.frame == f.2)
    | _, _ => false

/-- The pipeline of a CSI-2 port waits on credits (R291, R308). -/
def State.pipeWaits (s : State) (h p : Nat) : Bool :=
  [2 * p, 2 * p + 1].any fun u => (s.bindingEdges h u).any fun e => match s.graph? e.1 with
    | some gr => gr.streams.any fun st => st.edge == e.2 && !st.queued.isEmpty
    | none => false

/-! ### Set-up of a stream's pipeline and of a binding's outputs -/

/-- The pixel pipeline's registers of a stream (R297). -/
def State.pipeCfg (s : State) (h u : Nat) : PipeCfg :=
  let c16 (r : Reg) (hi : Nat) : Int := sbits (s.sinField h r u (hi + 15) hi) 16
  { fmt := s.streamFmt h u, cfa := s.sinField h .SIN_S_CFG u 27 24, black := s.sinField h .SIN_S_BLACK u 15 0
    gains := [s.sinField h .SIN_S_WB0 u 15 0, s.sinField h .SIN_S_WB0 u 31 16, s.sinField h .SIN_S_WB1 u 15 0]
    ccmEn := s.sinField h .SIN_S_CFG u 23 23 == 1
    ccm := [c16 .SIN_S_CCM0 0, c16 .SIN_S_CCM0 16, c16 .SIN_S_CCM1 0, c16 .SIN_S_CCM1 16, c16 .SIN_S_CCM2 0,
            c16 .SIN_S_CCM2 16, c16 .SIN_S_CCM3 0, c16 .SIN_S_CCM3 16, c16 .SIN_S_CCM4 0] }

/-- A BF16 half of a register, widened exactly. -/
def bf16Of (v : Nat) : F32 := widen .bf16 v

/-- The registers of a binding's outputs (R302, R304). -/
def State.normCfg (s : State) (h b : Nat) : NormCfg :=
  let x := s.binding h b
  let nm (c : Nat) : F32 × F32 :=
    let v := s.sinReg h .SIN_B_NORM b c
    (bf16Of (bits v 31 16), bf16Of (bits v 15 0))
  { fmt := x.fmt, aug := x.augEn, gainAmp := bf16Of (s.sinField h .SIN_B_AUG0 b 31 16)
    offsetAmp := bf16Of (s.sinField h .SIN_B_AUG0 b 15 0), noiseAmp := bf16Of (s.sinField h .SIN_B_AUG1 b 31 16)
    jitter := s.sinField h .SIN_B_AUG1 b 7 0, norm := [nm 0, nm 1, nm 2]
    scale := s.sinReg h .SIN_B_SCALE b }

/-- The draws of a sample (R304). -/
def State.seedOf (s : State) (h : Nat) (x : Sample) : Seed :=
  { lo := (s.sinReg h .SIN_S_SEED_LO x.stream).toNat, hi := (s.sinReg h .SIN_S_SEED_HI x.stream).toNat, index := x.index }

/-! ### The tiles of a sample (R301, R302, R306) -/

/-- One tile of `rows` rows from row `r0` of a plane of output elements. -/
def planeTile (fmt cols r0 rows : Nat) (es : List Nat) : List Byte :=
  (List.range rows).flatMap fun r => packRow ((Fmt.ofCode fmt).getD .none) ((es.drop ((r0 + r) * cols)).take cols)

/-- The base tiles of a binding, and how many elements saturated. -/
def baseTiles (x : Binding) (n : NormCfg) (sd : Seed) (ps : List Plane) : TileData × Nat :=
  let nb := (x.baseH + x.band - 1) / x.band
  (List.range ps.length).foldl (fun acc c =>
    let (es, sat) := n.plane sd c 0 ((nth { w := 0, h := 0, v := [] } ps c).resize x.baseW x.baseH)
    (acc.1 ++ (List.range nb).map (fun i =>
      let rows := min x.band (x.baseH - i * x.band)
      (({ fmt := x.fmt, rows := rows, cols := x.baseW } : TileShape), planeTile x.fmt x.baseW (i * x.band) rows es)),
     acc.2 + sat)) ([], 0)

/-- A region in a slot: its box after jitter and clipping, its index in the list and its priority (R301, R306). -/
structure Region where
  x0 : Nat
  y0 : Nat
  x1 : Nat
  y1 : Nat
  index : Nat
  priority : Nat
  deriving DecidableEq, Repr

/-- R301: the regions that fill the slots, and how many were skipped as bad. -/
def fillSlots (n : NormCfg) (sd : Seed) (w h slots : Nat) (l : List (List Nat)) : List Region × Nat :=
  (List.range l.length).foldl (fun (acc : List Region × Nat) i =>
    if slots ≤ acc.1.length then acc
    else
      let r := nth [] l i
      let (dx, dy) := if n.aug then sd.jitter n.jitter (acc.1.length + 1) else (0, 0)
      let cl (m : Nat) (v : Int) : Nat := (max 0 (min v m)).toNat
      let mv (k : Nat) (d : Int) : Int := (nth 0 r k : Nat) + d
      let b : Region := { x0 := cl w (mv 0 dx), y0 := cl h (mv 1 dy), x1 := cl w (mv 2 dx), y1 := cl h (mv 3 dy)
                          index := i, priority := nth 0 r 4 }
      if nth 0 r 2 ≤ nth 0 r 0 ∨ nth 0 r 3 ≤ nth 0 r 1 ∨ b.x1 ≤ b.x0 ∨ b.y1 ≤ b.y0 then (acc.1, acc.2 + 1)
      else (acc.1 ++ [b], acc.2)) ([], 0)

/-- A row of the region table (R306). -/
def Region.row (r : Region) : List Byte :=
  packRow .int32 [r.x0, r.y0, r.x1, r.y1, 1, r.index, r.priority, 0]

/-- The spotlight tiles of a binding: the table, then slot by slot each plane; empty slots are zeros. Answers the elements that
saturated and the regions that were bad. -/
def spotTiles (x : Binding) (n : NormCfg) (sd : Seed) (ps : List Plane) (l : List (List Nat)) : TileData × Nat × Nat :=
  let img := nth { w := 0, h := 0, v := [] } ps 0
  let (rs, badCount) := fillSlots n sd img.w img.h x.slots l
  let table := (rs.flatMap Region.row) ++ List.replicate ((64 - rs.length) * 128) 0
  let head : TileShape × List Byte := ({ fmt := 0xA, rows := 64, cols := 8 }, table)
  let sh : TileShape := { fmt := x.fmt, rows := x.spotH, cols := x.spotW }
  let (ts, sat) := (List.range x.slots).foldl (fun (acc : TileData × Nat) i =>
    match rs[i]? with
    | none => (acc.1 ++ List.replicate ps.length (sh, sh.zeros), acc.2)
    | some r => (List.range ps.length).foldl (fun (acc : TileData × Nat) c =>
        let p := ((nth { w := 0, h := 0, v := [] } ps c).crop r.x0 r.y0 r.x1 r.y1).resize x.spotW x.spotH
        let (es, sat) := n.plane sd c (i + 1) p
        (acc.1 ++ [(sh, planeTile x.fmt x.spotW 0 x.spotH es)], acc.2 + sat)) acc) ([], 0)
  (head :: ts, sat, badCount)

/-- The points of a sweep as tiles of `cols` columns, 1,024 rows each; rows past the last point are 0 (R306, R334). -/
def pointTiles (n cols : Nat) (pts : List (List F32)) : TileData :=
  (pointShapes n cols).zipIdx.map fun (t, i) =>
    (t, (List.range t.rows).flatMap fun r => match pts[1024 * i + r]? with
      | some p => packRow .fp32 (p.map (·.toNat))
      | none => List.replicate 128 0)

/-- The tiles of one binding of a sample whose planes or points are known, sent for a frame. -/
def State.sendBinding (s : State) (h b f : Nat) (x : Sample) : State :=
  let bd := s.binding h b
  if s.streamFmt h x.stream = 0x20 then
    let m := s.streamMax h x.stream
    s.queueTiles bd.graph bd.baseEdge f (pointTiles (m.1 * m.2) 8 (x.points.map (·.row)))
  else
    let n := s.normCfg h b
    let sd := s.seedOf h x
    let ps := x.planes.map fun v => ({ w := x.width, h := x.height, v := v } : Plane)
    let (ts, sat) := baseTiles bd n sd ps
    let s1 := (s.queueTiles bd.graph bd.baseEdge f ts).satReg (ra .SIN_B_SAT h b) sat
    if ¬ bd.spotEn then s1
    else
      match x.spots.find? (fun e => e.1 == b) with
      | none => s1.queueTiles bd.graph bd.spotEdge f (fillData (bd.spotShapes ps.length))
      | some e =>
        let (ts, sat, badCount) := spotTiles bd n sd ps e.2
        ((s1.queueTiles bd.graph bd.spotEdge f ts).satReg (ra .SIN_B_SAT h b) sat).satField
          (ra .SIN_B_SPOT_MISSED h b) 31 16 badCount

/-- The tiles of a sample for every binding whose graph its set serves. -/
def State.sendSample (s : State) (h : Nat) (x : Sample) : State :=
  (s.bindingsOf h x.stream).foldl (fun s b => match x.frames.find? (fun f => f.1 == (s.binding h b).graph) with
    | some f => s.sendBinding h b f.2 x
    | none => s) s

end Sys2Proof.Machine
end

