-- ==== Sys2Proof/Machine/Sensor.lean ====
section
/-! DEFINITION. The sensor ports and the intake (R277 … R309): CSI-2, Ethernet and CAN FD reception, host samples, decoders, the
pixel pipeline, the reorder buffer, and the enables of streams and bindings. -/

namespace Sys2Proof.Machine

/-! ### CSI-2 ports (R279, R280) -/

/-- The stream of a virtual channel of a CSI-2 port: slot 0 feeds stream 2p, slot 1 stream 2p + 1. -/
def State.csiStream (s : State) (h p vc : Nat) : Option Nat :=
  if ¬ s.intakeRuns h ∨ ¬ s.portOn h p then none
  else if s.sinField h .SIN_P_CFG p 22 18 = vc ∧ s.fromPort h (2 * p) then some (2 * p)
  else if s.sinField h .SIN_P_CFG p 27 23 = vc ∧ s.fromPort h (2 * p + 1) then some (2 * p + 1)
  else none

/-- A packet has been received at a port; a corrected header is counted (R280). -/
def State.csiPacket (s : State) (h p : Nat) (ecc : EccHw) : State :=
  if ¬ s.intakeRuns h ∨ ¬ s.portOn h p then s
  else
    let s1 := s.wrapReg (ra .SIN_P_RX h p)
    if ecc = .ce then s1.satReg (ra .SIN_P_CE h p) else s1

/-- The open sample of a stream is LOST by a port error. -/
def State.openLost (s : State) (h u : Nat) : State :=
  match s.openSample h u with
  | some x => if x.kind = .DATA then s.placePort h x.id else s.endWait h x.id
  | none => s.raise .SIN h 2 u

/-- CSI2_FRAME_START: a frame start before the previous frame end makes the open sample LOST. -/
def State.csiStart (s : State) (h p vc : Nat) (ecc : EccHw) (late : List Nat) : State :=
  let s0 := s.csiPacket h p ecc
  match s.csiStream h p vc with
  | none => s0
  | some u =>
    let s1 := if (s0.openSample h u).isSome ∨ ecc = .ue then s0.openLost h u else s0
    if ecc = .ue then s1 else (s1.beginPort h u late).1

/-- The CSI-2 data type of a format (R279). -/
def csiType (fmt : Nat) : Nat := match fmt with
  | 1 => 0x2A | 2 => 0x2B | 3 => 0x2C | 4 => 0x2E | 5 => 0x1E | _ => 0

/-- CSI2_LONG_PACKET: a line of pixels, embedded data, or a packet of another type. -/
def State.csiLong (s : State) (h p vc dt : Nat) (bs : List Byte) (ecc : EccHw) (crcOk : Bool) : State :=
  let s0 := s.csiPacket h p ecc
  match s.csiStream h p vc with
  | none => s0
  | some u =>
    if ecc = .ue ∨ ¬ crcOk then s0.openLost h u
    else if dt = 0x12 then
      match s0.openSample h u with
      | some x =>
        let r := s0.sinReg h .SIN_S_STAMP u
        if x.embedded ∨ ¬ r.getLsbD 31 then s0
        else s0.modSample h x.id fun x => { x with embedded := true, stamp := leAt bs (bits r 15 0) 8 }
      | none => s0
    else if dt ≠ csiType (s.streamFmt h u) then s0.satReg (ra .SIN_P_DROP h p)
    else
      match s0.openSample h u with
      | none => s0
      | some x =>
        let q := if s0.pipeWaits h p then (s0.sinPort h p).lineQueue + bs.length else 0
        if 262144 < q then (s0.modSinPort h p fun t => { t with lineQueue := 0 }).placeOverflow h x.id true
        else
          (s0.modSinPort h p fun t => { t with lineQueue := q }).modSample h x.id fun x =>
            if x.kind = .DATA then { x with lines := x.lines ++ [bs], got := x.got + bs.length } else x

/-- The checks on a raw frame's lines (R280, R294): the kind that it becomes. -/
def State.linesKind (s : State) (h u : Nat) (lines : List (List Byte)) : Kind :=
  let fmt := s.streamFmt h u
  let n := (lines.headD []).length
  let w := n * 8 / rawBits fmt
  let m := s.streamMax h u
  if lines.all (·.isEmpty) then .EMPTY
  else if lines.any (fun l => l.length ≠ n) ∨ m.1 < w ∨ m.2 < lines.length ∨ w * rawBits fmt ≠ n * 8 ∨ w % widthRule fmt ≠ 0 then
    .DIM_IMPLAUSIBLE
  else .DATA

/-- CSI2_FRAME_END: the sample is complete. -/
def State.csiEnd (s : State) (h p vc : Nat) (ecc : EccHw) : State :=
  let s0 := s.csiPacket h p ecc
  match s.csiStream h p vc with
  | none => s0
  | some u =>
    match s0.openSample h u with
    | none => s0
    | some x =>
      if x.kind ≠ .DATA then s0.endWait h x.id
      else if ecc = .ue then s0.placePort h x.id
      else
        match s0.linesKind h u x.lines with
        | .DATA => s0.modSample h x.id fun x =>
            { x with st := .ready, width := (x.lines.headD []).length * 8 / rawBits (s.streamFmt h u), height := x.lines.length }
        | k => s0.place h x.id k

/-! ### Ethernet ports (R281) -/

/-- The ones' complement sum of 16-bit big-endian words. -/
def onesSum (bs : List Byte) : Nat :=
  let t := (List.range ((bs.length + 1) / 2)).foldl (fun a i => a + leAt bs (2 * i) 1 * 256 + leAt bs (2 * i + 1) 1) 0
  let f := t % 65536 + t / 65536
  f % 65536 + f / 65536

/-- What a frame holds: a payload for a UDP port, a frame to drop, one to ignore (PAUSE), or one that no stream can match. -/
inductive EthFrame where
  | udp (port : Nat) (payload : List Byte)
  | drop
  | ignore
  | other
  deriving DecidableEq, Repr

/-- A UDP datagram in an IPv4 packet. -/
def readUdp (ip : List Byte) : EthFrame :=
  let n := beAt ip 2 2
  let u := (ip.drop 20).take (n - 20)
  let len := beAt u 4 2
  let d := u.take len
  if n < 28 ∨ ip.length < n ∨ len < 8 ∨ u.length < len then .drop
  else if beAt u 6 2 ≠ 0 ∧ onesSum ((ip.drop 12).take 8 ++ [0, 17] ++ toBe 2 len ++ d) ≠ 0xFFFF then .drop
  else .udp (beAt u 2 2) (d.drop 8)

/-- An IPv4 packet without options and not a fragment, with its header checksum checked. -/
def readIp (ip : List Byte) : EthFrame :=
  if leAt ip 0 1 ≠ 0x45 ∨ ip.length < 20 ∨ onesSum (ip.take 20) ≠ 0xFFFF ∨ beAt ip 6 2 % 0x4000 ≠ 0 then .drop
  else if leAt ip 9 1 = 17 then readUdp ip
  else .other

/-- An Ethernet frame of 64 … 9,216 B with its FCS; `vlan` is the identifier that tagged frames must have, if any. -/
def readEth (vlan : Option Nat) (f : List Byte) : EthFrame :=
  let body := f.take (f.length - 4)
  if f.length < 64 ∨ 9216 < f.length ∨ (crc32 body).toNat ≠ leAt f (f.length - 4) 4 then .drop
  else
    let tagged : Bool := beAt body 12 2 == 0x8100
    let other : Bool := match vlan with
      | some v => tagged && beAt body 14 2 % 4096 != v
      | none => false
    let o := if tagged then 16 else 12
    if other then .drop
    else if beAt body o 2 = 0x8808 then .ignore
    else if beAt body o 2 = 0x0800 then readIp (body.drop (o + 2))
    else .other

/-- The enabled port stream of an Ethernet port with a UDP port number. -/
def State.udpStream (s : State) (h e port : Nat) : Option Nat :=
  [8 + 2 * e, 9 + 2 * e].find? fun u => s.fromPort h u && s.sinField h .SIN_S_CFG u 15 0 == port

/-! ### JPEG fragments (R282) -/

/-- More bytes of a buffered port sample; one that outgrows its share is LOST and the rest of it is discarded (R291). -/
def State.growSample (s : State) (h id n : Nat) (f : Sample → Sample) : State :=
  match s.sample? h id with
  | none => s
  | some x =>
    if x.kind ≠ .DATA then s
    else if s.shareBytes h x.stream < s.heldBytes h x.stream + n then s.placeOverflow h id true
    else s.modSample h id fun x => { f x with got := x.got + n, held := x.held + n }

/-- A sample has been received whole: it is ready for a decoder, unless it is a placeholder already or has no byte (R289, R294). -/
def State.closeSample (s : State) (h id : Nat) : State :=
  match s.sample? h id with
  | none => s
  | some x =>
    if x.kind ≠ .DATA then s.endWait h id
    else if x.got = 0 then s.place h id .EMPTY
    else (s.modSample h id fun x => { x with st := .ready }).modIntake h fun k => { k with ready := k.ready ++ [id] }

/-- A fragment that continues or closes the open image of a stream. -/
def State.addFragment (s : State) (h u : Nat) (x : Sample) (last : Bool) (frameNo offset total : Nat) (body : List Byte) : State :=
  if x.kind = .DATA ∧ (frameNo ≠ x.imageNo ∨ total ≠ x.total ∨ offset ≠ x.data.length ∨
      (last ∧ offset + body.length ≠ total)) then s.openLost h u
  else
    let s1 := s.growSample h x.id body.length fun x => { x with data := x.data ++ body }
    if last then s1.closeSample h x.id else s1

/-- JPEG_FRAGMENT: a UDP payload of a JPEG stream. -/
def State.fragment (s : State) (h u : Nat) (bs : List Byte) (late : List Nat) : State :=
  let fl := leAt bs 2 1
  let body := bs.drop 24
  if leAt bs 0 2 ≠ 0x4A46 ∨ bs.length < 24 then s.openLost h u
  else if bitN fl 0 then
    let s1 := if (s.openSample h u).isSome then s.openLost h u else s
    let (s2, id) := s1.beginPort h u late
    let s3 := s2.modSample h id fun x => { x with stamp := leAt bs 16 8, imageNo := leAt bs 4 4, total := leAt bs 12 4 }
    match s3.openSample h u with
    | some x => if x.id = id then s3.addFragment h u x (bitN fl 1) (leAt bs 4 4) (leAt bs 8 4) (leAt bs 12 4) body else s3
    | none => s3
  else
    match s.openSample h u with
    | some x => s.addFragment h u x (bitN fl 1) (leAt bs 4 4) (leAt bs 8 4) (leAt bs 12 4) body
    | none => s

/-! ### Point payloads (R283, R284) -/

/-- The point format descriptor of a stream: 32 bytes (R283). -/
def State.pointDesc (s : State) (h u : Nat) : List Byte :=
  (List.range 8).flatMap fun w => toLe 4 (s.sinReg h .SIN_S_PT u w).toNat

/-- A coordinate of a record: an integer times 2^E, or FP32. -/
def coordOf (d rec : List Byte) (off : Nat) : F32 :=
  let e := sbits (leAt d 9 1) 8
  let int (n : Nat) (w : Nat) : F32 :=
    let v := sbits (leAt rec off n) w
    roundF32 (.fin (v < 0) v.natAbs e)
  match leAt d 8 1 / 4 % 4 with
  | 0 => int 2 16
  | 1 => int 4 32
  | _ => BitVec.ofNat 32 (leAt rec off 4)

/-- x, y and z of a record (R283). -/
def xyzOf (d rec : List Byte) : F32 × F32 × F32 :=
  let a := coordOf d rec (leAt d 10 2)
  if leAt d 8 1 % 4 = 1 then
    let az := sbits (leAt rec (leAt d 12 2) 2) 16
    let el := sbits (leAt rec (leAt d 14 2) 2) 16
    let rc := fmul a (cosCentidegree el)
    (fmul rc (cosCentidegree az), fmul rc (sinCentidegree az), fmul a (sinCentidegree el))
  else (a, coordOf d rec (leAt d 12 2), coordOf d rec (leAt d 14 2))

/-- An unsigned field of a record as FP32; type 1 is UINT8, 2 UINT16, 0 absent. -/
def smallField (rec : List Byte) (off ty : Nat) : F32 :=
  if off = 0xFFFF ∨ ty = 0 then 0 else roundF32 (.fin false (leAt rec off ty) 0)

/-- A record as a point row (R306): x, y, z, intensity, time in µs since the sample's sensor stamp, ring, valid, 0. `base` is the
packet stamp minus the sample's, in ns. -/
def pointRow (d rec : List Byte) (base : Int) : SweepPoint :=
  let (x, y, z) := xyzOf d rec
  let ns : Int := base + (if leAt d 22 2 = 0xFFFF then 0 else leAt rec (leAt d 22 2) 4)
  let us := fdiv (roundF32 (.fin (ns < 0) ns.natAbs 0)) (roundF32 (.fin false 1000 0))
  { row := [x, y, z, smallField rec (leAt d 16 2) (leAt d 18 1), us, smallField rec (leAt d 20 2) (leAt d 19 1), f32One, 0]
    ns := ns }

/-- The records of a payload, in order. -/
def recordsOf (d bs : List Byte) (host : Bool) : List (List Byte) :=
  let stride := leAt d 2 2
  let skip := if host then 0 else leAt d 0 2
  let room := if stride = 0 then 0 else (bs.length - skip) / stride
  let n := if host then room else if leAt d 4 2 = 0xFFFF then leAt d 6 2 else leAt bs (leAt d 4 2) 2
  (List.range (min n room)).map fun i => (bs.drop (skip + i * stride)).take stride

/-- The sensor stamp unit of a stream in ns (R314). -/
def State.stampUnit (s : State) (h u : Nat) : Nat := match s.field (ra .ALN_S_CFG h u) 29 28 with
  | 0 => 1 | 1 => 10 | _ => 1000

/-- A sweep ends (R284). -/
def State.endSweep (s : State) (h u : Nat) : State :=
  match s.openSample h u with
  | some x => s.closeSample h x.id
  | none => s

/-- A sweep with more than max_w × max_h points is DIM_IMPLAUSIBLE, and the rest of it is discarded. -/
def State.sweepLimit (s : State) (h u id : Nat) : State :=
  match s.sample? h id with
  | some x =>
    let m := s.streamMax h u
    if x.kind = .DATA ∧ m.1 * m.2 < x.points.length then s.place h id .DIM_IMPLAUSIBLE true else s
  | none => s

/-- Begin a sweep when none is open. -/
def State.openSweep (s : State) (h u stamp : Nat) : State × Option Nat :=
  match s.openSample h u with
  | some x => (s, some x.id)
  | none =>
    let (s1, id) := s.beginPort h u []
    let s2 := s1.modSample h id fun x => { x with stamp := stamp }
    (s2, (s2.openSample h u).map (·.id))

/-- One record of a payload: an azimuth that falls ends the sweep first (R284). -/
def State.addRecord (s : State) (h u : Nat) (d : List Byte) (stamp : Nat) (rec : List Byte) : State :=
  let spherical : Bool := leAt d 8 1 % 4 == 1
  let az := sbits (leAt rec (leAt d 12 2) 2) 16
  let wraps : Bool := leAt d 31 1 == 1 && spherical && (match s.openSample h u with
    | some x => match x.lastAzimuth with
      | some a => decide (az < a)
      | none => false
    | none => false)
  let s1 := if wraps then s.endSweep h u else s
  let (s2, id) := s1.openSweep h u stamp
  match id with
  | none => s2
  | some id =>
    (s2.modSample h id fun x =>
      let base : Int := ((stamp : Int) - x.stamp) * (s.stampUnit h u : Nat)
      { x with lastAzimuth := if spherical then some az else none
               points := if x.kind = .DATA then x.points ++ [pointRow d rec base] else x.points }).sweepLimit h u id

/-- A jump in the packet sequence number within a sweep sets its gap flag (R284). -/
def State.checkSeq (s : State) (h u id seq : Nat) : State :=
  match s.sample? h id with
  | none => s
  | some x =>
    let jump : Bool := match x.lastSeq with
      | some l => (l + 1) % 65536 != seq
      | none => false
    let s1 := s.modSample h id fun x => { x with lastSeq := some seq, gap := x.gap || jump }
    if jump then s1.modStreamSt h u fun t => { t with gaps := min 4095 (t.gaps + 1) } else s1

/-- POINT_PAYLOAD and SWEEP_END: a UDP payload of a point stream. -/
def State.pointPayload (s : State) (h u : Nat) (bs : List Byte) : State :=
  let d := s.pointDesc h u
  let stamp := if leAt d 26 2 = 0xFFFF then 0 else leAt bs (leAt d 26 2) 8
  let (s1, id) := s.openSweep h u stamp
  match id with
  | none => s1
  | some id =>
    let s2 := if leAt d 24 2 = 0xFFFF then s1 else s1.checkSeq h u id (leAt bs (leAt d 24 2) 2)
    let s3 := s2.growSample h id bs.length fun x => x
    let s4 := (recordsOf d bs false).foldl (fun s r => s.addRecord h u d stamp r) s3
    if leAt d 31 1 = 0 ∧ bitN (leAt bs (leAt d 28 2) 1) (leAt d 30 1) then s4.endSweep h u else s4

/-- SENSOR_ETH_FRAME (R281). -/
def State.ethFrame (s : State) (h e : Nat) (f : List Byte) (late : List Nat) : State :=
  let p := 4 + e
  if ¬ s.intakeRuns h ∨ ¬ s.portOn h p then s
  else
    let s1 := s.wrapReg (ra .SIN_P_RX h p)
    let vlan := if s.sinField h .SIN_P_CFG p 12 12 = 1 then some (s.sinField h .SIN_P_CFG p 11 0) else none
    match readEth vlan f with
    | .drop => (s1.satReg (ra .SIN_P_DROP h p)).raise .SIN h 2 0xFF
    | .ignore => s1
    | .other => s1.satReg (ra .SIN_P_UNMATCHED h p)
    | .udp port body =>
      match s1.udpStream h e port with
      | none => s1.satReg (ra .SIN_P_UNMATCHED h p)
      | some u =>
        if s1.streamFmt h u = 0x10 then s1.fragment h u body late
        else if s1.streamFmt h u = 0x20 then s1.pointPayload h u body
        else s1

/-! ### CAN FD ports (R285) -/

/-- An enabled filter accepts an identifier: pairs of registers hold identifier and mask (log 25). -/
def State.canAccepts (s : State) (h p id : Nat) : Bool :=
  (List.range 4).any fun i =>
    let f := s.sinReg h .SIN_P_FILT p (2 * i)
    let m := (s.sinReg h .SIN_P_FILT p (2 * i + 1)).toNat
    f.getLsbD 31 && (bits f 28 0 &&& m) == (id &&& m)

/-- SENSOR_CAN_FRAME: a kept frame becomes a record of the auxiliary stream's history ring. -/
def State.canFrame (s : State) (h p : Nat) (r : CanRecord) : State :=
  if ¬ s.intakeRuns h ∨ ¬ s.portOn h (6 + p) ∨ (s.sinPort h (6 + p)).busOff then s
  else
    let s1 := s.wrapReg (ra .SIN_P_RX h (6 + p))
    if s.canAccepts h (6 + p) r.id ∧ s.streamOn h (12 + p) then
      let keep (l : List CanRecord) : List CanRecord := (l ++ [r]).drop (l.length + 1 - 4096)
      ((s1.modIntake h fun k => if p = 0 then { k with can0 := keep k.can0 } else { k with can1 := keep k.can1 }).modStreamSt h
        (12 + p) fun t => { t with next := t.next + 1, lastBegin := s.now }).wrapReg (ra .SIN_S_SAMPLES h (12 + p))
    else s1

/-- CAN_BUS_OFF_RECOVERY: 128 occurrences of 11 recessive bits after bus-off. -/
def State.canRecover (s : State) (h p : Nat) : State :=
  if (s.sinPort h (6 + p)).busOff then s.modSinPort h (6 + p) fun t => { t with busOff := false, passive := false } else s

/-! ### Host samples (R259, R278, R291, R293) -/

/-- What a SAMPLE names. -/
structure SamplePart where
  stream : Nat
  fmt : Nat
  width : Nat
  height : Nat
  comps : Nat
  total : Nat
  index : Nat
  stamp : Nat
  offset : Nat
  last : Bool
  deriving DecidableEq, Repr

/-- The fields of a SAMPLE (R259). -/
def Packet.samplePart (p : Packet) : SamplePart :=
  let h := p.header
  { stream := leAt h 17 1, fmt := leAt h 18 1, width := leAt h 20 2, height := leAt h 22 2, comps := leAt h 24 1
    total := leAt h 28 4, index := leAt h 32 8, stamp := leAt h 40 8, offset := leAt h 48 4, last := bitN (leAt h 52 1) 0 }

/-- The bytes of a part: the whole payload, or what is left of the sample in its last part. -/
def Packet.partBytes (p : Packet) : List Byte :=
  let a := p.samplePart
  if a.last then p.payload.take (a.total - a.offset) else p.payload

/-- A raw format: its width, height and components are declared (R259, R288). -/
def isRaw (fmt : Nat) : Bool := 1 ≤ fmt && fmt ≤ 5

/-- The checks that refuse a part (R252, R259, R273, R278). -/
def State.partStatus (s : State) (p : Packet) (u : Option Nat) : Nat :=
  let a := p.samplePart
  let h := p.header
  let reserved : Bool := leAt h 19 1 != 0 || !zeroFrom h 25 3 || 1 < leAt h 52 1 || !zeroFrom h 53 11
  let short : Bool := a.last && (a.total < a.offset || p.payload.length < a.total - a.offset ||
    !zeroFrom p.payload (a.total - a.offset) p.payload.length)
  let long : Bool := !a.last && a.total < a.offset + p.payload.length
  let shape : Bool := a.fmt == 0x10 && (a.width != 0 || a.height != 0 || a.comps != 0)
  let stream : Bool := match u with
    | none => true
    | some u =>
      !s.streamOn p.link u || !s.streamHost p.link u || a.fmt != s.streamFmt p.link u ||
      (match s.openSample p.link u with
       | some x => a.index != x.index || a.offset != x.got
       | none => a.offset != 0)
  combineStatus [if isRaw a.fmt ∧ (a.width = 0 ∨ a.height = 0 ∨ a.comps = 0) then Status.ZERO_FIELD else 0,
    if reserved ∨ short ∨ long ∨ shape ∨ stream then Status.BAD_PACKET else 0]

/-- The hub-local stream that a SAMPLE names, on its own hub (R277, R278). -/
def hostStream (link stream : Nat) : Option Nat :=
  if 12 * link ≤ stream ∧ stream < 12 * link + 12 then some (stream - 12 * link) else none

/-- R294: what a SAMPLE declares, before a pipeline or decoder is claimed. -/
def State.declaredKind (s : State) (h u : Nat) (a : SamplePart) : Kind :=
  let m := s.streamMax h u
  let need := if a.fmt = 0x20 then a.width * leAt (s.pointDesc h u) 2 2 else a.width * a.height * rawBits a.fmt / 8
  if a.total = 0 then .EMPTY
  else if s.buffered h u ∧ s.shareBytes h u < a.total then .DIM_IMPLAUSIBLE
  else if a.fmt = 0x10 then .DATA
  else if a.fmt = 0x20 ∧ (m.1 * m.2 < a.width ∨ a.height ≠ 1) then .DIM_IMPLAUSIBLE
  else if a.fmt ≠ 0x20 ∧ (m.1 < a.width ∨ m.2 < a.height) then .DIM_IMPLAUSIBLE
  else if a.width % widthRule a.fmt ≠ 0 ∨ a.comps ≠ declaredComps a.fmt ∨ a.total ≠ need then .DIM_IMPLAUSIBLE
  else .DATA

/-- Take a part into the open sample; the last one ends its reception (R259, R286). -/
def State.takePart (s : State) (p : Packet) (id : Nat) : State :=
  let h := p.link
  let a := p.samplePart
  let bs := p.partBytes
  let n := if a.last then a.total - a.offset else p.payload.length
  let hold : Nat := match s.sample? h id with
    | some x => if s.buffered h x.stream ∧ x.kind = .DATA then n else 0
    | none => 0
  let s1 := s.modSample h id fun x =>
    { x with data := if x.kind = .DATA then x.data ++ bs else x.data, got := x.got + n, held := x.held + hold }
  if ¬ a.last then s1.takeFinish p Status.OK
  else
    let s0 := (s1.take p).modSample h id fun x => { x with last := some p, arrival := s.arrival h, stamp := a.stamp }
    match s0.sample? h id with
    | none => s0
    | some x =>
      let s2 := s0.reportBegin h id
      if x.kind ≠ .DATA then s0.endWait h id
      else if s2.buffered h x.stream then s2.closeSample h id
      else
        let line := x.width * rawBits a.fmt / 8
        let lines := (List.range x.height).map fun i => (x.data.drop (i * line)).take line
        s2.modSample h id fun x => { x with st := .ready, lines := lines, data := [] }

/-- TENSOR_PUT SAMPLE (R259): a part that has no reorder entry or no room in its share waits, and its ring waits behind it. -/
def State.putSample (s : State) (p : Packet) (late : List Nat) : State :=
  let h := p.link
  let a := p.samplePart
  let u := hostStream h a.stream
  let code := s.partStatus p u
  if code ≠ 0 ∨ ¬ s.intakeRuns h then s.takeFinish p (if code = 0 then Status.BAD_PACKET else code)
  else
    let u := u.getD 0
    match s.openSample h u with
    | some x =>
      if x.kind = .DATA ∧ s.buffered h u ∧ s.shareBytes h u < s.heldBytes h u + p.partBytes.length then s.hold p
      else s.takePart p x.id
    | none =>
      if s.entriesFull h u then s.hold p
      else
        let kind := s.declaredKind h u a
        if kind = .DATA ∧ s.buffered h u ∧ s.shareBytes h u < s.heldBytes h u + p.partBytes.length then s.hold p
        else
          let (s1, id) := s.beginSample h u a.index late true
          let s2 := s1.modSample h id fun x => { x with total := a.total, width := a.width, height := a.height }
          (if kind = .DATA then s2 else s2.place h id kind true).takePart p id

/-! ### Decoders (R289, R295, R296) -/

/-- The budget of a stream's decoder in intake cycles: min(16 × mean, cap), or cap until 32 samples have completed. -/
def State.budgetCycles (s : State) (h u : Nat) : Nat :=
  let t := (s.stream h u).times
  let cap := (s.sinReg h .SIN_S_BUDGET_CAP u).toNat * 800
  if t.length < 32 then cap else min (t.foldl (· + ·) 0 * 16 / 32) cap

/-- The lowest-numbered free decoder. -/
def State.freeDecoder (s : State) (h : Nat) : Option Nat :=
  (List.range 8).find? fun d => (s.intake h).samples.all fun x => x.decoder ≠ some d

/-- The checks on a JPEG before a decoder is claimed (R294): none when it passes. -/
def State.jpegBad (s : State) (h u : Nat) (bs : List Byte) : Bool :=
  match readJpeg bs with
  | none => true
  | some j =>
    let m := s.streamMax h u
    j.width == 0 || j.height == 0 || m.1 < j.width || m.2 < j.height ||
    (s.sinReg h .SIN_S_RATIO u).toNat * bs.length < j.width * j.height * 3 || !j.ok

/-- DECODE_START: the sample that has been ready longest is checked, and goes to the lowest-numbered free decoder. -/
def State.decodeStart (s : State) (h : Nat) : State :=
  match (s.intake h).ready with
  | [] => s
  | id :: rest =>
    match s.sample? h id with
    | none => s.modIntake h fun k => { k with ready := rest }
    | some x =>
      if s.streamFmt h x.stream = 0x10 ∧ s.jpegBad h x.stream x.data then s.place h id .DIM_IMPLAUSIBLE
      else
        match s.freeDecoder h with
        | none => s
        | some d =>
          (s.modIntake h fun k => { k with ready := rest }).modSample h id fun x =>
            { x with st := .decoding, decoder := some d, decodeSince := s.now }

/-- The sample in a decoder. -/
def State.inDecoder (s : State) (h d : Nat) : Option Sample := (s.intake h).samples.find? (fun x => x.decoder == some d)

/-- A decoder's result: planes, or points of a host sample; none when the content does not decode to its declared size. -/
def State.decoded (s : State) (h : Nat) (x : Sample) : Option Sample :=
  if s.streamFmt h x.stream = 0x10 then
    (decodeJpeg x.data).map fun r =>
      let planes := (s.pipeCfg h x.stream).ycc (r.2.2.map fun v => { w := r.1, h := r.2.1, v := v })
      { x with width := r.1, height := r.2.1, planes := planes.map (·.v) }
  else
    let d := s.pointDesc h x.stream
    some { x with points := if x.host then (recordsOf d x.data true).map fun r => pointRow d r 0 else x.points }

/-- DECODE_DONE: within the budget; the time enters the mean of the last 32 (R296). -/
def State.decodeDone (s : State) (h d cycles : Nat) : State :=
  match s.inDecoder h d with
  | none => s
  | some x =>
    if s.budgetCycles h x.stream < cycles then s
    else
      match s.decoded h x with
      | none => s.place h x.id .DIM_IMPLAUSIBLE
      | some y =>
        (s.modSample h x.id fun _ => { y with st := .decoded, decoder := none, data := [], held := 0 }).modStreamSt h x.stream
          fun t => { t with times := (t.times ++ [cycles]).drop (t.times.length + 1 - 32) }

/-- DECODE_BUDGET_EXPIRY: the decoder is free, and the sample is a DECODE_OVERRUN placeholder (R296). -/
def State.decodeExpiry (s : State) (h d : Nat) : State :=
  match s.inDecoder h d with
  | none => s
  | some x =>
    if x.decodeSince * 800 + s.budgetCycles h x.stream ≤ s.now * 800 then s.place h x.id .DECODE_OVERRUN else s

/-! ### The pixel pipeline and the reorder buffer (R290, R297, R303) -/

/-- An uncorrectable error in the intake: the sample is LOST, and the fault manager hears of it (R303). -/
def State.intakeError (s : State) (h u : Nat) : State :=
  let s1 := (s.raise .SIN h 1 u).askTest (38 + h) 1
  match s1.frontSample h u with
  | some x => (s1.modSample h x.id fun x => { x with hwError := x.kind == .DATA }).place h x.id .LOST
  | none => s1

/-- The planes of a raw sample; those of a JPEG come from its decoder. -/
def State.rawPlanes (s : State) (h : Nat) (x : Sample) : Sample :=
  let c := s.pipeCfg h x.stream
  if x.st = .ready then
    { x with planes := (if c.fmt = 5 then c.yuv x.width x.lines else c.raw x.width x.lines).map (·.v) }
  else x

/-- A sample whose planes or points can be formed: a raw one that is complete, or a decoded one. -/
def State.pipeReady (s : State) (h : Nat) (x : Sample) : Bool :=
  x.kind == .DATA && x.assigned && !x.sent && (x.st == .decoded || (x.st == .ready && !s.buffered h x.stream)) &&
  s.setTurn h x.stream x.set

/-- The prism's point store keeps the last two sweeps of each point stream (R334). -/
def State.storeSweep (s : State) (h : Nat) (x : Sample) : State :=
  if s.streamFmt h x.stream ≠ 0x20 ∨ x.stream < 8 then s
  else
    let old := s.aln.store.filter fun w => w.hub == h && w.stream == x.stream
    let rest := s.aln.store.filter fun w => !(w.hub == h && w.stream == x.stream)
    let s1 := s.setReg (ra .PRM_L_POINTS h (x.stream - 8)) (word x.points.length)
    { s1 with aln := { s1.aln with
        store := rest ++ old.drop (old.length - 1) ++ [{ hub := h, stream := x.stream, id := x.id, points := x.points }] } }

/-- PIXEL_PIPELINE: the oldest sample of a stream becomes tiles for the frames of its set. A sample of no set sends nothing. -/
def State.pixelPipeline (s : State) (h u : Nat) (hw : IntakeHw) : State :=
  if ¬ s.intakeRuns h then s
  else if hw = .ue then s.intakeError h u
  else
    let s1 := if hw = .ce then (s.satReg (ra .SIN_CE_COUNT h)).raise .SIN h 0 u else s
    match s1.frontSample h u with
    | none => s1
    | some x =>
      if s1.pipeReady h x then
        ((s1.sendSample h (s1.rawPlanes h x)).storeSweep h x).modSample h x.id fun x =>
          { x with st := .decoded, sent := true, lines := [], planes := [], points := [] }
      else s1

/-- REORDER_RELEASE: the oldest sample of a stream leaves once its last tile has entered the network, or, as a placeholder, with
fill tiles (R290, R292, R307). -/
def State.reorderRelease (s : State) (h u : Nat) : State :=
  match s.frontSample h u with
  | none => s
  | some x =>
    let drop (s : State) : State := s.modIntake h fun k => { k with samples := k.samples.filter (fun y => y.id != x.id) }
    if ¬ x.assigned then s
    else if x.kind = .DATA then
      if x.sent ∧ ¬ s.tilesWait h u x.frames then drop ((s.reportEnd h x .DATA).endLast h x.id) else s
    else if x.st = .done ∧ s.setTurn h u x.set then drop (s.fillTiles h u x.frames)
    else s

/-! ### Streams (R291, R308) -/

/-- End every sample in flight of a stream as LOST. -/
def State.loseSamples (s : State) (h u : Nat) : State :=
  (s.samplesOf h u).foldl (fun s x =>
    (s.endWait h x.id).place h x.id .LOST) s

/-- STREAM_SILENCE: no sample has begun for SIN_S_SILENCE ms, once per episode. -/
def State.streamSilence (s : State) (h u : Nat) : State :=
  let t := s.stream h u
  if s.intakeRuns h ∧ s.fromPort h u ∧ ¬ t.silent ∧ t.lastBegin + 1000 * (s.sinReg h .SIN_S_SILENCE u).toNat ≤ s.now then
    let s1 := match s.openSample h u with
      | some x => (s.endWait h x.id).place h x.id .LOST
      | none => s
    ((s1.modStreamSt h u fun t => { t with silent := true }).log .STREAM_SILENT (4 + h) [packageStream h u]).raise .SIN h 6 u
  else s

/-- Units of the input buffer that the enabled streams of a hub hold. -/
def State.bufUnits (s : State) (h : Nat) : Nat :=
  (((List.range 12).filter (s.streamOn h)).map fun u => s.sinField h .SIN_S_BUF u 8 0).foldl (· + ·) 0

/-- STREAM_ENABLE: refused with bind_cfg when the shares would exceed 256 units (R291). -/
def State.streamEnable (s : State) (h u : Nat) (v : Word) : State :=
  let a := ra .SIN_S_CFG h u
  s.rwl h a fun s =>
    if s.streamOn h u then s.putReg a v
    else if u < 12 ∧ 256 < s.bufUnits h + s.sinField h .SIN_S_BUF u 8 0 then (s.putReg a (v &&& 0x7FFFFFFF)).raise .SIN h 7 u
    else (s.putReg a v).modStreamSt h u fun t => { t with next := 0, silent := false, lastBegin := s.now }

/-- STREAM_DISABLE (R308). -/
def State.streamDisable (s : State) (h u : Nat) (v : Word) : State :=
  let a := ra .SIN_S_CFG h u
  s.rwl h a fun s => (s.putReg a v).loseSamples h u

/-- A write to SIN_S_CFG by its en bit. -/
def State.writeStream (s : State) (h u : Nat) (v : Word) : State :=
  if v.getLsbD 31 then s.streamEnable h u v else s.streamDisable h u v

/-! ### Bindings (R306, R309) -/

/-- A binding whose own registers are refused (R309): no regions, a zero size, or a value out of its range. -/
def State.bindingBad (s : State) (h : Nat) (x : Binding) : Bool :=
  (x.spotEn && x.slots == 0) || x.baseW == 0 || x.baseH == 0 || x.band == 0 || 2048 < x.baseW || 4096 < x.baseH || 1024 < x.band ||
  11 < x.stream || (if s.streamFmt h x.stream = 0x20 then x.fmt != 9 else !([2, 5, 7, 8].contains x.fmt))

/-- A write to SIN_B_CFG: an enable checks the edges when its graph is loaded (R306). -/
def State.writeBinding (s : State) (h b : Nat) (v : Word) : State :=
  let a := ra .SIN_B_CFG h b
  s.rwl h a fun s =>
    if ¬ v.getLsbD 31 then s.putReg a v
    else
      let x := s.bindingOf h b (maskReg a v)
      let badEdge : Bool := match s.graph? x.graph with
        | some gr => (s.bindingNeeds h x).any fun n => n.bad gr.bundle
        | none => false
      if s.bindingBad h x ∨ badEdge then (s.putReg a (v &&& 0x7FFFFFFF)).raise .SIN h 7 x.stream else s.putReg a v

/-! ### The commands -/

/-- TENSOR_PUT_SAMPLE (R259). -/
def execTensorPutSample (link : Fin 2) (sq : Fin 64) (late : List Nat) (s : State) : Host.Outcome State Fault Refusal :=
  .next (match s.front link sq with
    | some p => if p.type = 3 ∧ leAt p.header 16 1 = 1 then s.putSample p late else s
    | none => s)
/-- CSI2_FRAME_START (R280). -/
def execCsi2FrameStart (hub : Fin 2) (port : Fin 4) (vc : Fin 32) (ecc : EccHw) (late : List Nat) (s : State) :
    Host.Outcome State Fault Refusal := .next (s.csiStart hub port vc ecc late)
/-- CSI2_LONG_PACKET (R280). -/
def execCsi2LongPacket (hub : Fin 2) (port : Fin 4) (vc : Fin 32) (dataType : Nat) (payload : List Byte) (ecc : EccHw)
    (crcOk : Bool) (s : State) : Host.Outcome State Fault Refusal := .next (s.csiLong hub port vc dataType payload ecc crcOk)
/-- CSI2_FRAME_END (R280). -/
def execCsi2FrameEnd (hub : Fin 2) (port : Fin 4) (vc : Fin 32) (ecc : EccHw) (s : State) : Host.Outcome State Fault Refusal :=
  .next (s.csiEnd hub port vc ecc)
/-- SENSOR_ETH_FRAME (R281). -/
def execSensorEthFrame (hub : Fin 2) (port : Fin 2) (frame : List Byte) (late : List Nat) (s : State) :
    Host.Outcome State Fault Refusal := .next (s.ethFrame hub port frame late)
/-- SENSOR_CAN_FRAME (R285): an identifier of 11 or 29 bits and at most 64 data bytes. -/
def execSensorCanFrame (hub : Fin 2) (port : Fin 2) (id : Nat) (ext fd brs esi : Bool) (payload : List Byte) (s : State) :
    Host.Outcome State Fault Refusal :=
  .next (s.canFrame hub port { arrival := s.arrival hub, id := id % 2 ^ (if ext then 29 else 11), ext := ext, fd := fd, brs := brs
                               esi := esi, data := payload.take (if fd then 64 else 8) })
/-- CAN_BUS_OFF_RECOVERY (R285). -/
def execCanBusOffRecovery (hub : Fin 2) (port : Fin 2) (s : State) : Host.Outcome State Fault Refusal :=
  .next (s.canRecover hub port)
/-- DECODE_START (R289). -/
def execDecodeStart (hub : Fin 2) (s : State) : Host.Outcome State Fault Refusal := .next (s.decodeStart hub)
/-- DECODE_DONE (R296). -/
def execDecodeDone (hub : Fin 2) (decoder : Fin 8) (cycles : Nat) (s : State) : Host.Outcome State Fault Refusal :=
  .next (s.decodeDone hub decoder cycles)
/-- DECODE_BUDGET_EXPIRY (R296). -/
def execDecodeBudgetExpiry (hub : Fin 2) (decoder : Fin 8) (s : State) : Host.Outcome State Fault Refusal :=
  .next (s.decodeExpiry hub decoder)
/-- PIXEL_PIPELINE (R297). -/
def execPixelPipeline (hub : Fin 2) (stream : Fin 12) (hw : IntakeHw) (s : State) : Host.Outcome State Fault Refusal :=
  .next (s.pixelPipeline hub stream hw)
/-- REORDER_RELEASE (R290). -/
def execReorderRelease (hub : Fin 2) (stream : Fin 12) (s : State) : Host.Outcome State Fault Refusal :=
  .next (s.reorderRelease hub stream)
/-- STREAM_SILENCE (R308). -/
def execStreamSilence (hub : Fin 2) (stream : Fin 12) (s : State) : Host.Outcome State Fault Refusal :=
  .next (s.streamSilence hub stream)
/-- STREAM_ENABLE (R291): a write to SIN_S_CFG with en set. -/
def execStreamEnable (hub : Fin 2) (stream : Fin 14) (value : BitVec 32) (s : State) : Host.Outcome State Fault Refusal :=
  .next (s.streamEnable hub stream (value ||| 0x80000000))
/-- STREAM_DISABLE (R308): a write to SIN_S_CFG with en clear. -/
def execStreamDisable (hub : Fin 2) (stream : Fin 14) (value : BitVec 32) (s : State) : Host.Outcome State Fault Refusal :=
  .next (s.streamDisable hub stream (value &&& 0x7FFFFFFF))
/-- BINDING_ENABLE (R306): a write to SIN_B_CFG with en set. -/
def execBindingEnable (hub : Fin 2) (binding : Fin 16) (value : BitVec 32) (s : State) : Host.Outcome State Fault Refusal :=
  .next (s.writeBinding hub binding (value ||| 0x80000000))

end Sys2Proof.Machine
end

