-- ==== Sys2Proof/Machine/Prism.lean ====
section
/-! DEFINITION. The prism (R330 … R336): calibration, motion, projection, the points and camera planes of a sweep, and the bird's-eye
table; and its enables (R334, R345). -/

namespace Sys2Proof.Machine

/-! ### Calibration (R330, R345) -/

/-- A camera of the prism: its model, size, extrinsics, intrinsics, distortion and limit. -/
structure Camera where
  en : Bool
  fisheye : Bool
  width : Nat
  height : Nat
  ext : List F32
  intr : List F32
  d : List F32
  limit : F32
  deriving DecidableEq, Repr

/-- Camera `c` of a hub's prism, with its CFG register as given. -/
def State.cameraOf (s : State) (h c : Nat) (cfg : Word) : Camera :=
  let sz := s.reg (ra .PRM_C_SIZE h c)
  { en := cfg.getLsbD 31, fisheye := cfg.getLsbD 30, width := bits sz 12 0, height := bits sz 28 16
    ext := (List.range 12).map fun i => s.reg (ra .PRM_C_EXT h c i)
    intr := (List.range 4).map fun i => s.reg (ra .PRM_C_INTR h c i)
    d := (List.range 8).map fun i => s.reg (ra .PRM_C_D h c i), limit := s.reg (ra .PRM_C_LIMIT h c) }

/-- Camera `c` of a hub's prism. -/
def State.camera (s : State) (h c : Nat) : Camera := s.cameraOf h c (s.reg (ra .PRM_C_CFG h c))

/-- The package stream of a camera index (R330). -/
def cameraStream (c : Nat) : Nat := if c < 8 then c else c + 4

/-- A point in three coordinates. -/
abbrev Point3 := F32 × F32 × F32

/-- E × [p; 1], row by row as ((e0 p0 + e1 p1) + e2 p2) + e3 (R330). -/
def transform (e : List F32) (p : Point3) : Point3 :=
  let row (r : Nat) : F32 :=
    fadd (fadd (fadd (fmul (nth 0 e (4 * r)) p.1) (fmul (nth 0 e (4 * r + 1)) p.2.1)) (fmul (nth 0 e (4 * r + 2)) p.2.2))
      (nth 0 e (4 * r + 3))
  (row 0, row 1, row 2)

/-- An integer as FP32. -/
def f32Int (v : Int) : F32 := roundF32 (.ofInt v)
/-- Two and one half. -/
def f32Two : F32 := 0x40000000#32
/-- One half. -/
def f32Half : F32 := 0x3F000000#32

/-! ### Projection (R331) -/

/-- The distorted pinhole coordinates. -/
def pinhole (c : Camera) (p : Point3) : F32 × F32 :=
  let k (i : Nat) : F32 := nth 0 c.d i
  let x := fdiv p.1 p.2.2
  let y := fdiv p.2.1 p.2.2
  let r2 := fadd (fmul x x) (fmul y y)
  let num := fadd f32One (fmul r2 (fadd (k 0) (fmul r2 (fadd (k 1) (fmul r2 (k 2))))))
  let den := fadd f32One (fmul r2 (fadd (k 3) (fmul r2 (fadd (k 4) (fmul r2 (k 5))))))
  let rad := fdiv num den
  let xd := fadd (fadd (fmul x rad) (fmul (fmul (fmul f32Two (k 6)) x) y)) (fmul (k 7) (fadd r2 (fmul (fmul f32Two x) x)))
  let yd := fadd (fadd (fmul y rad) (fmul (k 6) (fadd r2 (fmul (fmul f32Two y) y)))) (fmul (fmul (fmul f32Two (k 7)) x) y)
  (xd, yd)

/-- The distorted fisheye coordinates: none beyond theta_max. -/
def fisheye (c : Camera) (p : Point3) : Option (F32 × F32) :=
  let k (i : Nat) : F32 := nth 0 c.d i
  let a := fsqrt (fadd (fmul p.1 p.1) (fmul p.2.1 p.2.1))
  let th := Config.atan2F32 a p.2.2
  if flt c.limit th then none
  else
    let t2 := fmul th th
    let thd := fmul th (fadd f32One (fmul t2 (fadd (k 0) (fmul t2 (fadd (k 1) (fmul t2 (fadd (k 2) (fmul t2 (k 3)))))))))
    if a.toNat % 2 ^ 31 = 0 then some (0, 0)
    else some (fdiv (fmul thd p.1) a, fdiv (fmul thd p.2.1) a)

/-- The image point of a camera-frame point: none when it is invalid (R331). -/
def project (c : Camera) (p : Point3) : Option (F32 × F32) :=
  let d : Option (F32 × F32) := if c.fisheye then fisheye c p
    else if fle p.2.2 c.limit then none else some (pinhole c p)
  match d with
  | none => none
  | some (xd, yd) =>
    let u := fadd (fmul (nth 0 c.intr 0) xd) (nth 0 c.intr 2)
    let v := fadd (fmul (nth 0 c.intr 1) yd) (nth 0 c.intr 3)
    if flt u 0 ∨ fle (f32Int c.width) u ∨ flt v 0 ∨ fle (f32Int c.height) v then none else some (u, v)

/-! ### Motion (R333) -/

/-- Nanoseconds as seconds or microseconds in FP32. -/
def f32Ns (ns : Int) (unit : Nat) : F32 := fdiv (f32Int ns) (f32Int unit)

/-- Move a vehicle-frame point by `ns` nanoseconds of the set's motion. -/
def moveBy (w v : F32) (ns : Int) (p : Point3) : Point3 :=
  let dt := f32Ns ns 1000000000
  let psi := fmul w dt
  let d := fmul v dt
  let hp := fmul psi f32Half
  let qx := fsub p.1 (fmul d (Config.cosF32 hp))
  let qy := fsub p.2.1 (fmul d (Config.sinF32 hp))
  let c := Config.cosF32 psi
  let s := Config.sinF32 psi
  (fadd (fmul c qx) (fmul s qy), fadd (fmul (s ^^^ 0x80000000#32) qx) (fmul c qy), p.2.2)

/-! ### What a set gives the prism -/

/-- A closed set as the prism sees it: motion, slot time, frames, and the mapped stamps of its present members. -/
structure PrismSet where
  yaw : F32
  speed : F32
  tau : Int
  frames : List (Nat × Nat)
  /-- package stream, sample, mapped stamp -/
  present : List (Nat × Nat × Int)
  deriving DecidableEq, Repr

/-- The mapped stamp of a camera that is present and enabled. -/
def PrismSet.cameraAt (ps : PrismSet) (c : Nat) : Option Int :=
  (ps.present.find? fun x => x.1 == cameraStream c).map (·.2.2)

/-- The cameras of a mask in its order. -/
def maskBits (m n : Nat) : List Nat := (List.range n).filter (bitN m)

/-- The projection of a vehicle-frame point of time `t` into camera `c` at its mapped stamp: u, v and camera Z. -/
def PrismSet.see (ps : PrismSet) (c : Camera) (p : Point3) (ns : Int) : Option (F32 × F32 × F32) :=
  let q := transform c.ext (moveBy ps.yaw ps.speed ns p)
  (project c q).map fun uv => (uv.1, uv.2, q.2.2)

/-! ### Points and camera planes (R334) -/

/-- A point's time in ns after the sweep's mapped stamp: 0 without comp_en. -/
def pointNs (comp : Bool) (p : SweepPoint) : Int := if comp then p.ns else 0

/-- A point in the vehicle frame at its own time. -/
def vehiclePoint (e : List F32) (p : SweepPoint) : Point3 := transform e (nth 0 p.row 0, nth 0 p.row 1, nth 0 p.row 2)

/-- A row of the points edge. -/
def PrismSet.pointRow (ps : PrismSet) (e : List F32) (comp : Bool) (m : Int) (p : SweepPoint) : List F32 :=
  let t := m + pointNs comp p
  let q := moveBy ps.yaw ps.speed (ps.tau - t) (vehiclePoint e p)
  [q.1, q.2.1, q.2.2, nth 0 p.row 3, f32Ns (t - ps.tau) 1000, nth 0 p.row 5, f32One, 0]

/-- A row of a camera plane: u, v, Z and valid; an invalid point's row is 0 (log 26). -/
def PrismSet.planeRow (ps : PrismSet) (e : List F32) (comp : Bool) (m : Int) (c : Camera) (tc : Int) (p : SweepPoint) : List F32 :=
  match ps.see c (vehiclePoint e p) (tc - (m + pointNs comp p)) with
  | some (u, v, z) => [u, v, z, f32One]
  | none => [0, 0, 0, 0]

/-- The camera-plane tiles: camera in mask order, then tile; fill tiles for a camera that is missing or not enabled. -/
def State.planeTiles (s : State) (h : Nat) (ps : PrismSet) (e : List F32) (comp : Bool) (m : Int) (n : Nat) (cams : List Nat)
    (pts : List SweepPoint) : TileData :=
  cams.flatMap fun c =>
    let cam := s.camera h c
    match ps.cameraAt c, cam.en with
    | some tc, true => pointTiles n 4 (pts.map (ps.planeRow e comp m cam tc))
    | _, _ => fillData (pointShapes n 4)

/-- The outputs of one point stream for a set. -/
def State.prismPoints (s : State) (h l : Nat) (ps : PrismSet) (poisoned : Bool) : State :=
  let cfg := s.reg (ra .PRM_L_CFG h l)
  let g := bits cfg 29 24
  match cfg.getLsbD 31, ps.frames.find? (fun f => f.1 == g) with
  | true, some f =>
    let e := (List.range 12).map fun i => s.reg (ra .PRM_L_EXT h l i)
    let edges := s.reg (ra .PRM_L_EDGES h l)
    let mx := s.streamMax h (prismStream l)
    let n := mx.1 * mx.2
    let cams := maskBits (bits cfg 15 0) 16
    let live := (ps.present.find? fun x => x.1 == packageStream h (prismStream l)).bind fun x =>
      (s.aln.store.find? fun w => w.hub == h && w.stream == prismStream l && w.id == x.2.1).map fun w => (x.2.2, w.points)
    let comp := cfg.getLsbD 30
    let (pt, ct, cnt) : TileData × TileData × Nat := match live with
      | some (m, pts) =>
        (pointTiles n 8 (pts.map (ps.pointRow e comp m)), s.planeTiles h ps e comp m n cams pts,
         pts.length * (cams.filter fun c => (ps.cameraAt c).isSome && (s.camera h c).en).length)
      | none => (fillData (pointShapes n 8), fillData (cams.flatMap fun _ => pointShapes n 4), 0)
    let s1 := if bits edges 15 0 = 0xFFFF then s else s.queueTiles g (bits edges 15 0) f.2 pt poisoned
    let s2 := if bits edges 31 16 = 0xFFFF then s1 else s1.queueTiles g (bits edges 31 16) f.2 ct poisoned
    s2.wrapReg (ra .PRM_PROJECTIONS h) (if bits edges 31 16 = 0xFFFF then 0 else cnt)
  | _, _ => s

/-! ### The bird's-eye table (R335) -/

/-- One cell: the two lowest-indexed cameras that see it and how many do. -/
def bevCell (seen : List (Nat × F32 × F32 × F32)) : List F32 :=
  let cam (i : Nat) : List F32 := match seen[i]? with
    | some (c, u, v, _) => [f32Int c, u, v]
    | none => [f32Int (-1), 0, 0]
  cam 0 ++ cam 1 ++ [f32Int seen.length, 0]

/-- The bird's-eye table of a hub for a set. -/
def State.prismBev (s : State) (h : Nat) (ps : PrismSet) (poisoned : Bool) : State :=
  let cfg := s.reg (ra .PRM_CFG h)
  let g := bits cfg 29 24
  match cfg.getLsbD 31, ps.frames.find? (fun f => f.1 == g) with
  | true, some f =>
    let sz := s.reg (ra .PRM_BEV_SIZE h)
    let wb := bits sz 10 0
    let hb := bits sz 26 16
    let nz := bits cfg 18 16 + 1
    let cell := s.reg (ra .PRM_BEV_CELL h)
    let at_ (o : F32) (i : Nat) : F32 := fadd o (fmul (fadd (f32Int i) f32Half) cell)
    let cams := (maskBits (s.field (ra .PRM_BEV_CAMS h) 15 0) 16).filterMap fun c =>
      let cam := s.camera h c
      if cam.en then (ps.cameraAt c).map fun t => (c, cam, t) else none
    let row (z : F32) (j : Nat) : List Byte := (List.range wb).flatMap fun i =>
      let p : Point3 := (at_ (s.reg (ra .PRM_BEV_ORIGIN_X h)) i, at_ (s.reg (ra .PRM_BEV_ORIGIN_Y h)) j, z)
      let seen := cams.filterMap fun c => (ps.see c.2.1 p (c.2.2 - ps.tau)).map fun u => (c.1, u)
      packCell (bevCell seen)
    let ts : TileData := (List.range nz).flatMap fun k => (List.range hb).map fun j =>
      (({ fmt := 9, rows := wb, cols := 8 } : TileShape), row (s.reg (ra .PRM_Z h 0 k)) j)
    (s.queueTiles g (s.field (ra .PRM_BEV_EDGE h) 15 0) f.2 ts poisoned).wrapReg (ra .PRM_PROJECTIONS h) (wb * hb * nz * cams.length)
  | _, _ => s
where
  /-- A cell's row of 8 FP32 values, padded to its line. -/
  packCell (l : List F32) : List Byte := packRow .fp32 (l.map (·.toNat))

/-- PRISM_RUN: both hubs' prisms work on a set at its close; an error that the store cannot correct poisons the tiles (R336). -/
def State.prismRun (s : State) (ps : PrismSet) (hw : IntakeHw) : State :=
  [0, 1].foldl (fun s h =>
    if ¬ s.intakeRuns h then s
    else
      let s1 := match hw with
        | .ok => s
        | .ce => s.raise .PRM h 0
        | .ue => (s.raise .PRM h 1).askTest (38 + h) 1
      ((List.range 4).foldl (fun s l => s.prismPoints h l ps (hw == .ue)) s1).prismBev h ps (hw == .ue)) s

/-! ### Enables (R334, R345) -/

/-- R345: a fisheye camera with a non-zero D4 … D7. -/
def Camera.bad (c : Camera) : Bool := c.fisheye && (c.d.drop 4).any (· != 0)

/-- The points that the enabled point streams of a hub may hold, with stream `l` counted (R334). -/
def State.pointSum (s : State) (h l : Nat) : Nat :=
  (((List.range 4).filter fun i => i == l || (s.reg (ra .PRM_L_CFG h i)).getLsbD 31).map fun i =>
    let m := s.streamMax h (prismStream i)
    m.1 * m.2).foldl (· + ·) 0

/-- An edge that a loaded graph does not provide as R306 asks. -/
def State.needBad (s : State) (n : EdgeNeed) : Bool := match s.graph? n.graph with
  | some gr => n.bad gr.bundle
  | none => false

/-- A write to one of the prism's enables: refused with cfg, the unit stays disabled. -/
def State.prismEnable (s : State) (h : Nat) (a : RegAddr) (v : Word) (bad : State → Bool) : State :=
  s.rwl h a fun s =>
    if v.getLsbD 31 ∧ bad s then (s.putReg a (v &&& 0x7FFFFFFF)).raise .PRM h 2 else s.putReg a v

/-- A write to PRM_C_CFG. -/
def State.writeCamera (s : State) (h c : Nat) (v : Word) : State :=
  s.prismEnable h (ra .PRM_C_CFG h c) v fun s => (s.cameraOf h c v).bad

/-- A write to PRM_L_CFG. -/
def State.writePoints (s : State) (h l : Nat) (v : Word) : State :=
  let a := ra .PRM_L_CFG h l
  s.prismEnable h a v fun s => 262144 < s.pointSum h l || (s.pointNeeds h l (maskReg a v)).any s.needBad

/-- A write to PRM_CFG: sizes are 1 … 1,024. -/
def State.writeBev (s : State) (h : Nat) (v : Word) : State :=
  let a := ra .PRM_CFG h
  s.prismEnable h a v fun s =>
    let sz := s.reg (ra .PRM_BEV_SIZE h)
    bits sz 10 0 == 0 || 1024 < bits sz 10 0 || bits sz 26 16 == 0 || 1024 < bits sz 26 16 || s.needBad (s.bevNeed h (maskReg a v))

/-- PRISM_STREAM_ENABLE (R345). -/
def execPrismStreamEnable (hub : Fin 2) (unit : PrismUnit) (value : BitVec 32) (s : State) : Host.Outcome State Fault Refusal :=
  .next (match unit with
    | .camera c => s.writeCamera hub c (value ||| 0x80000000)
    | .points l => s.writePoints hub l (value ||| 0x80000000)
    | .bev => s.writeBev hub (value ||| 0x80000000))

end Sys2Proof.Machine
end

