-- ==== Sys2Proof/Machine/Align.lean ====
section
/-! DEFINITION. Frame sets (R310 … R332, R342, R343): groups, fits and references, the assignment of samples to sets, and the closing
of a set with its record, missing mask, fill tiles and prism work. -/

namespace Sys2Proof.Machine

/-! ### Groups and streams (R310 … R313) -/

/-- The hub and hub-local stream of a member stream 0 … 23 (R277). -/
def memberPlace (ps : Nat) : Nat × Nat := (ps / 12, ps % 12)

/-- A register of a set group; both hubs' copies are equal (R313), and the leading aligner reads its own. -/
def State.groupReg (s : State) (r : Reg) (g : Nat) : Word := s.reg (ra r s.mgt.active g)
/-- A group is enabled. -/
def State.groupOn (s : State) (g : Nat) : Bool := (s.groupReg .ALN_G_CFG g).getLsbD 31
/-- The member streams of a group. -/
def State.members (s : State) (g : Nat) : List Nat := maskBits (bits (s.groupReg .ALN_G_MEMBERS g) 23 0) 24
/-- The enabled group that a stream is a member of. -/
def State.groupOf (s : State) (ps : Nat) : Option Nat := (List.range 8).find? fun g => s.groupOn g && (s.members g).contains ps

/-- A group's state. -/
def State.group (s : State) (g : Nat) : GroupSt := tblGet {} s.aln.groups g
/-- Change a group's state. -/
def State.modGroup (s : State) (g : Nat) (f : GroupSt → GroupSt) : State :=
  { s with aln := { s.aln with groups := tblMod {} s.aln.groups g f } }
/-- A stream's alignment. A member of an enabled group is at least ACQUIRING (R326). -/
def State.aln? (s : State) (ps : Nat) : AlignStream :=
  let a := tblGet {} s.aln.streams ps
  if (s.groupOf ps).isNone then { a with st := .OFF } else if a.st = .OFF then { a with st := .ACQUIRING } else a
/-- Change a stream's alignment. -/
def State.modAln (s : State) (ps : Nat) (f : AlignStream → AlignStream) : State :=
  { s with aln := { s.aln with streams := tblSet {} s.aln.streams ps (f (s.aln? ps)) } }
/-- A register of a stream of its own hub's aligner. -/
def State.alnReg (s : State) (r : Reg) (ps : Nat) : Word := s.reg (ra r (memberPlace ps).1 (memberPlace ps).2)

/-- The nominal period in ns (R318). -/
def State.nominal (s : State) (g : Nat) : Nat := (s.groupReg .ALN_G_PERIOD g).toNat * 1000

/-- P as a quotient: the sum of the last reference intervals and their number, or the nominal period (R318). -/
def State.period (s : State) (g : Nat) : Int × Nat :=
  let l := (s.group g).intervals
  let t := l.foldl (· + ·) 0
  if l = [] ∨ t ≤ 0 then ((s.nominal g : Nat), 1) else (t, l.length)

/-- The samples per set period. -/
def State.ratio (s : State) (ps : Nat) : Nat := max 1 (bits (s.alnReg .ALN_S_CFG ps) 27 24)
/-- SENSOR mode. -/
def State.sensorMode (s : State) (ps : Nat) : Bool := (s.alnReg .ALN_S_CFG ps).getLsbD 30

/-! ### Fits (R314 … R317) -/

/-- The rate of a fit of 8 or more pairs, with the means that it is taken about (R315). -/
structure FitRate where
  rate : FVal
  mx : FVal
  mt : FVal
  deriving DecidableEq, Repr

/-- The regression of R315 in FP64, sums in ascending order. -/
def fitRate (ps : List (Int × Int)) : FitRate :=
  let (x0, t0) := ps.headD (0, 0)
  let n : FVal := .fin false ps.length 0
  let dx := ps.map fun p => r64 (.ofInt (p.1 - x0))
  let dt := ps.map fun p => r64 (.ofInt (p.2 - t0))
  let sum (l : List FVal) : FVal := l.foldl (fun a b => r64 (a.add b)) (.fin false 0 0)
  let mx := div64 (sum dx) n
  let mt := div64 (sum dt) n
  let ex := dx.map fun v => r64 (v.add mx.neg)
  let et := dt.map fun v => r64 (v.add mt.neg)
  { rate := div64 (sum (List.zipWith (fun a b => r64 (a.mul b)) ex et)) (sum (ex.map fun v => r64 (v.mul v))), mx := mx, mt := mt }

/-- The mapped stamp of an own time by a fit: none without pairs (R315). -/
def fitMap (ps : List (Int × Int)) (x : Int) : Option Int :=
  match ps.getLast? with
  | none => none
  | some (xl, tl) =>
    if ps.length < 8 then some (tl + (x - xl))
    else
      let f := fitRate ps
      let (x0, t0) := ps.headD (0, 0)
      some (t0 + (r64 (f.mt.add (r64 (f.rate.mul (r64 ((r64 (.ofInt (x - x0))).add f.mx.neg)))))).toIntRNE)

/-- R316: a rate outside 0.998 … 1.002, or none. -/
def rateBad (ps : List (Int × Int)) : Bool :=
  if ps.length < 8 then false
  else
    let r := (fitRate ps).rate
    let lo := div64 (.fin false 998 0) (.fin false 1000 0)
    let hi := div64 (.fin false 1002 0) (.fin false 1000 0)
    r == .nan || r.lt lo || hi.lt r

/-- The own time by the arrival stamp, in ns (R314). -/
def Member.arrivalTime (m : Member) : Int := (m.arrival * 10 : Nat)
/-- The own time by the sensor stamp: none when it is 0. -/
def State.sensorTime (s : State) (m : Member) : Option Int :=
  if m.stamp = 0 then none else some ((m.stamp * s.stampUnit (memberPlace m.stream).1 (memberPlace m.stream).2 : Nat) : Int)

/-- The mapped stamp of a sample: the first reference maps with rate 1 and offset 0 (R315, R317). -/
def State.mapped (s : State) (m : Member) : Option Int :=
  let a := s.aln? m.stream
  let (fit, x) : List (Int × Int) × Int := match s.sensorMode m.stream, s.sensorTime m with
    | true, some x => (a.sensorFit, x)
    | _, _ => (a.arrivalFit, m.arrivalTime)
  if a.identity ∧ fit = [] then some x else fitMap fit x

/-- The fit in use: the sensor fit in SENSOR mode. -/
def State.fitInUse (s : State) (ps : Nat) : List (Int × Int) :=
  if s.sensorMode ps then (s.aln? ps).sensorFit else (s.aln? ps).arrivalFit

/-- Nanoseconds as whole microseconds, toward zero (log 27). -/
def usOf (ns : Int) : Int := ns.tdiv 1000
/-- An INT32 that saturates. -/
def sat32 (v : Int) : Int := max (-2147483648) (min 2147483647 v)
/-- An INT32 as four bytes. -/
def le32 (v : Int) : List Byte := toLe 4 (wrapTo 32 v)

/-! ### Sets -/

/-- A set whose frames have not all been admitted (R320). -/
def State.setPending (s : State) (g : Nat) (st : FrameSet) : Bool :=
  !st.closed || s.graphs.requests.any fun r => r.setFrame.isSome && r.setGroup == g && r.setNum == st.num

/-- The sets of a group that it holds (R320). -/
def State.pendingSets (s : State) (g : Nat) : List FrameSet := (s.group g).sets.filter (s.setPending g)

/-- Change a set. -/
def State.modSet (s : State) (g k : Nat) (f : FrameSet → FrameSet) : State :=
  s.modGroup g fun x => { x with sets := mapWhere (fun st => st.num == k) f x.sets }
/-- A set. -/
def State.set? (s : State) (g k : Nat) : Option FrameSet := (s.group g).sets.find? fun st => st.num == k
/-- Change the part of a stream in a set. -/
def State.modMember (s : State) (g k ps : Nat) (f : Member → Member) : State :=
  s.modSet g k fun st => { st with members := mapWhere (fun m => m.stream == ps) f st.members }

/-- A stream takes part in set `k`: ADMITTED from it on, or the reference (R326). -/
def State.admitted (s : State) (ps k : Nat) : Bool :=
  let a := s.aln? ps
  a.st == .REFERENCE || (a.st == .ADMITTED && a.admitFrom ≤ k)

/-! ### The reference (R311, R327, R328) -/

/-- The candidates of a group in the order of its places. -/
def State.candidates (s : State) (g : Nat) : List Nat :=
  let v := (s.groupReg .ALN_G_REF_ORDER g).toNat
  let ms := s.members g
  ((List.range 8).map fun i => v / 16 ^ i % 16).takeWhile (· != 15) |>.filterMap fun p => ms[p]?

/-- The reference that R328 chooses: the admitted candidate in the highest place; the first place may still be ACQUIRING while the
group has had no reference. -/
def State.chooseRef (s : State) (g : Nat) : Option Nat :=
  let cs := s.candidates g
  let first := !(s.group g).hadRef
  cs.find? fun c =>
    let st := (s.aln? c).st
    st == .ADMITTED || st == .REFERENCE || (first && cs.head? == some c && st == .ACQUIRING)

/-- Settle the reference at the creation of a set (R317, R328): whether it changed. -/
def State.settleRef (s : State) (g : Nat) : State × Bool :=
  let grp := s.group g
  match s.chooseRef g with
  | none =>
    let s1 := s.modGroup g fun x => { x with noRef := true, ref := 0x1F }
    (if grp.noRef then s1 else s1.log .NO_REFERENCE (4 + s.mgt.active) [g], false)
  | some c =>
    if grp.hadRef ∧ grp.ref = c ∧ ¬ grp.noRef then (s, false)
    else
      let s0 := if grp.ref < 24 ∧ (s.aln? grp.ref).st = .REFERENCE ∧ grp.ref ≠ c then
        s.modAln grp.ref fun a => { a with st := .ADMITTED, frozen := false } else s
      let s1 := (s0.modAln c fun a => { a with st := .REFERENCE, frozen := true, identity := a.identity || !grp.hadRef }).modGroup g
        fun x => { x with ref := c, hadRef := true, noRef := false }
      if grp.hadRef then
        ((s1.log .REF_CHANGE (4 + s.mgt.active) [g, grp.ref, c]).satReg (ra .ALN_G_REF_CHANGES s.mgt.active g), true)
      else (s1, false)

/-! ### Drift (R316, R325 … R327) -/

/-- Enter ADRIFT: both fits are cleared; cause 1 departure, 2 rate, 3 memory error. -/
def State.goAdrift (s : State) (ps cause : Nat) (depart : Int) : State :=
  let (h, u) := memberPlace ps
  let s1 := s.modAln ps fun a =>
    { a with st := .ADRIFT, arrivalFit := [], sensorFit := [], frozen := false, identity := false, run := 0, cause := cause }
  ((s1.log .STREAM_ADRIFT (4 + h) [ps, wrapTo 32 (sat32 (usOf depart)), cause]).satReg (ra .ALN_S_ADRIFT h u)).raise .ALN h 2 ps

/-- A stream's sample is fill from here on (R327): its tiles that still wait become fill tiles, and none is made of its data. -/
def State.fillSample (s : State) (ps id : Nat) : State :=
  let (h, u) := memberPlace ps
  match s.sample? h id with
  | none => s
  | some x =>
    let s1 := (s.fillQueued x.frames (s.bindingEdges h u)).fillTiles h u x.frames
    s1.modSample h id fun x => { x with frames := [] }

/-- A consistent sample: the 16th in a row admits the stream from the next set on (R326). -/
def State.countConsistent (s : State) (g ps : Nat) : State :=
  s.modAln ps fun a =>
    let n := min 16 (a.run + 1)
    if n = 16 ∧ (a.st = .ACQUIRING ∨ a.st = .ADRIFT) then { a with run := n, st := .ADMITTED, admitFrom := (s.group g).nextSet }
    else { a with run := n }

/-- DEPARTURE_JUDGE: judge one member of a set against its slot time (R325). -/
def State.judge (s : State) (g k : Nat) (m : Member) : State :=
  match s.set? g k, s.mapped m with
  | some st, some t =>
    if m.judged then s
    else
      let d := t - st.tau
      let n := s.nominal g
      let r := s.ratio m.stream
      let s1 := (s.modAln m.stream fun a => { a with depart := sat32 (usOf d) }).modMember g k m.stream fun x =>
        { x with judged := true, mapped := some t, stamp := m.stamp }
      if (s.aln? m.stream).st = .REFERENCE then s1.modMember g k m.stream fun x => { x with consistent := true }
      else if n < d.natAbs * r then
        ((s1.goAdrift m.stream 1 d).modMember g k m.stream fun x => { x with drift := true, mapped := none }).fillSample m.stream m.id
      else if d.natAbs * 8 * r ≤ n then
        (s1.modMember g k m.stream fun x => { x with consistent := true }).countConsistent g m.stream
      else s1.modAln m.stream fun a => { a with run := 0 }
  | _, _ => s

/-- A member with the sensor stamp that its intake holds now. -/
def State.freshMember (s : State) (m : Member) : Member :=
  match s.sample? (memberPlace m.stream).1 m.id with
  | some x => { m with stamp := x.stamp }
  | none => m

/-- A camera's stamp that its embedded data has not brought yet (R280). -/
def State.stampDue (s : State) (m : Member) : Bool :=
  let (h, u) := memberPlace m.stream
  s.sensorMode m.stream && s.fromPort h u && u < 8 && (s.sinReg h .SIN_S_STAMP u).getLsbD 31 &&
  (match s.sample? h m.id with
   | some x => !x.embedded && x.st == .receiving && x.kind == .DATA
   | none => false)

/-- Judge every member whose stamp is known, once the slot time is (R325). -/
def State.judgeSet (s : State) (g k : Nat) (atClose : Bool) : State :=
  match s.set? g k with
  | none => s
  | some st =>
    if st.predicted ∧ ¬ atClose then s
    else st.members.foldl (fun s m =>
      let m := s.freshMember m
      if m.judged ∨ (s.stampDue m ∧ ¬ atClose) ∨ m.kind ≠ 0 then s else s.judge g k m) s

/-! ### Creating sets and assigning samples (R318 … R320) -/

/-- The frames of a new set: the next frame number of each loaded FRAME_SET graph of its group (R318). -/
def State.setFrames (s : State) (g : Nat) : List (Nat × Nat) :=
  (s.groupGraphs s.mgt.active g).filterMap fun gi => match s.graph? gi with
    | some gr => if gr.bundle.header.trigger = 1 ∧ gr.state ≠ .unloading then some (gi, gr.nextFrame) else none
    | none => none

/-- SET_CREATE: set `k` with its frame numbers, its reference and its predicted slot time. -/
def State.createSet (s : State) (g k : Nat) : State :=
  let (s1, changed) := s.settleRef g
  let fs := s1.setFrames g
  let (p, n) := s1.period g
  let grp := s1.group g
  let (tau, prev) : Int × Int := match grp.last with
    | some (j, t) => (t + p * ((k : Int) - j) / n, t)
    | none => (0, 0)
  let st : FrameSet := { num := k, frames := fs, tau := tau, ref := if grp.noRef then 0xFF else grp.ref, refChanged := changed
                         noRef := grp.noRef, dtPrev := prev, waitUs := (s1.groupReg .ALN_G_WAIT g).toNat }
  let s2 := fs.foldl (fun s f => s.modGraph f.1 fun gr => { gr with nextFrame := gr.nextFrame + 1 }) s1
  s2.modGroup g fun x =>
    { x with sets := x.sets.filter (s1.setPending g) ++ [st], nextSet := k + 1, last := some (k, tau), dropping := false }

/-- SET_DROPPED: a slot that the group may not create. -/
def State.dropSlot (s : State) (g k : Nat) : State :=
  let grp := s.group g
  let a := s.mgt.active
  let s1 := (s.modGroup g fun x => { x with dropping := true, nextSet := k + 1, dropped := (x.dropped ++ [k]).drop (x.dropped.length - 15) }).satReg
    (ra .ALN_G_DROPPED a g)
  let s2 := s1.raise .ALN a 3 g
  if grp.dropping then s2 else s2.log .SET_DROPPED (4 + a) [g, k]

/-- The intake hears that a sample belongs to no set: the run of its stream breaks (R319, R327). -/
def State.noSet (s : State) (ps id : Nat) (count : Option Reg) : State :=
  let (h, u) := memberPlace ps
  let s1 := s.modSample h id fun x => { x with assigned := true }
  match count with
  | some r => (s1.satReg (ra r h u)).modAln ps fun a => { a with run := 0 }
  | none => s1

/-- The slot time of a set whose reference sample has begun (R318). -/
def State.setTau (s : State) (g k : Nat) (m : Member) : State :=
  match s.set? g k, s.mapped m with
  | some st, some t =>
    if st.predicted ∧ st.ref = m.stream then
      (s.modSet g k fun st => { st with tau := t, predicted := false }).modGroup g fun x =>
        { x with
          last := if x.last.map (·.1) = some k then some (k, t) else x.last
          intervals := match x.lastRefTau with
            | some l => (x.intervals ++ [t - l]).drop (x.intervals.length - 63)
            | none => x.intervals
          lastRefTau := some t }
    else s
  | _, _ => s

/-- A sample joins a set (R319). A stream that is not admitted sends no data of it. -/
def State.joinSet (s : State) (g k ps : Nat) (r : SampleReport) : State :=
  match s.set? g k with
  | none => s.noSet ps r.id none
  | some st =>
    if st.closed then s.noSet ps r.id (some .ALN_S_LATE)
    else if st.members.any (fun m => m.stream == ps) then s.noSet ps r.id (some .ALN_S_SURPLUS)
    else
      let m := s.freshMember { stream := ps, id := r.id, arrival := r.arrival }
      let s1 := (s.modSet g k fun st => { st with members := st.members ++ [m] }).modAln ps fun a =>
        { a with lastSet := some (k, r.arrival) }
      let fs := if s1.admitted ps k then st.frames else []
      let s2 := s1.modSample (memberPlace ps).1 r.id fun x => { x with assigned := true, set := some (g, k), frames := fs }
      let s3 := if s2.stampDue m then s2 else s2.setTau g k m
      s3.judgeSet g k false

/-- The set that a sample belongs to (R319): none when it takes none, or its slot's number. -/
def State.slotOf (s : State) (g ps arrival : Nat) : Option Nat × Bool :=
  let grp := s.group g
  let a := s.aln? ps
  let isRef : Bool := s.chooseRef g == some ps
  match a.lastSet, decide (a.arrivalFit ≠ [] ∨ a.identity ∨ isRef) with
  | some (k, last), true =>
    let (p, n) := s.period g
    let delta : Nat := ((arrival + 2 ^ 64 - last) % 2 ^ 64) * 10
    let steps := rneQuot (delta * n) p.toNat
    if 1 < s.ratio ps ∧ ((2 * delta * n : Nat) : Int) < p then (some k, true) else (some (k + steps), false)
  | _, _ => if isRef then (some grp.nextSet, false) else (grp.last.map (·.1), false)
where
  /-- A quotient rounded to nearest, ties to even. -/
  rneQuot (a b : Nat) : Nat :=
    let q := a / b
    let r := a % b
    if b < 2 * r ∨ (b = 2 * r ∧ q % 2 = 1) then q + 1 else q

/-- An uncorrectable error in an aligner's memory (R343): its fits go, its streams return to ACQUIRING, and the open frames of the
groups that it leads complete INVALID. -/
def State.alignError (s : State) (h : Nat) : State :=
  let s1 := (List.range 12).foldl (fun s u =>
    let ps := 12 * h + u
    if (s.aln? ps).st = .OFF then s else s.modAln ps fun a =>
      { st := .ACQUIRING, cause := 3, depart := a.depart, lastSet := a.lastSet }) s
  let s2 := (s1.raise .ALN h 1 0xFF).askTest (38 + h) 1
  if h ≠ s.mgt.active then s2
  else ((List.range 8).filter s.groupOn).foldl (fun s g => (s.groupGraphs h g).foldl (fun s gi => match s.graph? gi with
    | some gr => if gr.bundle.header.trigger = 1 then gr.frames.foldl (fun s fr => s.withhold gi fr.num Status.INVALID) s else s
    | none => s) s) s2

/-- SAMPLE_BEGIN_REPORT: the oldest report of a hub, when it is a begin. -/
def State.beginReport (s : State) (h : Nat) (hw : IntakeHw) : State :=
  match (s.intake h).reports with
  | [] => s
  | r :: rest =>
    if ¬ r.begins then s
    else
      let s0 := s.modIntake h fun k => { k with reports := rest }
      let s1 := match hw with
        | .ok => s0
        | .ce => (s0.satReg (ra .ALN_CE_COUNT h)).raise .ALN h 0 0xFF
        | .ue => s0.alignError h
      let ps := packageStream h r.stream
      match s1.groupOf ps with
      | none => s1.noSet ps r.id none
      | some g =>
        match s1.slotOf g ps r.arrival with
        | (none, _) => s1.noSet ps r.id none
        | (some k, surplus) =>
          let grp := s1.group g
          if surplus then s1.noSet ps r.id (some .ALN_S_SURPLUS)
          else if k < grp.nextSet then
            if (s1.set? g k).isSome then s1.joinSet g k ps r
            else s1.noSet ps r.id (some (if grp.dropped.contains k then .ALN_S_SURPLUS else .ALN_S_LATE))
          else if (s1.pendingSets g).length < 8 then (s1.createSet g k).joinSet g k ps r
          else (s1.dropSlot g k).noSet ps r.id (some .ALN_S_SURPLUS)

/-! ### Ego motion (R332) -/

/-- A signal's registers: its stream, identifier, format and scale. -/
structure EgoSignal where
  en : Bool
  aux : Nat
  id : Nat
  ext : Bool
  big : Bool
  wide : Bool
  off : Nat
  scale : F32
  deriving DecidableEq, Repr

/-- A signal as the leading aligner's registers give it. -/
def State.egoSignal (s : State) (id fmt scale : Reg) : EgoSignal :=
  let a := s.mgt.active
  let i := s.reg (ra id a)
  let f := s.reg (ra fmt a)
  { en := f.getLsbD 31, aux := bits i 31 30, id := bits i 28 0, ext := i.getLsbD 29, big := f.getLsbD 8, wide := bits f 7 6 == 1
    off := bits f 5 0, scale := s.reg (ra scale a) }

/-- The value of a matching record: RNE(FP32(raw) × scale). -/
def EgoSignal.value (e : EgoSignal) (r : CanRecord) : F32 :=
  let n := if e.wide then 4 else 2
  let bs := padTo n (r.data.drop e.off)
  fmul (f32Int (sbits (if e.big then ofBe bs else ofLe bs) (8 * n))) e.scale

/-- The records of a signal in its history ring, oldest first. -/
def State.egoRecords (s : State) (e : EgoSignal) : List CanRecord :=
  let k := s.intake (e.aux / 2)
  (if e.aux % 2 = 0 then k.can0 else k.can1).filter fun r => e.en && r.id == e.id && r.ext == e.ext

/-- A record's time in reference time: through the arrival fit of the lowest-numbered admitted member on its hub. -/
def State.egoTime (s : State) (g k hub arrival : Nat) : Option Int :=
  match (s.members g).find? (fun ps => (memberPlace ps).1 == hub && s.admitted ps k) with
  | none => none
  | some ps =>
    let a := s.aln? ps
    let x : Int := (arrival * 10 : Nat)
    if a.arrivalFit = [] ∧ a.identity ∧ ¬ s.sensorMode ps then some x else fitMap a.arrivalFit x

/-- A signal's mean for a set: none when it is missing. With fewer than 8 values since reset the mean is not stated: a free value
(log 28). -/
def State.egoValue (s : State) (g k : Nat) (tau : Int) (e : EgoSignal) : Option (State × F32) :=
  let rs := s.egoRecords e
  match rs.getLast? with
  | none => none
  | some r =>
    match s.egoTime g k (e.aux / 2) r.arrival with
    | none => none
    | some t =>
      if t + 100000000 < tau then none
      else if rs.length < 8 then
        let (v, s1) := s.fresh
        some (s1, v.truncate 32)
      else
        let l := (rs.drop (rs.length - 8)).map e.value
        some (s, fmul ((l.drop 1).foldl fadd (l.headD 0)) 0x3E000000#32)

/-- The set's ω and v: both 0 and ego_missing unless both signals are there; logged once per episode. -/
def State.ego (s : State) (g k : Nat) (tau : Int) : State × Option (F32 × F32) :=
  let both := (s.egoValue g k tau (s.egoSignal .ALN_EGO_YAW_ID .ALN_EGO_YAW_FMT .ALN_EGO_YAW_SCALE)).bind fun (s1, w) =>
    (s1.egoValue g k tau (s1.egoSignal .ALN_EGO_SPEED_ID .ALN_EGO_SPEED_FMT .ALN_EGO_SPEED_SCALE)).map fun (s2, v) => (s2, w, v)
  match both with
  | some (s1, w, v) => (s1.modGroup g fun x => { x with egoEpisode := false }, some (w, v))
  | none =>
    let s1 := (s.raise .ALN s.mgt.active 6 g).modGroup g fun x => { x with egoEpisode := true }
    (if (s.group g).egoEpisode then s1 else s1.log .EGO_MISSING (4 + s.mgt.active) [g, k], none)

/-! ### Closing a set (R321 … R324) -/

/-- A stream has a DATA sample in a set, so far as is known. -/
def FrameSet.dataOf (st : FrameSet) (ps : Nat) : Option Member := st.members.find? fun m => m.stream == ps && m.kind == 0

/-- A member stream is present in a set: admitted, and with a DATA sample that has completed. -/
def State.present (s : State) (st : FrameSet) (ps : Nat) : Bool :=
  s.admitted ps st.num && (match st.dataOf ps with
    | some m => m.done && !m.drift
    | none => false)

/-- The missing mask of a set (R322). -/
def State.missingMask (s : State) (g : Nat) (st : FrameSet) : Nat :=
  ((s.members g).filter fun ps => !s.present st ps).foldl (fun a ps => a + 2 ^ ps) 0

/-- Add the pair of a member to its fits, and judge the rate (R315, R316). -/
def State.addPair (s : State) (m : Member) (tau : Int) : State :=
  let keep (l : List (Int × Int)) (p : Int × Int) : List (Int × Int) := (l ++ [p]).drop (l.length - 63)
  let sensor := if s.sensorMode m.stream then s.sensorTime m else none
  let add (a : AlignStream) : AlignStream :=
    { a with
      arrivalFit := keep a.arrivalFit (m.arrivalTime, tau)
      sensorFit := match sensor with
        | some x => keep a.sensorFit (x, tau)
        | none => a.sensorFit }
  let s1 := s.modAln m.stream add
  if rateBad (s1.fitInUse m.stream) then (s1.goAdrift m.stream 2 ((s.aln? m.stream).depart * 1000)).modAln m.stream add else s1

/-- The pairs that a set's close gives (R315, R327, R328). -/
def State.addPairs (s : State) (st : FrameSet) : State :=
  if st.noRef ∨ st.predicted ∨ (st.dataOf st.ref).isNone then s
  else st.members.foldl (fun s m =>
    let a := s.aln? m.stream
    if m.kind ≠ 0 ∨ a.frozen ∨ a.st = .OFF ∨ a.identity then s
    else if m.drift ∨ m.consistent ∨ a.arrivalFit = [] then s.addPair m st.tau
    else s) s

/-- The 256 B set record (R323). -/
def State.setRecord (s : State) (g : Nat) (st : FrameSet) (mask : Nat) : List Byte :=
  let slots := s.groupGraphs s.mgt.active g
  let frame (i : Nat) : Nat := match slots[i]? with
    | some gi => ((st.frames.find? fun f => f.1 == gi).map (·.2)).getD 0
    | none => 0
  let off (ps : Nat) : Int := match st.dataOf ps with
    | some m => if bitN mask ps then 0 else usOf (m.mapped.getD st.tau - st.tau)
    | none => 0
  let kind (ps : Nat) : Nat := if ¬ (s.members g).contains ps then 0xFF else
    match st.members.find? (fun m => m.stream == ps) with
    | some m => if m.done then m.kind else Kind.code .LOST
    | none => Kind.code .LOST
  padTo 256 (toLe 8 (wrapTo 64 st.tau) ++ toLe 4 st.num ++ (List.range 4).flatMap (fun i => toLe 4 (frame i)) ++ toLe 4 mask ++
    toLe 1 (b2n st.egoMissing + 2 * b2n st.noRef + 4 * b2n st.refChanged + 8 * b2n st.predicted) ++ toLe 1 st.ref ++ toLe 2 0 ++
    toLe 4 st.yaw.toNat ++ toLe 4 st.speed.toNat ++ le32 (usOf (st.tau - st.dtPrev)) ++ toLe 16 0 ++
    (List.range 24).flatMap (fun ps => le32 (off ps)) ++ (List.range 24).flatMap fun ps => toLe 1 (kind ps))

/-- Write the record and raise the version of the buffer that holds it in each graph of the group (R323). -/
def State.writeSetRecord (s : State) (g : Nat) (st : FrameSet) (mask : Nat) : State :=
  let a := bits (s.groupReg .ALN_G_REC_LO g) 31 11 * 2048 + bits (s.groupReg .ALN_G_REC_HI g) 15 0 * 2 ^ 32 + 256 * (st.num % 8)
  if ¬ inHbm a 256 then s
  else
    let s1 := s.writeMem a (s.setRecord g st mask)
    ((s1.buffersIn a 256).filter fun b => st.frames.any fun f => f.1 == b.1).foldl
      (fun s b => s.raiseVersion b.2.2 b.1 b.2.1 id .record) s1

/-- The frames of a set ask for admission (R128, R324). -/
def State.askFrames (s : State) (g : Nat) (st : FrameSet) (mask : Nat) (invalid : Bool) : State :=
  { s with graphs := { s.graphs with requests := s.graphs.requests ++ st.frames.map fun f =>
      { graph := f.1, setGroup := g, setNum := st.num, setFrame := some f.2, missing := mask, closedAt := s.now, invalid := invalid } } }

/-- FRAME_SET_CLOSE (R322). -/
def State.closeSet (s : State) (g k : Nat) (hw : IntakeHw) : State :=
  let s0 := s.judgeSet g k true
  match s0.set? g k with
  | none => s0
  | some st0 =>
    let mask := s0.missingMask g st0
    let lost := (s0.members g).filterMap fun ps => match st0.members.find? (fun m => m.stream == ps) with
      | some m => if s0.admitted ps k ∧ ¬ m.done then some (ps, m.id) else none
      | none => none
    let s1 := s0.addPairs st0
    let (s2, w) := s1.ego g k st0.tau
    let st : FrameSet := { st0 with closed := true, missing := mask, egoMissing := w.isNone, yaw := (w.getD (0, 0)).1, speed := (w.getD (0, 0)).2 }
    let a := s.mgt.active
    let s3 := ((s2.modSet g k fun _ => st).setReg (ra .ALN_G_MISSING a g) (word mask)).wrapReg (ra .ALN_G_SETS a g)
    let s4 := (s3.writeSetRecord g st mask).askFrames g st mask false
    let s5 := lost.foldl (fun s x => (s.endWait (memberPlace x.1).1 x.2).place (memberPlace x.1).1 x.2 .LOST) s4
    let s6 := ((s5.members g).filter (bitN mask)).foldl (fun s ps => s.fillTiles (memberPlace ps).1 (memberPlace ps).2 st.frames) s5
    s6.prismRun { yaw := st.yaw, speed := st.speed, tau := st.tau, frames := st.frames,
                  present := st.members.filterMap fun m => if bitN mask m.stream then none else m.mapped.map fun t => (m.stream, m.id, t) } hw

/-- Every admitted member of a set has completed, and some sample of it has (R321, log 27). -/
def State.setComplete (s : State) (g : Nat) (st : FrameSet) : Bool :=
  st.firstDone.isSome && (s.members g).all fun ps => !s.admitted ps st.num ||
    st.members.any fun m => m.stream == ps && m.done

/-- Close the sets that are complete, in set order (R321). -/
def State.closeReady (s : State) (g : Nat) (hw : IntakeHw) : Nat → State
  | 0 => s
  | n + 1 =>
    match (s.group g).sets.find? (fun st => !st.closed) with
    | some st => if s.setComplete g st then (s.closeSet g st.num hw).closeReady g hw n else s
    | none => s

/-- A group holds at most 8 sets (R320). -/
def setFuel : Nat := 9

/-- SAMPLE_COMPLETE_REPORT: the oldest report of a hub, when it is a completion. -/
def State.completeReport (s : State) (h : Nat) (hw : IntakeHw) : State :=
  match (s.intake h).reports with
  | [] => s
  | r :: rest =>
    if r.begins then s
    else
      let s0 := s.modIntake h fun k => { k with reports := rest }
      let ps := packageStream h r.stream
      match s0.groupOf ps with
      | none => s0
      | some g =>
        match (s0.group g).sets.find? (fun st => st.members.any fun m => m.stream == ps && m.id == r.id) with
        | none => if r.kind = .DATA then s0 else s0.modAln ps fun a => { a with run := 0 }
        | some st =>
          if st.closed then s0
          else
            let s1 := (s0.modMember g st.num ps fun m => { m with done := true, kind := r.kind.code }).modSet g st.num fun st =>
              { st with firstDone := st.firstDone.orElse fun _ => some s.now }
            let s2 := if r.kind ≠ .DATA then s1.modAln ps fun a => { a with run := 0 }
              else if (s1.candidates g).head? = some ps ∧ (s1.aln? ps).st = .ACQUIRING then
                s1.modAln ps fun a => { a with st := .ADMITTED, admitFrom := (s1.group g).nextSet }
              else s1
            let s3 := match s2.set? g st.num with
              | some (st1 : FrameSet) => match st1.members.find? (fun (m : Member) => m.stream == ps) with
                | some m => s2.setTau g st.num (s2.freshMember m)
                | none => s2
              | none => s2
            (s3.judgeSet g st.num false).closeReady g hw setFuel

/-- SET_WAIT_EXPIRY: the limit of the oldest open set of a group has run out (R321). -/
def State.setWaitExpiry (s : State) (g : Nat) (hw : IntakeHw) : State :=
  match (s.group g).sets.find? (fun st => !st.closed) with
  | some st =>
    match st.firstDone with
    | some t => if t + st.waitUs ≤ s.now then (s.closeSet g st.num hw).closeReady g hw setFuel else s
    | none => s
  | none => s

/-! ### Groups and leadership (R311, R326, R329, R342) -/

/-- R311: a group that may not be enabled with a CFG value. -/
def State.groupBad (s : State) (g : Nat) (v : Word) : Bool :=
  let order := (s.groupReg .ALN_G_REF_ORDER g).toNat
  let places := ((List.range 8).map fun i => order / 16 ^ i % 16).takeWhile (· != 15)
  let ms := s.members g
  let others := (List.range 8).filter fun k => k != g && s.groupOn k
  let graphs := bits v 5 0 :: ((if v.getLsbD 15 then [bits v 13 8] else []) ++ (if v.getLsbD 23 then [bits v 21 16] else []) ++
    (if v.getLsbD 30 then [bits v 29 24] else []))
  places == [] || places.any (fun p => ms.length ≤ p) || ms.any (fun ps => others.any fun k => (s.members k).contains ps) ||
  graphs.any fun x => others.any fun k => (s.groupGraphs s.mgt.active k).contains x

/-- The sets of a group close as they stand. -/
def State.closeAll (s : State) (g : Nat) : State :=
  ((s.group g).sets.filter fun st => !st.closed).foldl (fun s st => s.closeSet g st.num .ok) s

/-- A write to ALN_G_CFG: package-wide (R313); an enable is checked, and starts its streams in ACQUIRING. -/
def State.writeGroup (s : State) (h g : Nat) (v : Word) : State :=
  s.rwl h (ra .ALN_G_CFG h g) fun s =>
    let v := maskReg (ra .ALN_G_CFG h g) v
    if ¬ v.getLsbD 31 then
      let s1 := if s.groupOn g then s.closeAll g else s
      let ms := s1.members g
      ms.foldl (fun s ps => { s with aln := { s.aln with streams := tblSet {} s.aln.streams ps {} } }) (s1.setBoth .ALN_G_CFG g v)
    else if s.groupBad g v then (s.setBoth .ALN_G_CFG g (v &&& 0x7FFFFFFF)).raise .ALN h 7 g
    else if s.groupOn g then s.setBoth .ALN_G_CFG g v
    else
      let s1 := { s with aln := { s.aln with groups := tblSet {} s.aln.groups g {} } }.setBoth .ALN_G_CFG g v
      (s1.members g).foldl (fun s ps => { s with aln := { s.aln with
        streams := tblSet {} s.aln.streams ps { st := .ACQUIRING } } }) s1

/-- The leading hub is lost: every set that is created and not admitted opens its frames, and they complete INVALID (R342). -/
def State.invalidateSets (s : State) : State :=
  (List.range 8).foldl (fun s g =>
    let open_ := (s.group g).sets.filter fun st => !st.closed
    let s1 := { s with graphs := { s.graphs with requests := s.graphs.requests.map fun r =>
      if r.setFrame.isSome ∧ r.setGroup = g then { r with invalid := true } else r } }
    open_.foldl (fun s st => (s.askFrames g st 0 true).modSet g st.num fun st => { st with closed := true }) s1) s

/-- The streams of a hub start ACQUIRING when it rejoins (R342). -/
def State.realignHub (s : State) (h : Nat) : State :=
  (List.range 12).foldl (fun s u =>
    let ps := 12 * h + u
    if (s.aln? ps).st = .OFF then s else
      { s with aln := { s.aln with streams := tblSet {} s.aln.streams ps { st := .ACQUIRING } } }) s

/-! ### The commands -/

/-- SAMPLE_BEGIN_REPORT (R319). -/
def execSampleBeginReport (hub : Fin 2) (hw : IntakeHw) (s : State) : Host.Outcome State Fault Refusal := .next (s.beginReport hub hw)
/-- SAMPLE_COMPLETE_REPORT (R321). -/
def execSampleCompleteReport (hub : Fin 2) (hw : IntakeHw) (s : State) : Host.Outcome State Fault Refusal :=
  .next (s.completeReport hub hw)
/-- SET_WAIT_EXPIRY (R321). -/
def execSetWaitExpiry (group : Fin 8) (hw : IntakeHw) (s : State) : Host.Outcome State Fault Refusal := .next (s.setWaitExpiry group hw)
/-- GROUP_ENABLE (R311): a write to ALN_G_CFG with en set. -/
def execGroupEnable (hub : Fin 2) (group : Fin 8) (value : BitVec 32) (s : State) : Host.Outcome State Fault Refusal :=
  .next (s.writeGroup hub group (value ||| 0x80000000))

end Sys2Proof.Machine
end

