-- ==== Sys2Proof/Machine/Checking.lean ====
section
/-! DEFINITION. What every checking unit shares (R396 … R398, R416, R417): the lanterns' error bits and event records, the results that
they hold of a frame, and a checker mismatch. -/

namespace Sys2Proof.Machine

/-! ### Results of a frame (R389, R396) -/

/-- What a lantern holds of a frame. -/
def Lantern.frame? (l : Lantern) (g f : Nat) : Option LanFrame := l.frames.find? fun x => x.graph == g && x.frame == f

/-- Note a result of a frame at a lantern that works; a frame whose start message has not arrived is timed from nothing. -/
def State.noteFrame (s : State) (l g f : Nat) (k : LanFrame → LanFrame) : State :=
  if ¬ (s.lantern l).works then s
  else s.modLantern l fun x =>
    match x.frame? g f with
    | some _ => { x with frames := mapWhere (fun y => y.graph == g && y.frame == f) k x.frames }
    | none => { x with frames := x.frames ++ [k { graph := g, frame := f }] }

/-- The failed results of R396 as CHECK_MISMATCH names them. -/
inductive Failed where
  | signature | envelope | comparators | planner | merge | missing
  deriving DecidableEq, Repr

/-- The suspects of a checker mismatch come under test (R398). -/
def State.suspect (s : State) (us : List Nat) (shadow : Option (Nat × Nat)) : State :=
  let s1 := if us = [] then s else { s with lan := { s.lan with suspects := s.lan.suspects ++ [{ left := us, shadow := shadow }] } }
  us.foldl (fun s u => s.askTest u 2) s1

/-- What a lantern says of a frame whose results it holds (R396): failed, passed, or nothing yet. -/
def LanFrame.says (x : LanFrame) : Option Bool :=
  if x.failed then some false else if x.handed then x.verdict.map (·.passed) else none

/-- LANTERN_DISAGREE: one lantern passes a frame that the other fails (R396). It is logged once, and both run their compare test. -/
def State.disagree (s : State) (g f : Nat) : State :=
  match (s.lantern 0).frame? g f, (s.lantern 1).frame? g f with
  | some a, some b =>
    if a.disagreed ∨ a.says.isNone ∨ b.says.isNone ∨ a.says = b.says then s
    else
      [0, 1].foldl (fun s l => ((s.noteFrame l g f fun x => { x with disagreed := true }).modLantern l fun x =>
        { x with compareTest := true }).lanError l 2) (s.log .LANTERN_DISAGREE 0xFF [g, f])
  | _, _ => s

/-- CHECKER_MISMATCH at one lantern (R396, R397): it is counted and recorded, once for each kind of result of a frame; the frame is
withheld, and its suspects come under test once for both lanterns. -/
def State.checkerMismatch (s : State) (l g f : Nat) (what : Failed) (us : List Nat) (shadow : Option (Nat × Nat) := none) : State :=
  if ¬ (s.lantern l).works ∨ ((s.lantern l).frame? g f).any (fun x => x.kinds.contains what.ctorIdx) then s
  else
    let s1 := ((s.noteFrame l g f fun x => { x with failed := true, kinds := x.kinds ++ [what.ctorIdx] }).modLantern l fun x =>
      { x with mismatch := min (x.mismatch + 1) 0xFFFFFFFF }).lanRecord l .CHECK_MISMATCH [g, f, what.ctorIdx]
    let s2 := (s1.lanError l 1).disagree g f
    match s2.frame? g f with
    | none => s2
    | some fr =>
      if fr.suspected.contains what.ctorIdx then s2
      else
        ((s2.modFrame g f fun fr => { fr with mismatch := true, suspected := fr.suspected ++ [what.ctorIdx] }).withhold g f
          Status.INVALID).suspect us shadow

/-- A result that the device forms goes to both lanterns; a failed one is a checker mismatch at each. -/
def State.checkResult (s : State) (g f : Nat) (ok : Bool) (what : Failed) (us : List Nat) (k : LanFrame → LanFrame) : State :=
  s.workingLanterns.foldl (fun s l =>
    let s1 := s.noteFrame l g f k
    if ok then s1 else s1.checkerMismatch l g f what us) s

/-- The merge result of a frame (R340). -/
def LanFrame.withMerge (ok : Bool) (x : LanFrame) : LanFrame := { x with merge := some ok }
/-- The planner pair result of a frame (R375). -/
def LanFrame.withPair (ok : Bool) (x : LanFrame) : LanFrame := { x with pair := some ok }

/-! ### What a graph's checking calls for (R393, R395, R396) -/

/-- The stations of a graph. -/
def Graph.stations (gr : Graph) : List Nat := (gr.bundle.cards.map (·.station)).foldl addNew []

/-- A copy's signature of a station at a lantern. -/
def LanFrame.signature? (x : LanFrame) (station copy : Nat) : Option (BitVec 64 × Nat × Bool) :=
  (x.signatures.find? fun y => y.1 == station && y.2.1 == copy).map fun y => y.2.2

/-- R393: whether the two signatures of a station are equal; none until both have arrived. -/
def LanFrame.signaturePair (x : LanFrame) (station : Nat) : Option Bool :=
  match x.signature? station 0, x.signature? station 1 with
  | some a, some b => some (a == b)
  | _, _ => none

/-- A hub's envelope comparator works (R395, R399). -/
def State.comparatorRuns (s : State) (h : Nat) : Bool := !(s.link h).lost && !s.lan.lostUnits.contains (40 + h)

/-- The hubs whose envelope comparator works. -/
def State.comparators (s : State) : List Nat := [0, 1].filter s.comparatorRuns

/-- The envelope entries of a loaded graph (R394). -/
def State.envelopesOf (s : State) (gr : Graph) : List Envelope := (s.graphImage gr).envelopes gr.bundle.initOff

/-- What a comparator has said of an entry. -/
def LanFrame.envelope? (x : LanFrame) (entry hub : Nat) : Option (Nat × Bool) :=
  (x.envelopes.find? fun y => y.1 == entry && y.2.1 == hub).map fun y => y.2.2

/-- R395: the result of an entry from every comparator that works: none until all have arrived. -/
def State.entryResult (s : State) (x : LanFrame) (entry : Nat) : Option (Bool × Bool) :=
  let rs := s.comparators.map fun h => x.envelope? entry h
  if rs = [] ∨ rs.any (·.isNone) then none
  else
    let vs := rs.filterMap id
    some (vs.all (·.2), vs.all fun v => v.1 == (vs.headD (0, false)).1)

/-- The frame's perception has passed at a lantern: DUPLICATE by R393, SHADOW by R395. -/
def State.perceptionPasses (s : State) (gr : Graph) (x : LanFrame) : Bool :=
  if gr.bundle.header.checking = 1 then gr.stations.all fun st => x.signaturePair st == some true
  else if gr.bundle.header.checking = 2 then
    (List.range (s.envelopesOf gr).length).all fun i => s.entryResult x i == some (true, true)
  else true

/-- R28, R351: a graph's checking has let a frame's perception part through at every lantern that works. -/
def State.letThrough (s : State) (gr : Graph) (f : Nat) : Bool :=
  gr.bundle.header.safety != 1 || s.workingLanterns.all fun l =>
    s.perceptionPasses gr (((s.lantern l).frame? gr.num f).getD { graph := gr.num, frame := f })

end Sys2Proof.Machine
end

