-- ==== Sys2Proof/Machine/Merge.lean ====
section
/-! DEFINITION. The merge units (R337 … R340): the merged layer, the contradiction counters and the compare of the two hubs'
digests. -/

namespace Sys2Proof.Machine

/-! ### Set-up -/

/-- ALN_MERGE_CFG and ALN_MERGE_EDGES of a hub. -/
structure MergeCfg where
  en : Bool
  graph : Nat
  sources : Nat
  hi : Nat
  unknown : Nat
  input : Nat
  output : Nat
  deriving DecidableEq, Repr

/-- The merge set-up of a hub. -/
def State.mergeCfg (s : State) (h : Nat) : MergeCfg :=
  let c := s.reg (ra .ALN_MERGE_CFG h)
  let e := s.reg (ra .ALN_MERGE_EDGES h)
  { en := c.getLsbD 31, graph := bits c 29 24, sources := bits c 18 16 + 1, hi := bits c 13 8, unknown := bits c 7 0
    input := bits e 15 0, output := bits e 31 16 }

/-- Cells of a layer: 1,024 × 1,024. -/
def layerCells : Nat := 1048576

/-- Copy f mod 4 of an edition buffer: its page and its slices (R350). -/
def editionCopy (base f : Nat) : Nat := base + f % 4 * 0x1001000

/-- The address of the buffer of a BUFFER edge. -/
def Graph.edgeBuffer (gr : Graph) (ei : Nat) : Nat := (nth {} gr.bundle.buffers (gr.edge ei).buffer).at_

/-! ### The merge (R337, R338) -/

/-- The merged cost of a cell from its source bytes. -/
def mergeCell (unknown : Nat) (bs : List Nat) : Nat :=
  if bs.any fun b => b / 64 == 2 then 255 else if bs.any fun b => b / 64 == 1 then 0 else unknown

/-- The pairs of sources in ascending order. -/
def sourcePairs (n : Nat) : List (Nat × Nat) := (List.range n).flatMap fun a => ((List.range n).filter (a < ·)).map fun b => (a, b)

/-- A pair's number among 28, by ascending a then b of eight sources (R344). -/
def pairNumber (a b : Nat) : Nat := (findIdx? (fun p => p == (a, b)) (sourcePairs 8)).getD 0

/-- One source says occupied and the other free, both with confidence of at least `hi`. -/
def contradicts (hi a b : Nat) : Bool :=
  hi ≤ a % 64 && hi ≤ b % 64 && ((a / 64 == 2 && b / 64 == 1) || (a / 64 == 1 && b / 64 == 2))

/-- The cells of a region: 128 × 128, 64 regions in rows of eight. -/
def regionCells (r : Nat) : List Nat :=
  (List.range 128).flatMap fun y => (List.range 128).map fun x => (r / 8 * 128 + y) * 1024 + r % 8 * 128 + x

/-- A pair's counter in a region after a frame with `n` contradicting cells: unsigned 32 bits, saturating. -/
def nextCounter (c n : Nat) : Nat := min 0xFFFFFFFF (c - c / 16 + n)

/-- A counter's key in the table of a merge unit. -/
def counterKey (pair region : Nat) : Nat := pair * 64 + region

/-- The limit of the group that a graph belongs to (R339). -/
def State.contraLimit (s : State) (g : Nat) : Nat :=
  match s.groupOfGraph g with
  | some k => (s.groupReg .ALN_G_CONTRA_LIMIT k).toNat
  | none => 4096

/-- CONTRADICTION (R339): to the ledger, to the host as a NOTICE, and to both lanterns. -/
def State.contradiction (s : State) (h g f pair region value : Nat) : State :=
  (s.log .CONTRADICTION (4 + h) [f, pair, region, value]).raise .ALN h 4 g

/-- Update one counter: it fires when it rises above the limit, and re-arms below half of it. -/
def State.bumpCounter (s : State) (h g f pair region n : Nat) : State :=
  let m := tblGet {} s.aln.merges h
  let c := tblGet {} m.counters (counterKey pair region)
  let v := nextCounter c.value n
  let lim := s.contraLimit g
  let fires : Bool := lim < v && !c.fired
  let x : ContraSt := { value := v, fired := fires || (c.fired && lim ≤ 2 * v) }
  let s1 := { s with aln := { s.aln with merges := tblSet {} s.aln.merges h { m with
    counters := tblSet {} m.counters (counterKey pair region) x } } }
  if fires then s1.contradiction h g f pair region v else s1

/-- Both units are enabled with the same settings: their digests are compared (R340). -/
def State.mergesPaired (s : State) : Bool :=
  (s.mergeCfg 0).en && s.mergeCfg 0 == s.mergeCfg 1 && s.intakeRuns 0 && s.intakeRuns 1

/-- The digest of a merge: its output and its counter updates, 4 B each in pair and region order. -/
def mergeDigest (out : List Byte) (counters : List Nat) : List Byte := shake256 (out ++ counters.flatMap (toLe 4))

/-- MERGE_RUN (R337): the input token of a frame has arrived at the hub, and the frame is not withheld. Copy 0's layers are
merged into slice 0 of the frame's edition copy. -/
def State.mergeRun (s : State) (h f : Nat) : State :=
  let c := s.mergeCfg h
  match s.graph? c.graph with
  | none => s
  | some gr =>
    match gr.frame? f with
    | none => s
    | some fr =>
      if ¬ c.en ∨ ¬ s.intakeRuns h ∨ fr.withheld ∨ fr.merged.contains h ∨ ¬ fr.tokens.contains (c.input, 0) then s
      else
        let (bs, poison) := s.readMem (gr.edgeBuffer c.input) (c.sources * layerCells)
        let at_ (j i : Nat) : Nat := (nth 0 bs (j * layerCells + i)).toNat
        if poison then (s.modFrame c.graph f fun fr => { fr with merged := fr.merged ++ [h] }).withhold c.graph f Status.DATA_POISON
        else
          let out : List Byte := (List.range layerCells).map fun i =>
            BitVec.ofNat 8 (mergeCell c.unknown ((List.range c.sources).map fun j => at_ j i))
          let s1 := (s.writeMem (editionCopy (gr.edgeBuffer c.output) f + 0x1000) out).modFrame c.graph f fun fr =>
            { fr with merged := fr.merged ++ [h] }
          let keys := (sourcePairs c.sources).flatMap fun p => (List.range 64).map fun r => (p, r)
          let s2 := keys.foldl (fun s x =>
            let n := ((regionCells x.2).filter fun i => contradicts c.hi (at_ x.1.1 i) (at_ x.1.2 i)).length
            s.bumpCounter h c.graph f (pairNumber x.1.1 x.1.2) x.2 n) s1
          let m := tblGet {} s2.aln.merges h
          let vals := keys.map fun x => (tblGet {} m.counters (counterKey (pairNumber x.1.1 x.1.2) x.2)).value
          let m1 : MergeSt := { m with done := m.done + 1, digest := some (f, mergeDigest out vals) }
          ({ s2 with aln := { s2.aln with merges := tblSet {} s2.aln.merges h m1 } }).wrapReg (ra .ALN_MERGE_DONE h)

/-- MERGE_DIGEST_RX: the leading hub compares the other's digest of a frame with its own (R340). -/
def State.mergeDigestRx (s : State) (f : Nat) (d : List Byte) : State :=
  let h := s.mgt.active
  let c := s.mergeCfg h
  match (tblGet {} s.aln.merges h).digest with
  | some (k, own) =>
    if k ≠ f ∨ ¬ s.mergesPaired then s
    else
      let ok := own == d
      (if ok then s else s.raise .ALN h 5 c.graph).checkResult c.graph f ok .merge [38, 39] (·.withMerge ok)
  | none => s

/-! ### The commands -/

/-- MERGE_RUN (R337). -/
def execMergeRun (hub : Fin 2) (frame : Nat) (s : State) : Host.Outcome State Fault Refusal := .next (s.mergeRun hub frame)
/-- MERGE_DIGEST_RX (R340). -/
def execMergeDigestRx (frame : Nat) (digest : List Byte) (s : State) : Host.Outcome State Fault Refusal :=
  .next (s.mergeDigestRx frame digest)

end Sys2Proof.Machine
end

