-- ==== Sys2Proof/Machine/RoadMap.lean ====
section
/-! DEFINITION. Road maps (R346, R347), the covered cells of a footprint box (R356), and the cells of an edition bank (R349,
R352). -/

namespace Sys2Proof.Machine

/-! ### The road-map image (R346) -/

/-- Bytes of the header, a node, an edge and a box. -/
def mapHeaderBytes : Nat := 128

/-- The header of an image. -/
def readMapHeader (addr len : Nat) (h : List Byte) : RoadMap :=
  { addr := addr, len := len, id := leAt h 8 4, nodes := leAt h 12 4, edges := leAt h 16 4, boxes := leAt h 20 4
    nodeOff := leAt h 24 4, edgeOff := leAt h 28 4, boxOff := leAt h 32 4 }

/-- A 32-bit signed field. -/
def int32At (bs : List Byte) (o : Nat) : Int := sbits (leAt bs o 4) 32

/-- Node `i` of an image. -/
def RoadMap.node (m : RoadMap) (img : List Byte) (i : Nat) : MapNode :=
  let o := m.nodeOff + 16 * i
  { num := i, x := int32At img o, y := int32At img (o + 4), first := leAt img (o + 8) 4, count := leAt img (o + 12) 1 }

/-- Box `i` of an image. -/
def RoadMap.box (m : RoadMap) (img : List Byte) (i : Nat) : FootBox :=
  let o := m.boxOff + 16 * i
  { cx := int32At img o, cy := int32At img (o + 4), heading := leAt img (o + 8) 2, halfL := leAt img (o + 10) 2
    halfW := leAt img (o + 12) 2, t := leAt img (o + 14) 2 }

/-- An edge entry as the image holds it. -/
structure MapEdge where
  src : Nat
  dst : Nat
  base : Nat
  duration : Nat
  boxCount : Nat
  boxFirst : Nat
  bx : Int
  by_ : Int
  br : Nat
  deriving DecidableEq, Repr

/-- Edge `i` of an image. -/
def RoadMap.edge (m : RoadMap) (img : List Byte) (i : Nat) : MapEdge :=
  let o := m.edgeOff + 32 * i
  { src := leAt img o 2, dst := leAt img (o + 2) 2, base := leAt img (o + 4) 4, duration := leAt img (o + 8) 2
    boxCount := leAt img (o + 10) 1, boxFirst := leAt img (o + 12) 4, bx := int32At img (o + 16), by_ := int32At img (o + 20)
    br := leAt img (o + 24) 2 }

/-- The boxes of an edge. -/
def RoadMap.boxesOf (m : RoadMap) (img : List Byte) (e : MapEdge) : List FootBox :=
  (List.range e.boxCount).map fun k => m.box img (e.boxFirst + k)

/-- The three parts lie in order on 64 B boundaries within the image, and no count is 0 or too large. -/
def RoadMap.layoutOk (m : RoadMap) : Bool :=
  m.nodeOff % 64 == 0 && m.edgeOff % 64 == 0 && m.boxOff % 64 == 0 && mapHeaderBytes ≤ m.nodeOff &&
  m.nodeOff + 16 * m.nodes ≤ m.edgeOff && m.edgeOff + 32 * m.edges ≤ m.boxOff && m.boxOff + 16 * m.boxes ≤ m.len &&
  1 ≤ m.nodes && m.nodes ≤ 65536 && 1 ≤ m.edges && m.edges ≤ 262144 && 1 ≤ m.boxes && m.boxes ≤ 8388608

/-- The header's magic, version and reserved bytes. -/
def mapHeaderOk (h : List Byte) : Bool :=
  leAt h 0 4 == 0x50414D52 && leAt h 4 4 == 1 && zeroFrom h 36 28 && zeroFrom h 96 32

/-- A square. -/
def sq (x : Int) : Int := x * x

/-- R356: the Q1.14 coordinates of a point along and across a box. -/
def FootBox.along (b : FootBox) (x y : Int) : Int := (x - b.cx) * Config.cosHeading b.heading + (y - b.cy) * Config.sinHeading b.heading
def FootBox.across (b : FootBox) (x y : Int) : Int := (y - b.cy) * Config.cosHeading b.heading - (x - b.cx) * Config.sinHeading b.heading

/-- A corner of a box in Q1.14 cm, relative to a point. -/
def FootBox.cornerFar (b : FootBox) (ex ey : Int) (r : Nat) (l w : Int) : Bool :=
  let dx := (b.cx - ex) * 16384 + l * Config.cosHeading b.heading - w * Config.sinHeading b.heading
  let dy := (b.cy - ey) * 16384 + l * Config.sinHeading b.heading + w * Config.cosHeading b.heading
  decide (sq (r * 16384) < sq dx + sq dy)

/-- A box lies outside its edge's bounding circle: one of its corners does. -/
def FootBox.leaves (b : FootBox) (ex ey : Int) (r : Nat) : Bool :=
  [(1, 1), (1, -1), (-1, 1), (-1, -1)].any fun (k : Int × Int) => b.cornerFar ex ey r (k.1 * b.halfL) (k.2 * b.halfW)

/-- A node's entry and its outgoing edges agree with the sorted edge table (R347). -/
def RoadMap.nodeOk (m : RoadMap) (img : List Byte) (i : Nat) : Bool :=
  let n := m.node img i
  let outs := (List.range m.edges).filter fun e => (m.edge img e).src == i
  n.count ≤ 8 && zeroFrom img (m.nodeOff + 16 * i + 13) 3 && outs == (List.range n.count).map (n.first + ·) &&
  (n.count ≠ 0 || n.first ≤ m.edges)

/-- An edge entry and its boxes keep to R346 and R347. -/
def RoadMap.edgeOk (m : RoadMap) (img : List Byte) (i : Nat) : Bool :=
  let e := m.edge img i
  let o := m.edgeOff + 32 * i
  let bs := m.boxesOf img e
  e.src < m.nodes && e.dst < m.nodes && 1 ≤ e.base && e.base ≤ 0xFFFFFF && 1 ≤ e.duration && 1 ≤ e.boxCount && e.boxCount ≤ 32 &&
  e.boxFirst + e.boxCount ≤ m.boxes && zeroFrom img (o + 11) 1 && zeroFrom img (o + 26) 6 &&
  (i == 0 || (m.edge img (i - 1)).src ≤ e.src) &&
  bs.all (fun b => 1 ≤ b.halfL && b.halfL ≤ 1000 && 1 ≤ b.halfW && b.halfW ≤ 1000 && b.t ≤ e.duration && !b.leaves e.bx e.by_ e.br) &&
  (bs.zip (bs.drop 1)).all (fun p => p.1.t ≤ p.2.t)

/-- The padding between the parts, and after the last, is 0 (R346). -/
def RoadMap.paddingOk (m : RoadMap) (img : List Byte) : Bool :=
  let gap (a b : Nat) : Bool := zeroFrom img a (b - a)
  gap mapHeaderBytes m.nodeOff && gap (m.nodeOff + 16 * m.nodes) m.edgeOff && gap (m.edgeOff + 32 * m.edges) m.boxOff &&
  gap (m.boxOff + 16 * m.boxes) m.len

/-- The outcome of the check of R347. -/
inductive MapCheck where
  | ok (map : RoadMap)
  | refused
  | digest
  | poison
  deriving DecidableEq, Repr

/-- R347: the check of a road-map image. -/
def State.checkMap (s : State) (addr len : Nat) : MapCheck :=
  if addr % 4096 ≠ 0 ∨ ¬ inHbm addr len ∨ len < mapHeaderBytes ∨ s.reservedRange addr len then .refused
  else
    let (img, poison) := s.readMem addr len
    let m := readMapHeader addr len img
    if poison then .poison
    else if ¬ (mapHeaderOk img && m.layoutOk && m.paddingOk img && (List.range m.nodes).all (m.nodeOk img) &&
        (List.range m.edges).all (m.edgeOk img)) then .refused
    else if shake256 (img.drop m.nodeOff) ≠ (img.drop 64).take 32 then .digest
    else .ok m

/-! ### The grid (R349) and covered cells (R356) -/

/-- Cells on a side of the grid; its side in cm. -/
def gridSide : Nat := 1024
def gridCm : Int := 10240

/-- The cell row or column of a map coordinate. -/
def cellOf (origin x : Int) : Int := (x - origin).fdiv 10

/-- A cell (row, column) of the grid. -/
def inGrid (c : Int × Int) : Bool := 0 ≤ c.1 && c.1 < 1024 && 0 ≤ c.2 && c.2 < 1024

/-- The number of a cell of the grid. -/
def cellNum (c : Int × Int) : Nat := c.1.toNat * gridSide + c.2.toNat

/-- R356: a box covers a cell when the cell's centre lies inside the box grown by 5 cm on each side. -/
def FootBox.covers (b : FootBox) (ox oy : Int) (c : Int × Int) : Bool :=
  let x := ox + 10 * c.2 + 5
  let y := oy + 10 * c.1 + 5
  decide ((b.along x y).natAbs ≤ (b.halfL + 5) * 16384 ∧ (b.across x y).natAbs ≤ (b.halfW + 5) * 16384)

/-- Integers from `a` on. -/
def intsFrom (a : Int) (n : Nat) : List Int := (List.range n).map fun k => a + (k : Nat)

/-- The covered cells of a box, as (row, column), row by row; the search area holds the grown box. -/
def FootBox.cells (b : FootBox) (ox oy : Int) : List (Int × Int) :=
  let r : Nat := (b.halfL + b.halfW) / 5 + 8
  let rows := intsFrom (cellOf oy b.cy - ((r : Nat) : Int)) (2 * r + 1)
  let cols := intsFrom (cellOf ox b.cx - ((r : Nat) : Int)) (2 * r + 1)
  rows.flatMap fun y => (cols.map fun x => (y, x)).filter (b.covers ox oy)

/-! ### Banks -/

/-- The key of a cell of a slice. -/
def cellKey (slice cell : Nat) : Nat := slice * 1048576 + cell

/-- The cost of a cell (R352): the maximum of edition and overlay. -/
def Bank.cost (b : Bank) (key : Nat) : Nat := max (tblGet 0 b.cells key) (tblGet 0 b.overlay key)

/-- m[i][s]: the maximum covered cost of a box in a slice (R357); cells outside the grid count at `outside` (R356). -/
def Bank.boxCost (b : Bank) (outside slice : Nat) (x : FootBox) : Nat :=
  ((x.cells b.hdr.originX b.hdr.originY).map fun c => if inGrid c then b.cost (cellKey slice (cellNum c)) else outside).foldl max 0

/-- The costs of an edge's boxes in every slice. -/
def Bank.edgeCosts (b : Bank) (set : PlanSet) (e : ActiveEdge) : List (List Nat) :=
  e.boxes.map fun x => (List.range set.n).map fun sl => b.boxCost set.outside sl x

/-- R358: the slices in which an edge entered in slice `d` has a box at `t`. -/
def sliceSpan (set : PlanSet) (d t : Nat) : List Nat :=
  let lo := min (set.n - 1) ((d * set.delta + t) / set.delta)
  let hi := min (set.n - 1) (((d + 1) * set.delta + t - 1) / set.delta)
  (List.range (hi + 1 - lo)).map (lo + ·)

/-- R358: risk[d] of an edge from its boxes' costs. -/
def riskOf (set : PlanSet) (boxes : List FootBox) (m : List (List Nat)) (d : Nat) : Nat :=
  ((boxes.zip m).flatMap fun x => (sliceSpan set d x.1.t).map (nth 0 x.2)).foldl max 0

/-- R359: an edge is dirty against an edition: its boxes cover a cell of the change list, in any slice. -/
def Changes.dirties (c : Changes) (e : ActiveEdge) : Bool :=
  c.overflow || e.boxes.any fun b => c.cells.any fun k =>
    b.covers c.originX c.originY (((k % 1048576 / 1024 : Nat) : Int), ((k % 1024 : Nat) : Int))

/-- Steps from an edition number to a later one: the number after 0xFFFF_FFFF is 1 (R353). -/
def editionSteps (a b : Nat) : Nat := if a ≤ b then b - a else b + 0xFFFFFFFF - a

/-- The next edition number (R353). -/
def nextEdition (n : Nat) : Nat := if n = 0xFFFFFFFF then 1 else n + 1

/-- R359, R379: an edge is dirty against any edition after `lo` up to `hi`; a change list that is no longer held counts as
overflowed. -/
def PlannerState.dirty (p : PlannerState) (lo hi : Nat) (e : ActiveEdge) : Bool :=
  let n := editionSteps lo hi
  let between := p.changes.filter fun c => 0 < editionSteps lo c.edition && editionSteps lo c.edition ≤ n
  lo != hi && (between.length < n || between.any (·.dirties e))

/-- The bank that holds an edition. -/
def PlannerState.bank? (p : PlannerState) (e : Nat) : Option Bank := p.banks.find? fun b => b.edition == e

/-! ### The active window (R355) -/

/-- The bounding circle of an edge overlaps the grid. -/
def MapEdge.eligible (e : MapEdge) (ox oy : Int) : Bool :=
  let near (o c : Int) : Int := max 0 (max (o - c) (c - (o + gridCm)))
  decide (sq (near ox e.bx) + sq (near oy e.by_) ≤ sq e.br)

/-- The active edges, in ascending order of their distance from the pose, ties to the lower index. -/
def RoadMap.window (m : RoadMap) (img : List Byte) (h : EditionHdr) (most : Nat) : List ActiveEdge :=
  let es := ((List.range m.edges).map fun i => (i, m.edge img i)).filter fun e => e.2.eligible h.originX h.originY
  let sorted := sortBy (fun (e : Nat × MapEdge) => (sq (e.2.bx - h.poseX) + sq (e.2.by_ - h.poseY)).toNat) es
  (sorted.take most).map fun e =>
    { num := e.1, src := e.2.src, dst := e.2.dst, base := e.2.base, duration := e.2.duration, boxes := m.boxesOf img e.2 }

end Sys2Proof.Machine
end

