-- ==== Sys2Proof/Machine/PlanSearch.lean ====
section
/-! DEFINITION. The wavefront (R362 … R364), the search and the ranking of candidates (R365 … R367). -/

namespace Sys2Proof.Machine

/-! ### The wavefront (R362, R363) -/

/-- The value of an unreached cell, and the largest sum. -/
def unreached : Nat := 0xFFFFFFFF
def waveMax : Nat := 0xFFFFFFFE

/-- The octile distance between two cells, in cost units. -/
def octile (a b : Int × Int) : Nat :=
  let dr := (a.1 - b.1).natAbs
  let dc := (a.2 - b.2).natAbs
  10 * max dc dr + 4 * min dc dr

/-- The cell of a map position in a grid, as (row, column). -/
def EditionHdr.cell (h : EditionHdr) (x y : Int) : Int × Int := (cellOf h.originY y, cellOf h.originX x)

/-- The border cells of the grid. -/
def borderCells : List (Int × Int) :=
  (List.range gridSide).flatMap fun r =>
    if r = 0 ∨ r = gridSide - 1 then (intsFrom 0 gridSide).map fun c => ((r : Int), c)
    else [((r : Int), (0 : Int)), ((r : Int), 1023)]

/-- The seeds: the goal's cell, or every border cell when the goal lies outside the grid. -/
def waveSeeds (goal : Int × Int) : Tbl Nat :=
  if inGrid goal then tblSet unreached [] (cellNum goal) 0
  else borderCells.foldl (fun t c => tblSet unreached t (cellNum c) (min waveMax (octile c goal))) []

/-- One grid as the wavefront sees it: slice 0 of e_s, with PLN_CHECK.block and PLN_WF.k. -/
structure WaveGrid where
  bank : Bank
  block : Nat
  k : Nat

/-- A cell may be entered. -/
def WaveGrid.passable (g : WaveGrid) (c : Int × Int) : Bool := g.bank.cost (cellNum c) < g.block
/-- The weight of a cell. -/
def WaveGrid.weight (g : WaveGrid) (c : Int × Int) : Nat := 1 + g.bank.cost (cellNum c) * g.k / 256

/-- The steps into a cell: from where, and whether diagonally. -/
def stepOffsets : List (Int × Int) := [(-1, -1), (-1, 0), (-1, 1), (0, -1), (0, 1), (1, -1), (1, 0), (1, 1)]

/-- The value that a step from a neighbour gives a cell. -/
def WaveGrid.stepInto (g : WaveGrid) (t : Tbl Nat) (c o : Int × Int) : Nat :=
  let n := (c.1 + o.1, c.2 + o.2)
  let diagonal := o.1 != 0 && o.2 != 0
  if ¬ inGrid n ∨ (diagonal ∧ ¬ (g.passable (c.1, n.2) ∧ g.passable (n.1, c.2))) then unreached
  else
    let v := tblGet unreached t (cellNum n)
    if v = unreached then unreached else min waveMax (v + (if diagonal then 14 else 10) * g.weight c)

/-- Relax one cell from its eight neighbours. -/
def WaveGrid.relax (g : WaveGrid) (t : Tbl Nat) (c : Int × Int) : Tbl Nat :=
  if ¬ g.passable c then t
  else tblSet unreached t (cellNum c) ((stepOffsets.map (g.stepInto t c)).foldl min (tblGet unreached t (cellNum c)))

/-- The four directions in their cycle: south-east, south-west, north-east, north-west; rows rise to the north. -/
def passRows (north : Bool) : List Int := if north then intsFrom 0 1024 else (intsFrom 0 1024).reverse
def passCols (west : Bool) : List Int := if west then (intsFrom 0 1024).reverse else intsFrom 0 1024

/-- Pass `i`: all cells, in the order of its direction. -/
def WaveGrid.pass (g : WaveGrid) (i : Nat) (t : Tbl Nat) : Tbl Nat :=
  (passRows (2 ≤ i % 4)).foldl (fun t r => (passCols (i % 2 == 1)).foldl (fun t c => g.relax t (r, c)) t) t

/-- Passes from number `i` on, `fuel` of them left: the values, the passes made and whether the limit stopped them. `base` is
the table at the start of the cycle of four. -/
def WaveGrid.run (g : WaveGrid) (i : Nat) (base t : Tbl Nat) : Nat → Tbl Nat × Nat × Bool
  | 0 => (t, i, true)
  | fuel + 1 =>
    let t1 := g.pass i t
    if i % 4 = 3 then
      if t1 = base then (t1, i + 1, false) else g.run (i + 1) t1 t1 fuel
    else g.run (i + 1) base t1 fuel

/-- R364: the heuristic of a node. -/
def Round.heuristic (r : Round) (h : EditionHdr) (n : MapNode) : Nat :=
  let c := h.cell n.x n.y
  let goal := (r.nodes.find? fun x => x.num == r.goal).getD {}
  let v := if inGrid c then tblGet unreached r.wave (cellNum c) else unreached
  if v = unreached then octile c (h.cell goal.x goal.y) else v

/-! ### The search (R365) -/

/-- A state of the search: its path is held last edge first. -/
structure SearchState where
  node : Nat
  t : Nat
  path : List (Nat × Nat × Nat)
  g : Nat
  h : Nat
  born : Nat
  deriving DecidableEq, Repr

/-- The order in which states leave the open list: f, g, node, creation. -/
def SearchState.before (a b : SearchState) : Bool :=
  let fa := a.g + a.h
  let fb := b.g + b.h
  fa < fb || (fa == fb && (a.g < b.g || (a.g == b.g && (a.node < b.node || (a.node == b.node && a.born < b.born)))))

/-- Insert in that order. -/
def openInsert (x : SearchState) : List SearchState → List SearchState
  | [] => [x]
  | y :: r => if x.before y then x :: y :: r else y :: openInsert x r

/-- States that the open list holds. -/
def openMax : Nat := 65536

/-- Of two states the one that is dropped first: the higher f, then the later creation. -/
def SearchState.worse (a b : SearchState) : SearchState :=
  if b.g + b.h < a.g + a.h ∨ (a.g + a.h = b.g + b.h ∧ b.born < a.born) then a else b

/-- Add a state; a full list drops its worst. -/
def openAdd (x : SearchState) (l : List SearchState) : List SearchState :=
  let l1 := openInsert x l
  if l1.length ≤ openMax then l1
  else match l1 with
    | [] => []
    | y :: r => let w := r.foldl SearchState.worse y
      l1.filter (· != w)

/-- The search as it stands. -/
structure Search where
  open_ : List SearchState
  expanded : Tbl Nat := []
  expansions : Nat := 0
  born : Nat := 1
  found : List Candidate := []
  /-- the expanded state with the lowest heuristic -/
  best : Option SearchState := none

/-- The window's part of a node: its active outgoing edges in index order, and whether one is not active. -/
def Round.outEdges (r : Round) (n : MapNode) : List ActiveEdge :=
  (List.range n.count).filterMap fun k => r.window.find? fun e => e.num == n.first + k

/-- R355: a window exit. -/
def Round.isExit (r : Round) (n : MapNode) : Bool := n.num != r.goal && (r.outEdges n).length < n.count

/-- A node of the window by its number. -/
def Round.node? (r : Round) (n : Nat) : Option MapNode := r.nodes.find? fun x => x.num == n

/-- A node is an end of an active edge. -/
def Round.inWindow (r : Round) (n : Nat) : Bool := r.window.any fun e => e.src == n || e.dst == n

/-- The risk of an active edge at a departure slice, as of its checker's results. -/
def Round.risk (r : Round) (e : ActiveEdge) (d : Nat) : Nat :=
  match r.costs.find? fun c => c.1 == e.num with
  | some (_, m) => riskOf r.set e.boxes m d
  | none => 0

/-- The departure slice of a time (R365). -/
def PlanSet.slice (set : PlanSet) (t : Nat) : Nat := min (set.n - 1) (t / set.delta)

/-- The successor of a state over an edge: none when it is not free (R365). -/
def Round.succ (r : Round) (h : EditionHdr) (x : SearchState) (e : ActiveEdge) (born : Nat) : Option SearchState :=
  let d := r.set.slice x.t
  let k := r.risk e d
  match r.node? e.dst with
  | none => none
  | some n =>
    if k < r.set.block then
      some { node := e.dst, t := x.t + e.duration, path := (e.num, d, x.t) :: x.path, g := x.g + e.base + r.set.riskWeight * k
             h := r.heuristic h n, born := born }
    else none

/-- Expand a state. -/
def Round.expand (r : Round) (h : EditionHdr) (x : SearchState) (n : MapNode) (s : Search) : Search :=
  let s1 : Search := { s with
    expanded := tblMod 0 s.expanded x.node (· + 1), expansions := s.expansions + 1
    best := match s.best with
      | none => some x
      | some b => if x.h < b.h || (x.h == b.h && { x with h := 0 }.before { b with h := 0 }) then some x else some b }
  if 64 ≤ x.path.length then s1
  else (r.outEdges n).foldl (fun s e =>
    match r.succ h x e s.born with
    | some y => { s with open_ := openAdd y s.open_, born := s.born + 1 }
    | none => s) s1

/-- The search from a state, ending after `most` expansions (R365, R366). -/
def Round.search (r : Round) (h : EditionHdr) (most : Nat) (s : Search) : Nat → Search
  | 0 => s
  | fuel + 1 =>
    match s.open_ with
    | [] => s
    | x :: rest =>
      if r.wanted ≤ s.found.length ∨ most ≤ s.expansions then s
      else
        let s1 : Search := { s with open_ := rest }
        match r.node? x.node with
        | none => r.search h most s1 fuel
        | some n =>
          if n.num = r.goal ∨ r.isExit n then
            let c : Candidate := { path := x.path.reverse, cost := x.g + (if n.num = r.goal then 0 else x.h), goal := n.num == r.goal }
            r.search h most { s1 with found := s1.found ++ [c] } fuel
          else if r.set.nodeLimit ≤ tblGet 0 s.expanded x.node then r.search h most s1 fuel
          else r.search h most (r.expand h x n s1) fuel

/-- Steps of the search that suffice: each creates at most eight states. -/
def searchFuel (most : Nat) : Nat := 8 * most + 2

/-- Candidate order: cost, fewer edges, lower edge indices in path order (R367). -/
def Candidate.before (a b : Candidate) : Bool :=
  a.cost < b.cost || (a.cost == b.cost && (a.path.length < b.path.length ||
    (a.path.length == b.path.length && lexLt (a.path.map (·.1)) (b.path.map (·.1)))))
where
  /-- Lexicographic order. -/
  lexLt : List Nat → List Nat → Bool
    | x :: xs, y :: ys => x < y || (x == y && lexLt xs ys)
    | _, _ => false

/-- Rank candidates (R367): equal ones keep their order. -/
def rank (cs : List Candidate) : List Candidate :=
  cs.foldl (fun l c => (l.filter fun x => !c.before x) ++ [c] ++ l.filter fun x => c.before x) []

/-- Run the search of a round for at most `most` expansions, and rank what it finds (R365 … R367, R379: a start node outside
the window finds nothing). A search that the limit ends before R366 does has stopped (R370). -/
def Round.runSearch (r : Round) (h : EditionHdr) (most : Nat) (limited : Bool) : Round :=
  let full := r.set.maxExpand * 1024
  let most := min most full
  match r.node? r.start with
  | none => r
  | some n =>
    if ¬ r.inWindow r.start then r
    else
      let s0 : Search := { open_ := [{ node := r.start, t := r.startMs, path := [], g := 0, h := r.heuristic h n, born := 0 }] }
      let s := r.search h most s0 (searchFuel most)
      let stopped : Bool := limited && !(r.wanted ≤ s.found.length || s.open_.isEmpty || full ≤ s.expansions)
      let partial_ : Option Candidate := if stopped ∧ s.found = [] then
        s.best.map (fun b => { path := b.path.reverse, cost := Config.partialCost b.g b.h, goal := false }) else none
      { r with found := rank s.found, expansions := s.expansions, stopped := stopped
               partialPath := partial_ }

end Sys2Proof.Machine
end

