-- ==== Sys2Proof/Machine/PlanOutput.lean ====
section
/-! DEFINITION. The output stage of the planner (R368 … R370), the stop profile (R369, R415) and the trajectory record (R372,
R373). -/

namespace Sys2Proof.Machine

/-! ### Points -/

/-- A trajectory point: map position in cm, heading, speed in cm/s. -/
structure TrajPoint where
  x : Int := 0
  y : Int := 0
  heading : Nat := 0
  speed : Nat := 0
  deriving DecidableEq, Repr

/-- A quotient rounded to the nearest integer, ties to even. -/
def rneDiv (n : Int) (d : Nat) : Int :=
  let q := n.fdiv d
  let r := (n.fmod d).toNat
  if d < 2 * r ∨ (2 * r = d ∧ q % 2 = 1) then q + 1 else q

/-- The square root of a natural number rounded to the nearest integer; a tie cannot occur. -/
def nearRoot (n : Nat) : Nat :=
  let r := isqrt n
  if r * r + r < n then r + 1 else r

/-- The part `k` of `n` of the way from one heading to another on the shorter arc. -/
def headingBetween (a b k n : Nat) : Nat :=
  wrapTo 16 ((a : Int) + rneDiv (sbits (b + 65536 - a % 65536) 16 * (k : Int)) n)

/-- The part `k` of `n` of the way from one point to another; speed 0. -/
def pointBetween (p q : TrajPoint) (k n : Nat) : TrajPoint :=
  { x := p.x + rneDiv ((q.x - p.x) * (k : Int)) n, y := p.y + rneDiv ((q.y - p.y) * (k : Int)) n
    heading := headingBetween p.heading q.heading k n }

/-! ### Points of a path (R373) -/

/-- The box centres of a path with their absolute times in ms. -/
def Round.pathBoxes (r : Round) (path : List (Nat × Nat × Nat)) : List (Nat × TrajPoint) :=
  path.flatMap fun x => match r.window.find? fun e => e.num == x.1 with
    | some e => e.boxes.map fun b => (x.2.2 + b.t, { x := b.cx, y := b.cy, heading := b.heading })
    | none => []

/-- The place of a point `ms` before the first box of its path (free). -/
def leadPlace (ms : Nat) (p : TrajPoint) : TrajPoint :=
  let q := Config.leadPoint ms p.x p.y p.heading
  { x := q.1, y := q.2.1, heading := q.2.2 % 65536 }

/-- The place at a time between two consecutive box centres. -/
def placeAt (t : Nat) : List (Nat × TrajPoint) → TrajPoint
  | [] => {}
  | [b] => if t < b.1 then leadPlace (b.1 - t) b.2 else b.2
  | a :: b :: rest =>
    if b.1 ≤ t then placeAt t (b :: rest)
    else if t < a.1 then leadPlace (a.1 - t) a.2
    else pointBetween a.2 b.2 (t - a.1) (b.1 - a.1)

/-- The speed over 0.1 s from one point to the next, in cm/s. -/
def speedTo (p q : TrajPoint) : Nat := nearRoot (100 * (sq (q.x - p.x) + sq (q.y - p.y))).toNat

/-- Give each point its speed: the last repeats the one before it, and a single point has 0. -/
def withSpeeds (prev : Nat) : List TrajPoint → List TrajPoint
  | [] => []
  | [p] => [{ p with speed := prev }]
  | p :: q :: rest => { p with speed := speedTo p q } :: withSpeeds (speedTo p q) (q :: rest)

/-- The points of a path: up to 80, every 100 ms from `start`, to the end of the path. -/
def Round.pathPoints (r : Round) (path : List (Nat × Nat × Nat)) : List TrajPoint :=
  let bs := r.pathBoxes path
  match bs.getLast? with
  | none => []
  | some z =>
    let ts := ((List.range 80).map fun k => r.startMs + 100 * k).filter (· ≤ z.1)
    withSpeeds 0 (ts.map fun t => placeAt t bs)

/-! ### The stop profile (R369) -/

/-- The capped speed of point `k` in tenths of a cm/s: at most v_0 less the deceleration, and 0 once it has reached 0. -/
def capSpeeds (v0 decel k : Nat) (halted : Bool) : List TrajPoint → List Nat
  | [] => []
  | p :: rest =>
    let v := if halted then 0 else min (10 * p.speed) (10 * v0 - decel * k)
    v :: capSpeeds v0 decel (k + 1) (halted || v == 0) rest

/-- The place at `dist` hundredths of a cm along a polyline. -/
def alongLine (dist : Nat) : List TrajPoint → TrajPoint
  | [] => {}
  | [p] => p
  | p :: q :: rest =>
    let n := isqrt (10000 * (sq (q.x - p.x) + sq (q.y - p.y))).toNat
    if dist < n then pointBetween p q dist n else alongLine (dist - n) (q :: rest)

/-- Distances covered before each point at the given speeds. -/
def distances (d : Nat) : List Nat → List Nat
  | [] => []
  | v :: rest => d :: distances (d + v) rest

/-- Cap the speeds of points 100 ms apart, and re-sample their positions on the same polyline. -/
def stopProfile (decel : Nat) (ps : List TrajPoint) : List TrajPoint :=
  let vs := capSpeeds (ps.headD {}).speed decel 0 false ps
  ((distances 0 vs).zip vs).map fun x => { alongLine x.1 ps with speed := (rneDiv (x.2 : Int) 10).toNat }

/-! ### The trajectory record (R372) -/

/-- The fields of a record. -/
structure TrajRecord where
  es : Nat := 0
  eout : Nat := 0
  frame : Nat := 0
  source : Nat := 3
  complete : Bool := false
  incomplete : Bool := false
  mapChanged : Bool := false
  rank : Nat := 0
  path : List (Nat × Nat) := []
  cost : Nat := 0
  found : Nat := 0
  coverage : Nat := 0
  tau : Int := 0
  startMs : Nat := 0
  expansions : Nat := 0
  points : List TrajPoint := []
  deriving DecidableEq, Repr

/-- Bytes of a record. -/
def recordBytes : Nat := 1024

/-- The record as its bytes. -/
def TrajRecord.bytes (t : TrajRecord) : List Byte :=
  let anchor : Int × Int := match t.points with
    | p :: _ => (p.x, p.y)
    | [] => Config.emptyAnchor
  let cost := if t.cost < 2 ^ 32 then t.cost else Config.wideCost t.cost
  let head := toLe 4 t.es ++ toLe 4 t.eout ++ toLe 4 t.frame ++ toLe 1 t.source ++
    toLe 1 (b2n t.complete + 2 * b2n t.incomplete + 4 * b2n t.mapChanged) ++ toLe 1 (min t.rank 255) ++ toLe 1 t.path.length ++
    toLe 4 cost ++ toLe 2 t.found ++ toLe 2 t.coverage ++ toLe 8 (wrapTo 64 t.tau) ++ le32 anchor.1 ++ le32 anchor.2 ++
    toLe 2 t.points.length ++ toLe 2 100 ++ toLe 4 t.expansions ++ toLe 2 t.startMs
  let edges := t.path.flatMap fun x => toLe 4 (x.2 * 2 ^ 28 + x.1)
  let pts := t.points.flatMap fun p =>
    toLe 2 (wrapTo 16 (p.x - anchor.1)) ++ toLe 2 (wrapTo 16 (p.y - anchor.2)) ++ toLe 2 p.heading ++ toLe 2 p.speed
  padTo recordBytes (padTo 64 head ++ padTo 256 edges ++ pts)

/-- The source, the points and the time of point 0 of a record's bytes. -/
def recordSource (r : List Byte) : Nat := leAt r 12 1
def recordTau (r : List Byte) : Int := sbits (leAt r 24 8) 64
def recordStart (r : List Byte) : Nat := leAt r 48 2
def recordPoints (r : List Byte) : List TrajPoint :=
  (List.range (min 80 (leAt r 40 2))).map fun k =>
    let o := 320 + 8 * k
    { x := int32At r 32 + sbits (leAt r o 2) 16, y := int32At r 36 + sbits (leAt r (o + 2) 2) 16, heading := leAt r (o + 4) 2
      speed := leAt r (o + 6) 2 }

/-- The points of a record from a time (ns after `tau`) on, with the time of the first of them. -/
def remainingPoints (r : List Byte) (tau from_ : Int) : Option (Int × List TrajPoint) :=
  let ps := recordPoints r
  let at_ (k : Nat) : Int := ((recordStart r + 100 * k : Nat) : Int) * 1000000 + recordTau r - tau
  match ((List.range ps.length).filter fun k => from_ ≤ at_ k) with
  | [] => none
  | k :: _ => some (at_ k, ps.drop k)

/-- R369: the fall-back trajectory against an edition: its points and the time of point 0 in ms. -/
def fallbackPoints (last : List Byte) (h : EditionHdr) (startMs decel : Nat) : List TrajPoint × Nat :=
  match remainingPoints last h.tau ((startMs : Int) * 1000000) with
  | none => ([{ x := h.poseX, y := h.poseY, heading := h.heading }], startMs)
  | some (t, ps) => (stopProfile decel ps, (t / 1000000).toNat)

/-! ### Revalidation (R368) -/

/-- What the output stage has found out so far. -/
structure Reval where
  failed : List (Nat × Nat) := []
  rechecks : Nat := 0
  fails : Nat := 0
  deriving DecidableEq, Repr

/-- Re-check a path against the bank of e_out: whether it passes. -/
def Round.revalidate (r : Round) (p : PlannerState) (b : Bank) (c : Candidate) (v : Reval) : Reval × Bool :=
  if c.path.any fun x => v.failed.contains (x.1, x.2.1) then ({ v with fails := v.fails + 1 }, false)
  else
    let dirty := c.path.filter fun x => r.window.any fun e => e.num == x.1 && p.dirty r.es r.eout e
    let bad := dirty.filter fun x => r.window.any fun e =>
      e.num == x.1 && r.set.block ≤ riskOf r.set e.boxes (b.edgeCosts r.set e) x.2.1
    let v1 : Reval := { v with rechecks := v.rechecks + dirty.length, failed := v.failed ++ bad.map fun x => (x.1, x.2.1) }
    if bad = [] then (v1, true) else ({ v1 with fails := v1.fails + 1 }, false)

/-- The first candidate in rank order that passes, with its rank. -/
def Round.firstPass (r : Round) (p : PlannerState) (b : Bank) (k : Nat) (v : Reval) : List Candidate → Reval × Option (Nat × Candidate)
  | [] => (v, none)
  | c :: rest =>
    let x := r.revalidate p b c v
    if x.2 then (x.1, some (k, c)) else r.firstPass p b (k + 1) x.1 rest

/-- The part of the candidates asked for that a stopped search has found (R370). -/
def Round.coverage (r : Round) : Nat :=
  if r.stopped || r.missed then r.found.length * 65535 / max 1 r.wanted else 65535

/-- R370: the record of a round and its status contribution. `late`: the limit has passed. -/
def Round.output (r : Round) (p : PlannerState) (late : Bool) : TrajRecord × Nat × Reval :=
  let b := (p.bank? r.eout).getD {}
  let frame := match r.for_ with
    | .frame _ f => f
    | .request _ => 0
  let base : TrajRecord :=
    { es := r.es, eout := r.eout, frame := frame, incomplete := r.incomplete, mapChanged := p.nextMap.isSome
      found := r.found.length, coverage := r.coverage, tau := b.hdr.tau, startMs := r.startMs, expansions := r.expansions }
  let take (c : Candidate) (src k : Nat) (full : Bool) : TrajRecord :=
    { base with source := src, complete := full, rank := k, path := c.path.map (fun x => (x.1, x.2.1)), cost := c.cost
                points := r.pathPoints c.path }
  let back : TrajRecord :=
    let x := fallbackPoints p.lastReleased b.hdr r.startMs r.set.decel
    { base with source := 3, points := x.1, startMs := x.2 }
  let x := if late then ({}, none) else r.firstPass p b 0 {} r.found
  match x.2 with
  | some (k, c) => (take c (if k = 0 then 0 else 1) k true, if r.stopped then Status.PARTIAL else Status.OK, x.1)
  | none =>
    match r.partialPath with
    | some c =>
      let y := if late ∨ c.path = [] then (x.1, false) else r.revalidate p b c x.1
      let v : Reval := { y.1 with fails := x.1.fails }
      if y.2 then ({ take c 2 0 false with coverage := 0 }, Status.PARTIAL, v) else (back, Status.FALLBACK, v)
    | none => (back, Status.FALLBACK, x.1)

end Sys2Proof.Machine
end

