-- ==== Sys2Proof/Machine/Planner.lean ====
section
/-! DEFINITION. The planners: editions and their staging (R350 … R354), rounds (R355 … R361, R377), the pair compare (R375), and
the MAP_EDITION and PLAN_REQ packets (R262, R378). -/

namespace Sys2Proof.Machine

/-! ### Settings (R381) -/

/-- The settings of a hub's planner registers (R381). -/
def State.planSet (s : State) (h : Nat) : PlanSet :=
  let sl := s.reg (ra .PLN_SLICES h)
  let ck := s.reg (ra .PLN_CHECK h)
  let wf := s.reg (ra .PLN_WF h)
  let se := s.reg (ra .PLN_SEARCH h)
  let o := s.reg (ra .PLN_OUT h)
  { n := bits sl 3 0 + 1, delta := bits sl 31 16, block := bits ck 7 0, riskWeight := bits ck 15 8, outside := bits ck 23 16
    k := bits wf 7 0, maxPasses := bits wf 16 8, maxExpand := bits se 9 0, nodeLimit := bits se 19 16, guard := bits o 15 0
    decel := bits o 31 16, max := bits (s.reg (ra .PLN_WINDOW h)) 13 0 }

/-- The settings in force outside a round (R381): those of the round in progress, else of the registers. -/
def State.planSetNow (s : State) (h : Nat) : PlanSet := match (s.planner h).round with
  | some r => r.set
  | none => s.planSet h

/-! ### Enabling (R350) -/

/-- PLANNER_ENABLE: a write to PLN_CFG, package-wide; an edition edge that does not fit refuses the enable. -/
def State.writePlanner (s : State) (h : Nat) (v : Word) : State :=
  s.rwl h (ra .PLN_CFG h) fun s =>
    let v := maskReg (ra .PLN_CFG h) v
    let bad : Bool := match s.graph? (bits v 29 24) with
      | some gr => editionEdgeBad gr.bundle (bits v 15 0)
      | none => false
    if v.getLsbD 31 ∧ bad then (s.setBoth .PLN_CFG 0 (v &&& 0x7FFFFFFF)).raise .PLN h 6 (bits v 29 24)
    else s.setBoth .PLN_CFG 0 v

/-! ### Numbering (R353) -/

/-- The leader gives the next number, stages the edition, and sends it to the follower. -/
def State.orderEdition (s : State) (planners : Nat) (what : Staging) : State × Nat :=
  let n := nextEdition s.pln.lastNumber
  let j : StageJob := { edition := n, planners := planners, what := what }
  let lead := s.planLeader
  let s1 := ({ s with pln := { s.pln with lastNumber := n } }).modPlanner lead fun p => { p with staging := p.staging ++ [j] }
  let others := s.plannersOn.filter (· != lead)
  ({ s1 with pln := { s1.pln with orders := s1.pln.orders ++ others.map fun h => (h, j) } }, n)

/-- EDITION_ORDER: the follower receives the next edition in the leader's order. -/
def State.editionOrder (s : State) (h : Nat) : State :=
  match takeFirst (fun (x : Nat × StageJob) => x.1 == h) s.pln.orders with
  | none => s
  | some ((_, j), rest) =>
    ({ s with pln := { s.pln with orders := rest } }).modPlanner h fun p => { p with staging := p.staging ++ [j] }

/-! ### The edition token (R351) -/

/-- The header of an edition copy. -/
def readEditionHdr (b : List Byte) : EditionHdr :=
  { frame := leAt b 0 4, tau := sbits (leAt b 8 8) 64, originX := int32At b 16, originY := int32At b 20, poseX := int32At b 24
    poseY := int32At b 28, heading := leAt b 32 2, startMs := leAt b 34 2, start := leAt b 36 2, goal := leAt b 38 2
    candidates := leAt b 40 2, budget := leAt b 44 4 }

/-- R351: what an edition header keeps to. Without a road map in force its nodes are not looked up (R348). -/
def State.editionOk (s : State) (h f : Nat) (b : List Byte) : Bool :=
  let x := readEditionHdr b
  let p := s.planner h
  x.frame == f && leAt b 48 4 == f && x.startMs ≤ 8000 && 1 ≤ x.candidates && x.candidates ≤ 2048 && 100 ≤ x.budget &&
  x.budget ≤ 1000000 && (p.run != .READY || (x.start < p.map.nodes && x.goal < p.map.nodes))

/-- EDITION_TOKEN: the planner takes the token of frame `f` of the bound graph. -/
def State.editionToken (s : State) (f : Nat) : State :=
  let h := s.planLeader
  let c := s.reg (ra .PLN_CFG h)
  let g := bits c 29 24
  match s.graph? g with
  | none => s
  | some gr =>
    match gr.frame? f with
    | none => s
    | some fr =>
      if ¬ c.getLsbD 31 ∨ ¬ s.plannerRuns h ∨ fr.withheld ∨ fr.planned ∨ ¬ fr.tokens.contains (bits c 15 0, 0) ∨
          ¬ s.letThrough gr f then s
      else
        let base := editionCopy (gr.edgeBuffer (bits c 15 0)) f
        let (b, poison) := s.readMem base 64
        let s1 := s.modFrame g f fun fr => { fr with planned := true }
        if poison then s1.withhold g f Status.DATA_POISON
        else if ¬ s1.editionOk h f b then (s1.withhold g f Status.INVALID).log .EDITION_BAD (4 + h) [g, f]
        else (s1.orderEdition 3 (.graph g f base (readEditionHdr b) s.now)).1

/-! ### Staging (R352, R354) -/

/-- The editions whose banks staging may not write: the newest, those of waiting frame rounds, those pinned by the round in
progress, and on the follower those that a cut may still name (log 31). -/
def PlannerState.keeps (p : PlannerState) (h e : Nat) : Bool :=
  e == p.newest || p.frameRounds.any (fun x => x.2.2.1 == e) || p.cuts.any (fun c => c.value == e) ||
  (match p.round with
   | none => false
   | some r =>
     let follows := r.paired && r.leader != h
     match r.phase with
     | .check => r.er == e || (follows && editionSteps r.er e ≤ 8)
     | .recheck | .wavefront => r.es == e || (follows && editionSteps r.es e ≤ 8)
     | .search => follows && editionSteps r.es e ≤ 8
     | .output => r.eout == e || (r.eout == 0 && follows))

/-- The cells of an edition copy: slice `s` follows its page at s × 1 MiB. -/
def sliceCells (bs : List Byte) : Tbl Nat := ((List.range bs.length).zip bs).filterMap fun x =>
  if x.2 = 0 then none else some (x.1, x.2.toNat)

/-- The cells whose cost differs between two banks. -/
def changedCells (n : Nat) (a b : Bank) : List Nat := (List.range (cellKey n 0)).filter fun k => a.cost k != b.cost k

/-- Cells that a change list holds, and the lists that are kept. -/
def changeMax : Nat := 65536
def changesKept : Nat := 8

/-- The cell key and cost of a DELTA entry (R262). -/
def deltaCell (e : Nat) : Nat × Nat := (cellKey (bitsN e 31 28) (bitsN e 27 18 * 1024 + bitsN e 17 8), bitsN e 7 0)

/-- Put a staged bank in place. -/
def PlannerState.install (p : PlannerState) (h n : Nat) (b : Bank) (noChange : Bool) : PlannerState :=
  let old := (p.bank? p.newest).getD {}
  let cells := if noChange then [] else changedCells n old b
  let c : Changes := { edition := b.edition, cells := cells.take changeMax, overflow := changeMax < cells.length || p.spoiled
                       originX := b.hdr.originX, originY := b.hdr.originY }
  { p with banks := (p.banks.filter fun x => p.keeps h x.edition) ++ [b], newest := b.edition, overlay := b.overlay
           changes := (p.changes ++ [c]).drop (p.changes.length + 1 - changesKept), spoiled := false }

/-- Put a road map that is staged in force when no round runs. -/
def PlannerState.takeMap (p : PlannerState) : PlannerState :=
  match p.round, p.nextMap with
  | none, some m => { p with map := m, nextMap := none, run := .READY }
  | _, _ => p

/-- EDITION_STAGE_DONE: the oldest edition that a planner stages is staged, once a bank is free. -/
def State.stageDone (s : State) (h : Nat) : State :=
  let p := s.planner h
  match p.staging with
  | [] => s
  | j :: rest =>
    if ¬ s.plannerRuns h ∨ 3 ≤ (p.banks.filter fun x => p.keeps h x.edition).length then s
    else
      let n := (s.planSetNow h).n
      let p0 := { p with staging := rest }
      let old := { (p.bank? p.newest).getD {} with edition := j.edition, overlay := p.overlay }
      let named := bitN j.planners h
      let s1 := match j.what with
        | .graph g f base hdr at_ =>
          let (bs, poison) := s.readMem (base + 0x1000) (n * 1048576)
          if poison then (s.modPlanner h fun _ => p0.install h n old true).withhold g f Status.DATA_POISON
          else
            let b : Bank := { edition := j.edition, hdr := hdr, cells := sliceCells bs, overlay := p.overlay }
            s.modPlanner h fun _ =>
              let q := p0.install h n b false
              { q with frameRounds := q.frameRounds ++ [(g, f, j.edition, at_)] }
        | .delta es =>
          let o := if named then es.foldl (fun t e => tblSet 0 t (deltaCell e).1 (deltaCell e).2) p.overlay else p.overlay
          s.modPlanner h fun _ => p0.install h n { old with overlay := o } (!named)
        | .roadmap m =>
          s.modPlanner h fun _ =>
            let q := p0.install h n old true
            if named then { q with nextMap := some m }.takeMap else q
      s1.stagedBy h j.edition

/-! ### MAP_EDITION (R262, R347, R352) -/

/-- The planners field of MAP_EDITION and PLAN_REQ names a planner. -/
def Packet.planners (p : Packet) : Nat := leAt p.header 16 1

/-- What keeps a MAP_EDITION or PLAN_REQ from its planners: a bad mask, or only planners that are lost (R262). -/
def State.plannersBad (s : State) (p : Packet) : Nat :=
  if p.planners = 0 ∨ 3 < p.planners then Status.BAD_PACKET else if s.namedPlanners p.planners = [] then Status.FENCED else 0

/-- The entries of a DELTA. -/
def Packet.deltaEntries (p : Packet) : List Nat := (List.range (leAt p.header 24 4)).map fun i => leAt p.payload (4 * i) 4

/-- Two entries name one cell of one slice. -/
def repeats : List Nat → Bool
  | [] => false
  | x :: r => r.contains x || repeats r

/-- MAP_EDITION_DELTA. -/
def State.mapDelta (s : State) (p : Packet) : State :=
  let n := leAt p.header 24 4
  let es := p.deltaEntries
  let base := leAt p.header 20 4
  let set := s.planSetNow s.planLeader
  let bad : Bool := !zeroFrom p.header 18 2 || !zeroFrom p.header 28 36 || 16384 < n || p.payload.length < 4 * n ||
    !zeroFrom p.payload (4 * n) p.payload.length || es.any (fun e => set.n ≤ bitsN e 31 28) || repeats (es.map fun e => (deltaCell e).1)
  let code := combineStatus [if bad then Status.BAD_PACKET else 0, s.plannersBad p]
  if code ≠ 0 then s.takeFinish p code
  else if n = 0 then s.takeFinish p Status.OK (toLe 4 (s.planner s.planLeader).newest)
  else if base ≠ 0 ∧ base ≠ s.pln.lastNumber then s.takeFinish p Status.NOT_READY
  else
    let (s1, e) := (s.take p).orderEdition p.planners (.delta es)
    { s1 with pln := { s1.pln with waiting := s1.pln.waiting ++ [(e, p, s.namedPlanners p.planners)] } }

/-- MAP_EDITION_ROADMAP. -/
def State.mapRoadmap (s : State) (p : Packet) : State :=
  let bad : Bool := !zeroFrom p.header 18 14 || !zeroFrom p.header 44 20 || !p.payload.isEmpty || 1 < leAt p.header 17 1
  let code := combineStatus [if bad then Status.BAD_PACKET else 0, s.plannersBad p]
  let refuse (ev : Event) (st : Nat) : State :=
    (((s.namedPlanners p.planners).foldl (fun s h => s.raise .PLN h 4) s).log ev (4 + s.planLeader) []).takeFinish p st
  if code ≠ 0 then s.takeFinish p code
  else match s.checkMap (leAt p.header 32 8) (leAt p.header 40 4) with
    | .refused => refuse .ROADMAP_REFUSED Status.BAD_PACKET
    | .digest => refuse .ROADMAP_DIGEST Status.BAD_PACKET
    | .poison => s.takeFinish p Status.DATA_POISON
    | .ok m =>
      let (s1, e) := (s.take p).orderEdition p.planners (.roadmap m)
      { s1 with pln := { s1.pln with waiting := s1.pln.waiting ++ [(e, p, s.namedPlanners p.planners)] } }

/-! ### PLAN_REQ (R262, R360, R377, R378) -/

/-- What a planner's state makes of a PLAN_REQ, at its taking and again when its round would start. -/
def State.requestStatus (s : State) (h : Nat) (p : Packet) : Nat :=
  let x := s.planner h
  let e := leAt p.header 32 4
  combineStatus [if x.run ≠ .READY ∨ (e ≠ 0 ∧ e ≠ x.newest) then Status.NOT_READY else 0,
    if x.run = .READY ∧ (x.map.nodes ≤ leAt p.header 20 4 ∨ x.map.nodes ≤ leAt p.header 24 4) then Status.BAD_PACKET else 0]

/-- Requests that wait at a planner at most (R377). -/
def requestsMax : Nat := 8

/-- PLAN_REQ: a request whose planners' queues are full holds its ring. -/
def State.planReq (s : State) (p : Packet) : State :=
  let n := leAt p.header 18 2
  let hs := s.namedPlanners p.planners
  let bad : Bool := 2048 < n || !zeroFrom p.header 17 1 || !zeroFrom p.header 36 28 || !p.payload.isEmpty
  let code := combineStatus ((if bad then Status.BAD_PACKET else 0) :: (if n = 0 then Status.ZERO_FIELD else 0) :: s.plannersBad p ::
    hs.map fun h => s.requestStatus h p)
  if code ≠ 0 then s.takeFinish p code
  else if hs.any fun h => requestsMax ≤ (s.planner h).requests.length then s.hold p
  else
    let q : PlanRequest := { id := s.pln.nextRequest, pkt := p, planners := p.planners, takenAt := s.now }
    let s1 := s.take p
    hs.foldl (fun s h => s.modPlanner h fun x => { x with requests := x.requests ++ [q] })
      { s1 with pln := { s1.pln with nextRequest := s1.pln.nextRequest + 1, active := s1.pln.active ++ [q] } }

/-! ### Rounds (R355, R360, R377) -/

/-- The leader sends a cut to the follower of a paired round. -/
def State.sendCut (s : State) (h : Nat) (r : Round) (k : CutKind) (v : Nat) : State :=
  if r.paired ∧ r.leader = h then
    { s with pln := { s.pln with cuts := s.pln.cuts ++ [(1 - h, { for_ := r.for_, kind := k, value := v })] } }
  else s

/-- The cut that a planner has for a round. -/
def PlannerState.cut? (p : PlannerState) (x : RoundFor) (k : CutKind) : Option Nat :=
  (p.cuts.find? fun c => c.for_ == x && c.kind == k).map (·.value)

/-- A round that takes its cuts from the leader. -/
def Round.follows (r : Round) (h : Nat) : Bool := r.paired && r.leader != h

/-- The edition of a cut: the newest staged at the leader; at the follower the one received, once it is staged. -/
def State.cutEdition (s : State) (h : Nat) (r : Round) (k : CutKind) : Option Nat :=
  let p := s.planner h
  if r.follows h then match p.cut? r.for_ k with
    | some e => if (p.bank? e).isSome then some e else none
    | none => none
  else some p.newest

/-- A round ends at a planner: a road map that waits takes effect. -/
def State.endRound (s : State) (h : Nat) : State :=
  s.modPlanner h fun p =>
    let keep (c : Cut) : Bool := match p.round with
      | some r => c.for_ != r.for_
      | none => true
    { p with round := none, cuts := p.cuts.filter keep }.takeMap

/-- R355: load the window of a round; without a road map to read, the round has none. -/
def State.loadWindow (s : State) (h : Nat) (r : Round) (hdr : EditionHdr) : State × Round :=
  let p := s.planner h
  let (img, poison) := s.readMem p.map.addr p.map.len
  if p.run ≠ .READY then (s, { r with missed := true })
  else if poison then (s.loseMap h, { r with missed := true })
  else if p.map.nodes ≤ r.start ∨ p.map.nodes ≤ r.goal then (s, { r with missed := true })
  else
    let w := p.map.window img hdr r.set.max
    let ns := ((w.flatMap fun e => [e.src, e.dst]) ++ [r.start, r.goal]).foldl addNew []
    (s, { r with window := w, nodes := ns.map (p.map.node img) })

/-- Start a round on a planner. -/
def State.beginRound (s : State) (h : Nat) (r : Round) : State :=
  let p := s.planner h
  let bank := (p.bank? r.er).getD {}
  let (s1, r1) := s.loadWindow h r bank.hdr
  let eout := if r1.missed ∧ ¬ r1.follows h then p.newest else 0
  let r2 : Round := if r1.missed then { r1 with phase := .output, es := r1.er, eout := eout } else r1
  let s2 := s1.modPlanner h fun p => { p with round := some r2, windowEdges := r2.window.length, lastRound := r2.er }
  if r1.missed then (s2.sendCut h r2 .missed r2.er).sendCut h r2 .eout eout else s2

/-- A request whose round starts waits no longer. -/
def State.unqueue (s : State) (h : Nat) (q : PlanRequest) : State :=
  s.modPlanner h fun p => { p with requests := p.requests.filter fun x => x.id != q.id }

/-- ROUND_START: frame rounds run in frame order and ahead of requests. -/
def State.roundStart (s : State) (h : Nat) : State :=
  let p := s.planner h
  if ¬ s.plannerRuns h ∨ p.round ≠ none then s
  else
    match sortBy (fun (x : Nat × Nat × Nat × Nat) => x.2.1) p.frameRounds with
    | (g, f, e, at_) :: rest =>
      let hdr := ((p.bank? e).getD {}).hdr
      let s1 := s.modPlanner h fun p => { p with frameRounds := rest }
      s1.beginRound h
        { for_ := .frame g f, paired := s.plannersOn.length == 2, leader := s.planLeader, set := s.planSet h, start := hdr.start
          goal := hdr.goal, startMs := hdr.startMs, wanted := hdr.candidates, startedAt := at_, limit := some (at_ + hdr.budget), er := e }
    | [] =>
      match p.requests with
      | [] => s
      | q :: _ =>
        let d := leAt q.pkt.header 28 4
        let paired := (s.namedPlanners q.planners).length == 2
        let r : Round :=
          { for_ := .request q.id, paired := paired, leader := s.planLeader, set := s.planSet h, start := leAt q.pkt.header 20 4
            goal := leAt q.pkt.header 24 4, startMs := Config.requestStartMs p.newest % 8001, wanted := leAt q.pkt.header 18 2
            startedAt := q.takenAt, limit := if d = 0 then none else some (q.takenAt + d), er := p.newest }
        if r.follows h then
          match s.cutEdition h r .er with
          | none => s
          | some e => (s.unqueue h q).beginRound h { r with er := e, startMs := Config.requestStartMs e % 8001 }
        else
          let code := s.requestStatus h q.pkt
          if code ≠ 0 then s.endRequest q code []
          else ((s.unqueue h q).sendCut h r .er r.er).beginRound h r

/-- ROUND_CUT: the follower receives the next cut; that no search runs ends the phases of its round at once. -/
def State.roundCut (s : State) (h : Nat) : State :=
  match takeFirst (fun (x : Nat × Cut) => x.1 == h) s.pln.cuts with
  | none => s
  | some ((_, c), rest) =>
    let s1 := ({ s with pln := { s.pln with cuts := rest } }).modPlanner h fun p => { p with cuts := p.cuts ++ [c] }
    match (s1.planner h).round with
    | some r => if c.kind = .missed ∧ r.for_ = c.for_ then
        s1.modRound h fun r => { r with phase := .output, missed := true, es := c.value, found := [], partialPath := none }
      else s1
    | none => s1

/-- R380: a corrected error is counted; an uncorrectable one stops the round, and with it that of the other planner. -/
def State.planFault (s : State) (h : Nat) : State :=
  match (s.planner h).round with
  | none => s
  | some r =>
    let s1 := ((s.raise .PLN h 1).askTest (36 + h) 1).modPlanner h fun p =>
      { p with banks := p.banks.filter fun b => b.edition != r.er || b.edition == p.newest, spoiled := true }
    let s2 := match r.for_ with
      | .frame g f => { s1 with pln := s1.pln.dropRounds fun w => w == r.for_ }.withhold g f Status.INVALID
      | .request id => match s1.request? id with
        | some q => s1.endRequest q Status.DATA_POISON []
        | none => { s1 with pln := s1.pln.dropRounds fun w => w == r.for_ }
    [0, 1].foldl (fun s h => s.modPlanner h PlannerState.takeMap) s2

/-- Do the work of a phase unless its stores have an uncorrectable error. -/
def State.planPhase (s : State) (h : Nat) (ecc : EccHw) (ph : RoundPhase) (work : State → Round → State) : State :=
  match (s.planner h).round with
  | none => s
  | some r =>
    if r.phase ≠ ph ∨ ¬ s.plannerRuns h then s
    else match ecc with
      | .ue => s.planFault h
      | .ce => work ((s.raise .PLN h 0).satReg (ra .PLN_CE_COUNT h)) r
      | .ok => work s r

/-- CHECK_ROUND_END: every checker has its results; e_s is cut (R357, R360, R361). -/
def State.checkRoundEnd (s : State) (h : Nat) (ecc : EccHw) : State :=
  s.planPhase h ecc .check fun s r =>
    match s.cutEdition h r .es with
    | none => s
    | some e =>
      let b := ((s.planner h).bank? r.er).getD {}
      (s.modRound h fun r => { r with
        costs := r.window.map (fun x => (x.num, b.edgeCosts r.set x)), es := e
        phase := if e = r.er then .wavefront else .recheck }).sendCut h r .es e

/-- RECHECK_END: the dirty edges take new results against e_s (R361). -/
def State.recheckEnd (s : State) (h : Nat) (ecc : EccHw) : State :=
  s.planPhase h ecc .recheck fun s r =>
    let p := s.planner h
    let b := (p.bank? r.es).getD {}
    let dirty := r.window.filter (p.dirty r.er r.es)
    (s.modRound h fun r => { r with
      costs := r.costs.map (fun c => match dirty.find? (fun e => e.num == c.1) with
        | some e => (c.1, b.edgeCosts r.set e)
        | none => c)
      phase := .wavefront }).wrapReg (ra .PLN_RECHECKS h) dirty.length

/-- WAVEFRONT_DONE (R362, R363). -/
def State.wavefrontDone (s : State) (h : Nat) (ecc : EccHw) : State :=
  s.planPhase h ecc .wavefront fun s r =>
    let b := ((s.planner h).bank? r.es).getD {}
    let goal := (r.node? r.goal).getD {}
    let t0 := waveSeeds (b.hdr.cell goal.x goal.y)
    let g : WaveGrid := { bank := b, block := r.set.block, k := r.set.k }
    let x := g.run 0 t0 t0 r.set.maxPasses
    s.modRound h fun r => { r with wave := x.1, passes := x.2.1, incomplete := x.2.2, phase := .search }

/-- The header of the bank of e_s. -/
def State.searchHdr (s : State) (h : Nat) (r : Round) : EditionHdr := (((s.planner h).bank? r.es).getD {}).hdr

/-- The search has ended at a planner, and e_out is cut. -/
def State.searchEnded (s : State) (h : Nat) (r : Round) (e : Nat) : State :=
  (s.modRound h fun _ => { r with phase := .output, eout := e }).sendCut h r .eout e

/-- SEARCH_END (R365 … R367); the follower stops at the leader's count. -/
def State.searchEnd (s : State) (h : Nat) (ecc : EccHw) : State :=
  s.planPhase h ecc .search fun s r =>
    match s.cutEdition h r .eout with
    | none => s
    | some e =>
      let stop := if r.follows h then (s.planner h).cut? r.for_ .stop else none
      s.searchEnded h (r.runSearch (s.searchHdr h r) (stop.getD (r.set.maxExpand * 1024)) stop.isSome) e

/-- ROUND_LIMIT (R366, R370, R375): at the limit less the guard the search stops after `expansions`, or does not run any more;
a follower that has not reached a cut by the limit gives no digest. -/
def State.roundLimit (s : State) (h expansions : Nat) : State :=
  match (s.planner h).round with
  | none => s
  | some r =>
    match r.limit with
    | none => s
    | some l =>
      if ¬ s.plannerRuns h then s
      else if r.follows h then
        if s.now < l ∨ (r.phase = .output ∧ r.eout ≠ 0) then s
        else { s with pln := { s.pln with digests := s.pln.digests ++ [(r.for_, none)] } }.endRound h
      else if s.now + r.set.guard < l then s
      else match r.phase with
        | .output => s
        | .search =>
          let r1 := r.runSearch (s.searchHdr h r) expansions true
          (if r1.stopped then s.sendCut h r .stop r1.expansions else s).searchEnded h r1 (s.planner h).newest
        | _ =>
          let r1 := { r with missed := true, es := if r.phase = .check then r.er else r.es }
          (s.sendCut h r .missed r1.es).searchEnded h r1 (s.planner h).newest

/-- What a round's hand-over does to its frame: the record and the status contribution (R370, R371). -/
def State.deliverPlan (s : State) (g f : Nat) (t : TrajRecord) (rec : List Byte) (st : Nat) : State :=
  s.modFrame g f fun fr =>
    if fr.withheld then fr
    else { fr with trajectory := rec, edition := t.eout, coverage := t.coverage, codes := if st = 0 then fr.codes else addNew fr.codes st }

/-- The registers of a hand-over. -/
def State.countPlan (s : State) (h : Nat) (r : Round) (t : TrajRecord) (st : Nat) (v : Reval) : State :=
  let s1 := ((((s.wrapReg (ra .PLN_ROUNDS h)).wrapReg (ra .PLN_RECHECKS h) v.rechecks).satReg (ra .PLN_REVAL_FAIL h) v.fails).setReg
    (ra .PLN_LAST_EXPAND h) (word t.expansions)).setReg (ra .PLN_LAST_FOUND h) (word (t.found + r.passes * 65536))
  let s2 := s1.setReg (ra .PLN_LAST_TIME h) (word (s.now - r.startedAt))
  if st = Status.PARTIAL then s2.satReg (ra .PLN_PARTIAL h)
  else if st = Status.FALLBACK then (s2.satReg (ra .PLN_FALLBACK h)).raise .PLN h 3
  else s2

/-- OUTPUT_HANDOVER (R368 … R372, R375, R378). -/
def State.outputHandover (s : State) (h : Nat) (ecc : EccHw) : State :=
  s.planPhase h ecc .output fun s r =>
    match (if r.eout = 0 then s.cutEdition h r .eout else some r.eout) with
    | none => s
    | some e =>
      let r := { r with eout := e }
      let x := r.output (s.planner h) (r.limit.any (· < s.now) || r.missed)
      let rec_ := x.1.bytes
      let s1 := (s.countPlan h r x.1 x.2.1 x.2.2).endRound h
      if r.follows h then
        { s1 with pln := { s1.pln with digests := s1.pln.digests ++ [(r.for_, some (shake256 rec_))] } }
      else
        let s2 := if r.paired then
          { s1 with pln := { s1.pln with handed := s1.pln.handed ++ [{ for_ := r.for_, hub := h, record := rec_, status := x.2.1 }] } } else s1
        match r.for_ with
        | .frame g f => s2.deliverPlan g f x.1 rec_ x.2.1
        | .request id => match r.paired, s2.request? id with
          | false, some q => s2.endRequest q x.2.1 rec_
          | _, _ => s2

/-- PLAN_DIGEST_RX: the leader compares a follower's digest with that of its own record (R375). -/
def State.planDigestRx (s : State) : State :=
  match takeFirst (fun (d : RoundFor × Option (List Byte)) => s.pln.handed.any fun y => y.for_ == d.1) s.pln.digests with
  | none => s
  | some ((w, d), rest) =>
    match s.pln.handed.find? fun y => y.for_ == w with
    | none => s
    | some y =>
      let own := shake256 y.record
      let ok := d == some own
      let s1 := { s with pln := { s.pln with digests := rest, handed := s.pln.handed.filter fun z => z.for_ != w } }
      let s2 := if ok then s1 else
        (((if d.isNone then s1.raise .PLN (1 - y.hub) 5 else s1).raise .PLN y.hub 2).satReg (ra .PLN_MISMATCH y.hub)).log .PLAN_MISMATCH
          (4 + y.hub) [leAt own 0 8, leAt (d.getD []) 0 8]
      match w with
      | .frame g f =>
        (s2.modFrame g f fun fr => { fr with pairDone := true, pairMatched := ok }).checkResult g f ok .planner [36, 37] (·.withPair ok)
      | .request id => match s2.request? id with
        | some q => s2.endRequest q (if ok then y.status else Status.INVALID) y.record
        | none => s2

/-! ### The commands -/

/-- MAP_EDITION_DELTA (R352). -/
def execMapEditionDelta (link : Fin 2) (sq : Fin 64) (s : State) : Host.Outcome State Fault Refusal :=
  .next (match s.packet link sq 0x05 with
    | some p => if leAt p.header 17 1 = 0 then s.mapDelta p else s
    | none => s)
/-- MAP_EDITION_ROADMAP (R347); a kind that R262 does not list is BAD_PACKET. -/
def execMapEditionRoadmap (link : Fin 2) (sq : Fin 64) (s : State) : Host.Outcome State Fault Refusal :=
  .next (match s.packet link sq 0x05 with
    | some p => if leAt p.header 17 1 = 0 then s else s.mapRoadmap p
    | none => s)
/-- PLAN_REQ (R378). -/
def execPlanReq (link : Fin 2) (sq : Fin 64) (s : State) : Host.Outcome State Fault Refusal :=
  .next (match s.front link sq with
    | some p => if p.type = 0x06 then s.planReq p else s
    | none => s)
/-- PLANNER_ENABLE (R350). -/
def execPlannerEnable (hub : Fin 2) (value : BitVec 32) (s : State) : Host.Outcome State Fault Refusal := .next (s.writePlanner hub value)
/-- EDITION_TOKEN (R351). -/
def execEditionToken (frame : Nat) (s : State) : Host.Outcome State Fault Refusal := .next (s.editionToken frame)
/-- EDITION_ORDER (R353). -/
def execEditionOrder (hub : Fin 2) (s : State) : Host.Outcome State Fault Refusal := .next (s.editionOrder hub)
/-- EDITION_STAGE_DONE (R354). -/
def execEditionStageDone (hub : Fin 2) (s : State) : Host.Outcome State Fault Refusal := .next (s.stageDone hub)
/-- ROUND_START (R355). -/
def execRoundStart (hub : Fin 2) (s : State) : Host.Outcome State Fault Refusal := .next (s.roundStart hub)
/-- CHECK_ROUND_END (R357). -/
def execCheckRoundEnd (hub : Fin 2) (ecc : EccHw) (s : State) : Host.Outcome State Fault Refusal := .next (s.checkRoundEnd hub ecc)
/-- ROUND_CUT (R360). -/
def execRoundCut (hub : Fin 2) (s : State) : Host.Outcome State Fault Refusal := .next (s.roundCut hub)
/-- RECHECK_END (R361). -/
def execRecheckEnd (hub : Fin 2) (ecc : EccHw) (s : State) : Host.Outcome State Fault Refusal := .next (s.recheckEnd hub ecc)
/-- WAVEFRONT_DONE (R363). -/
def execWavefrontDone (hub : Fin 2) (ecc : EccHw) (s : State) : Host.Outcome State Fault Refusal := .next (s.wavefrontDone hub ecc)
/-- SEARCH_END (R366). -/
def execSearchEnd (hub : Fin 2) (ecc : EccHw) (s : State) : Host.Outcome State Fault Refusal := .next (s.searchEnd hub ecc)
/-- ROUND_LIMIT (R370). -/
def execRoundLimit (hub : Fin 2) (expansions : Nat) (s : State) : Host.Outcome State Fault Refusal := .next (s.roundLimit hub expansions)
/-- OUTPUT_HANDOVER (R368). -/
def execOutputHandover (hub : Fin 2) (ecc : EccHw) (s : State) : Host.Outcome State Fault Refusal := .next (s.outputHandover hub ecc)
/-- PLAN_DIGEST_RX (R375). -/
def execPlanDigestRx (s : State) : Host.Outcome State Fault Refusal := .next s.planDigestRx

end Sys2Proof.Machine
end

