-- ==== Sys2Proof/Machine/FaultPins.lean ====
section
/-! DEFINITION. What asserts and releases the FAULT pins (R410, R411, R416), the supply and clock faults beyond a fence, and
the stored trajectory (R27). -/

namespace Sys2Proof.Machine

/-- The causes of LAN_CAUSE (R417). -/
def causeBoot : Nat := 1
def causeGap : Nat := 2
def causeOutage : Nat := 3
def causeMpLost : Nat := 4
def causeSupply : Nat := 5
def causeClock : Nat := 6
def causeThermal : Nat := 7
def causeBist : Nat := 8
/-- The cause of a DOWN frame for a planned stop (R430). -/
def causePlanned : Nat := 0x10

/-- A lantern whose pin hardware has a supply: it is not in RESET. -/
def Lantern.powered (l : Lantern) : Bool := l.run != .RESET

/-- Assert FAULT with a cause, and set the CAN FD emission ACTIVE (R410). -/
def State.assertFault (s : State) (l cause : Nat) (graph : Nat := 0xFFFF) : State :=
  let x := s.lantern l
  if ¬ x.powered ∨ (x.fault ∧ x.causes.contains cause) then s
  else
    (s.modLantern l fun x => { x with
      fault := true, active := true, cause := cause, causeGraph := graph, causes := addNew x.causes cause }).lanRecord l .FAULT_ASSERTED
      [cause, graph]

/-! ### Faults beyond a fence (R410) -/

/-- A supply rail's power-good is high. -/
def State.railGood (s : State) (r : Nat) : Bool := (tblGet ({} : RailState) s.thermal.rails r).good

/-- The dies that a rail feeds (R439): its own, all Talxon dies for the HBM rails, all dies for the I/O rails, none for the
lanterns'. -/
def railDies (r : Nat) : List Nat :=
  if r < 6 then [r] else if r < 8 then [] else if r < 11 then [0, 1, 2, 3] else [0, 1, 2, 3, 4, 5]

/-- Dies whose supply is bad. -/
def State.supplyBad (s : State) : List Nat := (List.range 6).filter fun d => (List.range 13).any fun r => (railDies r).contains d && !s.railGood r

/-- No fence covers a fault of both hub dies, or of two Talxon dies. -/
def beyondFence (ds : List Nat) : Bool := (ds.contains 4 && ds.contains 5) || 2 ≤ (ds.filter (· < 4)).length

/-- A cause of R410 remains. BOOT, GAP and OUTAGE end when the release rule holds; a planned stop lasts until the next package reset
(log 47). -/
def State.causeRemains (s : State) (l c : Nat) : Bool :=
  if c = causeMpLost then (s.lantern l).mpSilentAt.isSome
  else if c = causeSupply then beyondFence s.supplyBad
  else if c = causeClock then beyondFence s.pins.clockBad
  else if c = causeThermal then s.thermal.trips != []
  else c == causeBist || c == causePlanned

/-! ### Releasing FAULT (R411) -/

/-- The loaded safety-relevant graphs. -/
def State.safetyGraphs (s : State) : List Graph := s.graphs.graphs.filter fun gr => gr.bundle.header.safety == 1

/-- Frames in a row that release the pin. -/
def releaseFrames : Nat := 8

/-- The release rule of a lantern. Without a loaded safety-relevant graph it does not hold (log 34). -/
def State.mayRelease (s : State) (l : Nat) : Bool :=
  s.safetyGraphs != [] && s.safetyGraphs.all (fun gr => releaseFrames ≤ tblGet 0 (s.lantern l).usable gr.num) &&
  !(s.lantern l).causes.any (s.causeRemains l)

/-- Release FAULT when its rule holds; a lantern in its safe state runs on. -/
def State.releaseFault (s : State) (l : Nat) : State :=
  let x := s.lantern l
  if x.works ∧ x.fault ∧ s.mayRelease l then
    (s.modLantern l fun x => { x with fault := false, active := false, causes := [], run := .RUNNING, warmWait := none }).lanRecord l
      .FAULT_RELEASED [x.cause]
  else s

/-- A lantern learns of a released frame of a safety-relevant graph (R410, R411). -/
def State.lanRelease (s : State) (g : Nat) (ok : Bool) (l : Nat) : State :=
  if ¬ (s.lantern l).works then s
  else
    (s.modLantern l fun x =>
      if ok then { x with usable := tblMod 0 x.usable g (· + 1), lastUsable := tblSet 0 x.lastUsable g s.now, warmWait := none }
      else { x with usable := tblSet 0 x.usable g 0 }).releaseFault l

/-! ### The stored trajectory (R27) -/

/-- A lantern stores a trajectory record. -/
def State.storeTrajectory (s : State) (f : Nat) (rec : List Byte) (l : Nat) : State :=
  if ¬ (s.lantern l).works then s
  else s.modLantern l fun x => { x with stored := rec, storedFrame := f, storedAt := s.now }

end Sys2Proof.Machine
end

