-- ==== Sys2Proof/Machine/MirrorOps.lean ====
section
/-! DEFINITION. Shared operations of the mirror link: the health word (R432), sending frames (R429 … R431), and the state of the
twin and the roles (R433, R434). -/

namespace Sys2Proof.Machine

/-! ### Ports and the health word -/

/-- A mirror-link port. -/
def State.mirPort (s : State) (h : Nat) : MirPort := tblGet {} s.mirror.ports h
/-- Change a mirror-link port. -/
def State.modMirPort (s : State) (h : Nat) (f : MirPort → MirPort) : State :=
  { s with mirror := { s.mirror with ports := tblMod {} s.mirror.ports h f } }
/-- MIR_CFG of a hub. -/
def State.mirCfg (s : State) (h : Nat) : Word := s.reg (ra .MIR_CFG h)
/-- A port that is enabled, on a hub die that is not lost. -/
def State.mirOn (s : State) (h : Nat) : Bool := (s.mirCfg h).getLsbD 31 && !(s.link h).lost
/-- A port that sends. -/
def State.mirSends (s : State) (h : Nat) : Bool := s.mirOn h && (s.mirPort h).up

/-- The package-wide set-up: that of H0, or of H1 when H0 is lost (R313). -/
def State.mirSetup (s : State) : Word := if (s.link 0).lost then s.mirCfg 1 else s.mirCfg 0
/-- The mirrored graph. -/
def State.mirGraph (s : State) : Nat := bits s.mirSetup 29 24

/-- The run code of the health word. -/
def State.healthRun (s : State) : Nat :=
  match s.recovery.phase with
  | .porstLow | .coldBoot => 2
  | .stopped => 4
  | .warmRequested => 3
  | .warmRestart => 1
  | .running => if [0, 1].any fun l => (s.lantern l).run == .SAFE then 3 else 0

/-- The twin is treated as lost. -/
def State.twinLost (s : State) : Bool := s.mirror.twin == .LOST || s.mirror.twin == .HUNG

/-- The health word (R432). -/
def State.health (s : State) : Nat :=
  let folded := s.graphs.graphs.any fun gr => (gr.bundle.cards.zip gr.places).any fun x => x.1.core != x.2.core
  s.healthRun * 2 ^ 28 + b2n s.promised * 2 ^ 27 + b2n (s.lantern 0).fault * 2 ^ 26 + b2n (s.lantern 1).fault * 2 ^ 25 +
  b2n ((s.lantern 0).run == .RUNNING) * 2 ^ 24 + b2n ((s.lantern 1).run == .RUNNING) * 2 ^ 23 + s.thermal.shade % 4 * 2 ^ 21 +
  b2n s.twinLost * 2 ^ 20 + b2n folded * 2 ^ 19 + b2n s.mirror.lead * 2 ^ 18 + s.mirror.lastStatus % 65536

/-- Time in ms that the device has acted LEAD, saturating. -/
def State.leadMs (s : State) : Nat := if s.mirror.lead then min ((s.now - s.mirror.leadSince) / 1000) 0xFFFFFFFF else 0

/-! ### Sending (R429 … R431) -/

/-- The kinds of frames. -/
def kindHeartbeat : Nat := 1
def kindExchange : Nat := 2
def kindDown : Nat := 3

/-- device_id: the first 8 B of SHAKE256 over the unique IDs of H0 and then H1 (R489). -/
def deviceId : Nat := ofLe ((shake256 (padTo 16 (Config.uniqueId 4) ++ padTo 16 (Config.uniqueId 5))).take 8)

/-- The 32 B header of a payload (R430). -/
def State.mirHeader (s : State) (h kind seq cause : Nat) : List Byte :=
  toLe 2 0x4D52 ++ toLe 1 1 ++ toLe 1 kind ++ toLe 4 seq ++ toLe 4 s.mgt.bootCount ++ toLe 4 s.health ++ toLe 8 deviceId ++
  toLe 4 s.leadMs ++ toLe 1 h ++ toLe 1 cause ++ toLe 2 0

/-- A payload with its CRC-32, padded to 46 B. -/
def mirPayload (bs : List Byte) : List Byte :=
  let p := bs ++ toLe 4 (crc32 bs).toNat
  padTo (max 46 p.length) p

/-- The MAC address in a LO and a HI register: byte 0 lowest. -/
def State.mac (s : State) (lo hi : Reg) (h : Nat) : List Byte :=
  toLe 4 (s.reg (ra lo h)).toNat ++ toLe 2 (bits (s.reg (ra hi h)) 15 0)

/-- The IEEE 802.3 frame of a payload, without its FCS. -/
def State.mirFrame (s : State) (h : Nat) (payload : List Byte) : List Byte :=
  s.mac .MIR_PEER_MAC_LO .MIR_PEER_MAC_HI h ++ s.mac .MIR_MAC_LO .MIR_MAC_HI h ++ toBe 2 0x88B5 ++ mirPayload payload

/-- The number of the next frame of a kind. -/
def MirPort.seq (p : MirPort) (kind : Nat) : Nat := if kind = 1 then p.seqHb else if kind = 2 then p.seqEx else p.seqDown

/-- Send a frame on a port. -/
def State.mirSend (s : State) (h kind cause : Nat) (block : List Byte) : State :=
  if ¬ s.mirSends h then s
  else
    let p := s.mirPort h
    let bs := s.mirHeader h kind (p.seq kind) cause ++ block
    ((s.modMirPort h fun p =>
      if kind = kindHeartbeat then { p with seqHb := (p.seqHb + 1) % 2 ^ 32 }
      else if kind = kindExchange then { p with seqEx := (p.seqEx + 1) % 2 ^ 32 }
      else { p with seqDown := (p.seqDown + 1) % 2 ^ 32 }).emit (.mirror h (s.mirFrame h bs))).wrapReg (ra .MIR_TX_FRAMES h)

/-- EXCHANGE_SEND: one frame on both ports for a released completion of the mirrored graph (R431). -/
def State.sendExchange (s : State) (g f status edition lat : Nat) (rec : List Byte) : State :=
  let block := toLe 1 g ++ toLe 1 0 ++ toLe 2 status ++ toLe 4 f ++ toLe 4 edition ++ toLe 4 lat ++ toLe 48 0 ++ padTo recordBytes rec
  (s.mirSend 0 kindExchange 0 block).mirSend 1 kindExchange 0 block

/-! ### The twin (R433, R434) -/

/-- The enabled ports. -/
def State.mirPorts (s : State) : List Nat := [0, 1].filter s.mirOn

/-- 30 ms. -/
def mirGap : Nat := 30000
/-- 100 ms. -/
def roleGap : Nat := 100000

/-- A time is no longer ago than 30 ms. -/
def State.recent (s : State) (t : Option Nat) : Bool := match t with
  | some x => s.now < x + mirGap
  | none => false

/-- A HEARTBEAT, or an EXCHANGE, has come on some port within 30 ms. -/
def State.hbRecent (s : State) : Bool := s.mirPorts.any fun h => s.recent (s.mirPort h).hbAt
def State.exRecent (s : State) : Bool := s.mirPorts.any fun h => s.recent (s.mirPort h).exAt

/-- Every enabled port has been so for 30 ms, or has carried a frame. -/
def State.mirWaited (s : State) : Bool :=
  s.mirPorts != [] && s.mirPorts.all fun h => (s.mirPort h).enAt + mirGap ≤ s.now

/-- The port that has carried nothing for 30 ms while the other carries both kinds. -/
def State.silentPort (s : State) : Option Nat :=
  [0, 1].find? fun h =>
    s.mirPorts.length == 2 && !s.recent (s.mirPort h).hbAt && !s.recent (s.mirPort h).exAt && (s.mirPort h).enAt + mirGap ≤ s.now &&
    s.recent (s.mirPort (1 - h)).hbAt && s.recent (s.mirPort (1 - h)).exAt

/-- Act LEAD, or not. -/
def State.setLead (s : State) (on : Bool) : State :=
  if s.mirror.lead = on then s else { s with mirror := { s.mirror with lead := on, leadSince := s.now } }

/-- A bit of MIR_ERR_STATUS of every enabled port. -/
def State.mirRaise (s : State) (bit : Nat) : State := s.mirPorts.foldl (fun s h => s.raise .MIR h bit) s

/-- The twin becomes lost: by a DOWN frame or silence (LOST), or by misses (HUNG). A FOLLOW device acts LEAD. -/
def State.loseTwin (s : State) (new : TwinSt) (cause : Nat) : State :=
  if s.twinLost then s
  else
    let s1 := { s with mirror := { s.mirror with twin := new, hbSince := none, runningEx := 0 } }
    let s2 := s1.mirPorts.foldl (fun s h => s.satReg (ra .MIR_LOST_COUNT h)) ((s1.mirRaise 2).log .TWIN_LOST 0xFF [cause])
    let s3 := if new = .HUNG then s2.mirRaise 3 else s2
    if s3.mirror.lead then s3
    else { (s3.setLead true) with mirror := { (s3.setLead true).mirror with roleSettled := true } }.log .ROLE_CHANGE 0xFF [1]

/-- The causes of TWIN_LOST beside the codes of a DOWN frame (log 35). -/
def twinSilent : Nat := 0x11
def twinHung : Nat := 0x12

/-- The first row of the table of R433 that holds, for a twin that is not lost and has been heard or waited for. -/
def State.twinCheck (s : State) : State :=
  if s.mirPorts = [] ∨ s.twinLost then s
  else if ¬ s.hbRecent ∧ ¬ s.exRecent then if s.mirWaited then s.loseTwin .LOST twinSilent else s
  else if s.hbRecent ∧ 3 ≤ s.mirror.misses then s.loseTwin .HUNG twinHung
  else
    let silent := if s.exRecent && !s.hbRecent then some 2 else s.silentPort
    match silent with
    | some p =>
      if s.mirror.twin = .DEGRADED then s
      else
        let s1 := ({ s with mirror := { s.mirror with twin := .DEGRADED } }.mirRaise 4).log .LINK_DEGRADED 0xFF [p]
        s1.mirPorts.foldl (fun s h => s.satReg (ra .MIR_DEGRADED_COUNT h)) s1
    | none => { s with mirror := { s.mirror with twin := .ALIVE } }

/-- A lost twin is alive again after HEARTBEATs for 30 ms and 3 EXCHANGEs in a row that carry RUNNING. -/
def State.twinRestore (s : State) : State :=
  match s.mirror.hbSince with
  | some t =>
    if s.twinLost ∧ t + mirGap ≤ s.now ∧ 3 ≤ s.mirror.runningEx then
      ({ s with mirror := { s.mirror with twin := .ALIVE, misses := 0 } }).log .TWIN_RESTORED 0xFF []
    else s
  | none => s

/-- TWIN_MISS_COUNT: the local device releases a frame of the mirrored graph (R433). -/
def State.twinRelease (s : State) (status : Nat) : State :=
  let m := s.mirror
  ({ s with mirror := { m with
    misses := if m.released && !m.heard then min (m.misses + 1) 255 else if m.heard then 0 else m.misses
    heard := false, released := true, lastStatus := status } }).twinCheck

end Sys2Proof.Machine
end

