-- ==== Sys2Proof/Machine/Release.lean ====
section
/-! DEFINITION. The hand-over of a frame to the lanterns (R26, R389) and the release of its completion (R26, R138, R141, R171,
R257, R258, R371). -/

namespace Sys2Proof.Machine

/-! ### The end of a frame (R389, R396) -/

/-- The status code of a frame (R67, R172, R272). -/
def Frame.status (fr : Frame) : Nat :=
  let own := if fr.widened = [] then fr.codes else Status.OK_WIDENED :: fr.codes
  match fr.steps with
  | none => combineStatus own
  | some es =>
    let live := es.filter (·.live)
    if live = [] then combineStatus (Status.PREEMPTED :: own) else combineStatus (own ++ live.map (·.status))

/-- A final output edge of the frame's copy 0 has arrived whole. -/
def Graph.outputThere (gr : Graph) (fr : Frame) (ei : Nat) : Bool :=
  let e := gr.edge ei
  e.consumer != 0xFFFF || e.producer == 0xFFFF ||
  (if e.kind = 0 then fr.outTiles.any fun t => t.stream == ei && t.frame == fr.num && t.last else fr.tokens.contains (ei, 0))

/-- Every station of every copy has ended its pass, and the final outputs exist. -/
def Graph.outputsDone (gr : Graph) (fr : Frame) : Bool :=
  gr.bundle.cards.all (fun c => fr.ended.contains (c.station, gr.cardCopy c)) &&
  (List.range gr.bundle.edges.length).all (gr.outputThere fr)

/-- The graph is bound to the planners, and one works (R350). -/
def State.planned (s : State) (g : Nat) : Bool :=
  let c := s.reg (ra .PLN_CFG s.planLeader)
  c.getLsbD 31 && bits c 29 24 == g && s.plannersOn != []

/-- The planner pair of a bound graph is compared (R396). -/
def State.paired (s : State) (g : Nat) : Bool := s.planned g && s.plannersOn.length == 2

/-- The merge digest of a graph is compared (R396). -/
def State.mergeChecked (s : State) (g : Nat) : Bool := s.mergesPaired && (s.mergeCfg s.mgt.active).graph == g

/-- Every checker result of a frame has been sent to the lanterns. -/
def State.resultsSent (s : State) (gr : Graph) (fr : Frame) : Bool :=
  (gr.bundle.header.checking != 2 || (List.range (s.envelopesOf gr).length).all fun i =>
    s.comparators.all fun h => fr.compared.contains (i, h)) &&
  (!s.paired gr.num || fr.pairDone) && (!s.mergeChecked gr.num || fr.merged.length == 2)

/-- A frame is finished: its outputs, its plan and its results exist (R389). -/
def State.frameDone (s : State) (gr : Graph) (fr : Frame) : Bool :=
  gr.outputsDone fr && (!s.planned gr.num || fr.trajectory != []) &&
  (gr.bundle.header.safety != 1 || s.resultsSent gr fr) &&
  !s.cache.archives.any fun j => match j.own with
    | some (g, f, _) => g == gr.num && f == fr.num
    | none => false

/-! ### Lanterns and a frame (R26, R419) -/

/-- When the start message of a frame went out (R388). -/
def Frame.startedAt (fr : Frame) (trigger : Nat) : Nat := if trigger = 1 then fr.closedAt else fr.openedAt

/-- A lantern judges a frame: it works, and has done so since before the frame's start message (R419). -/
def State.judges (s : State) (l : Nat) (gr : Graph) (fr : Frame) : Bool :=
  (s.lantern l).works && (s.lantern l).since ≤ fr.startedAt gr.bundle.header.trigger

/-- What the output stage has from a lantern. -/
def Frame.verdictOf (fr : Frame) (l : Nat) : VerdictRec := if l = 0 then fr.verdictA else fr.verdictB
/-- Change what the output stage has from a lantern. -/
def Frame.setVerdict (fr : Frame) (l : Nat) (k : VerdictRec → VerdictRec) : Frame :=
  if l = 0 then { fr with verdictA := k fr.verdictA } else { fr with verdictB := k fr.verdictB }

/-- The output stage hands a finished frame over to the lanterns. -/
def State.handOver (s : State) (g f : Nat) : State :=
  match s.graph? g with
  | none => s
  | some gr =>
    match gr.frame? f with
    | none => s
    | some fr =>
      if gr.bundle.header.safety = 1 ∧ ¬ fr.handedOver ∧ ¬ fr.withheld ∧ s.frameDone gr fr then
        s.modFrame g f fun fr => { fr with handedOver := true, handoverAt := s.now }
      else s

/-- A frame may be released: it is withheld, or finished and judged by every lantern that judges it. -/
def State.releasable (s : State) (gr : Graph) (fr : Frame) : Bool :=
  fr.withheld ||
  (if gr.bundle.header.safety = 1 then fr.handedOver && [0, 1].all fun l => !s.judges l gr fr || (fr.verdictOf l).back
   else s.frameDone gr fr)

/-! ### The completion (R257, R258, R371) -/

/-- Inline output bytes of a bundle at most. -/
def inlineMax : Nat := 65536

/-- The tiles of a final output edge in tile order. -/
def Frame.edgeTiles (fr : Frame) (ei : Nat) : List Tile :=
  sortBy (fun (t : Tile) => t.seq) (fr.outTiles.filter fun t => t.stream == ei && t.frame == fr.num)

/-- The data of a final output edge: a stream's payloads in tile order, a buffer's bytes. -/
def State.edgeData (s : State) (gr : Graph) (fr : Frame) (ei : Nat) : List Byte :=
  let e := gr.edge ei
  if e.kind = 0 then (fr.edgeTiles ei).flatMap (·.body)
  else
    let b := nth {} gr.bundle.buffers e.buffer
    (s.readMem b.at_ b.bytes).1

/-- A block padded to 64 B. -/
def pad64 (bs : List Byte) : List Byte := padTo (up64 bs.length) bs

/-- The bundle's inline outputs, each from a 64 B boundary. -/
def State.inlineOutputs (s : State) (gr : Graph) (fr : Frame) : List Byte :=
  ((gr.bundle.inline.filter (· != 0xFFFF)).flatMap fun ei => pad64 (s.edgeData gr fr ei)).take inlineMax

/-- The verdicts byte of the frame block. -/
def Frame.verdictBits (fr : Frame) : Nat :=
  let a := fr.verdictA
  let b := fr.verdictB
  let passed := (a.judged || b.judged) && (!a.judged || !a.checkFail) && (!b.judged || !b.checkFail) && !fr.mismatch
  b2n a.judged + 2 * b2n a.onTime + 4 * b2n b.judged + 8 * b2n b.onTime + 16 * b2n passed + 32 * b2n fr.pairMatched

/-- The 64 B frame block. -/
def frameBlock (gr : Graph) (fr : Frame) (edition outBytes : Nat) : List Byte :=
  padTo 64 (toLe 4 fr.missing ++ toLe 4 edition ++ toLe 2 fr.widened.length ++ toLe 2 fr.skipped.length ++ toLe 1 fr.verdictBits ++
    toLe 1 0 ++ toLe 2 fr.coverage ++ toLe 4 fr.verdictA.latency ++ toLe 4 fr.verdictB.latency ++ toLe 4 outBytes ++
    toLe 4 gr.placement)

/-- The rings a frame completes on: that of its packet, or out and out2 (R257). -/
def Frame.rings (s : State) (gr : Graph) (fr : Frame) : List (Nat × Nat) :=
  if fr.sq ≠ 0xFF then [(fr.link, s.sqCq fr.link fr.sq)]
  else ([gr.out, gr.out2].filter fun v => bitN v 6).map fun v => (v / 128 % 2, v % 64)

/-- The completion of a frame with a status. -/
def State.frameCompletion (s : State) (gr : Graph) (fr : Frame) (status : Nat) (r : Nat × Nat) : Completion :=
  let inl := if usable status then s.inlineOutputs gr fr else []
  let rec_ := if usable status then fr.trajectory else []
  let body := if rec_ = [] then inl else pad64 inl ++ rec_
  let block := frameBlock gr fr (if usable status then fr.edition else 0) body.length
  let step := match fr.steps with
    | some es => stepBlock es
    | none => []
  { kind := 0x80, link := r.1, cq := r.2, tag := fr.tag, status := status, cmdType := 0x02, sq := fr.sq, frame := fr.num, graph := gr.num
    payload := pad64 (block ++ body) ++ step, epoch := fr.epoch, reduced := gr.bundle.header.safety == 1 && !s.promised }

/-! ### Release (R26, R138, R141, R171) -/

/-- STATE_COMMIT: WORKING becomes COMMITTED for every state buffer that the frame wrote (R141). -/
def Graph.commitState (gr : Graph) (fr : Frame) : Graph :=
  { gr with bundle := { gr.bundle with buffers := fr.stateWritten.foldl (fun bs b =>
      bs.modify b fun x => { x with committedHigh := !x.committedHigh }) gr.bundle.buffers } }

/-- The graph after one of its frames has completed. -/
def Graph.endFrame (gr : Graph) (fr : Frame) (now : Nat) (ok : Bool) : Graph :=
  let g1 := if ok then gr.commitState fr else gr
  { g1 with
    frames := gr.frames.filter fun x => x.num != fr.num
    lastDone := fr.num
    doneCount := fr.num + 1
    delivered := gr.delivered + b2n ok
    withheld := if ok then gr.withheld else min (gr.withheld + 1) 0xFFFFFFFF
    stateReset := gr.stateReset && !ok
    lastUsable := if ok then some (fr.num, now) else gr.lastUsable }

/-- SEQUENCE_COMMIT: the sequences of a frame at its release (R171). -/
def State.endSeqs (s : State) (g : Nat) (fr : Frame) (ok : Bool) : State :=
  let pick (p : StepEntry → Bool) : Frame := { fr with steps := fr.steps.map fun es => es.map fun e => { e with live := e.live && p e } }
  let s1 := endFrameSeqs s g (pick fun e => usable e.status) ok
  if fr.steps.isSome then endFrameSeqs s1 g (pick fun e => !usable e.status) false else s1

/-- What a released frame of the bound graph leaves with planners and lanterns (R27, R369). -/
def State.storeReleased (s : State) (g : Nat) (fr : Frame) (ok : Bool) : State :=
  let c := s.reg (ra .PLN_CFG s.planLeader)
  if ok ∧ bits c 29 24 = g ∧ fr.trajectory ≠ [] ∧ recordSource fr.trajectory ≠ 3 then
    [0, 1].foldl (fun s l => s.storeTrajectory fr.num fr.trajectory l)
      ([0, 1].foldl (fun s h => if s.plannerRuns h then s.modPlanner h fun p => { p with lastReleased := fr.trajectory } else s) s)
  else s

/-- Forget what is under way of a frame. -/
def State.forgetFrame (s : State) (g f : Nat) : State :=
  let clear (l : Lantern) : Lantern := { l with frames := l.frames.filter fun x => !(x.graph == g && x.frame == f) }
  { s with lan := { s.lan with
    sigs := s.lan.sigs.filter fun m => !(m.graph == g && m.frame == f)
    envs := s.lan.envs.filter fun m => !(m.graph == g && m.frame == f)
    lanterns := (s.lan.lanterns.map fun e => (e.1, clear e.2)).filter fun e => e.2 ≠ {} } }

/-- A warm reset has been requested: what is released now reaches neither the lanterns nor the twin (R424). -/
def State.stopping (s : State) : Bool := s.recovery.phase == .warmRequested

/-- Release the lowest open frame of a graph. -/
def State.releaseFrame (s : State) (gr : Graph) (fr : Frame) : State :=
  let g := gr.num
  let st := fr.status
  let ok := usable st
  let s1 := (fr.rings s gr).foldl (fun s r => s.complete (s.frameCompletion gr fr st r)) s
  let s2 := ((s1.endSeqs g fr ok).modGraph g fun gr => gr.endFrame fr s.now ok).forgetFrame g fr.num
  let s3 := if s.stopping then s2 else s2.storeReleased g fr ok
  let s4 := if gr.bundle.header.safety = 1 then
      let s' := { s3 with lan := { s3.lan with checked := s3.lan.checked + 1 } }
      if s.stopping then s' else [0, 1].foldl (fun s l => s.lanRelease g ok l) s'
    else s3
  if s.stopping ∨ s4.mirPorts = [] ∨ s4.mirGraph ≠ g then s4
  else
    (s4.sendExchange g fr.num st (if ok then fr.edition else 0) (max fr.verdictA.latency fr.verdictB.latency)
      (if ok then fr.trajectory else [])).twinRelease st

/-- FRAME_RELEASE: the lowest open frame of a graph, once it may be released. -/
def State.frameRelease (s : State) (g : Nat) : State :=
  match s.graph? g with
  | none => s
  | some gr =>
    match gr.frames with
    | [] => s
    | fr :: _ => if s.releasable gr fr then s.releaseFrame gr fr else s

/-- Every open frame completes INVALID (R424). -/
def State.invalidateAll (s : State) : State :=
  let s1 := s.graphs.graphs.foldl (fun s gr => s.withholdGraph gr.num) s
  s1.graphs.graphs.foldl (fun s gr => (List.range gr.frames.length).foldl (fun s _ => s.frameRelease gr.num) s) s1

/-! ### The command -/

/-- FRAME_RELEASE (R26). -/
def execFrameRelease (graph : Fin 64) (s : State) : Host.Outcome State Fault Refusal := .next (s.frameRelease graph)

end Sys2Proof.Machine
end

