-- ==== Sys2Proof/Machine/Safe.lean ====
section
/-! DEFINITION. Safe state (R424, R427, R436): the life counters (R460) and the thermal state word (R456) as they are written, power-off
requests, the warm reset request, and what a lantern does on entry. -/

namespace Sys2Proof.Machine

/-! ### What is written before a warm reset (R456, R460, R468) -/

/-- Time with rails 0 … 5 up. -/
def State.poweredUs (s : State) : Nat :=
  s.thermal.poweredUs + match s.thermal.upSince with
    | some t => s.now - t
    | none => 0

/-- The life counters. -/
def State.lifeCounters (s : State) : LifeCounters :=
  { poweredUs := s.poweredUs, powerCycles := s.thermal.powerCycles, halves := s.thermal.rain.map fun e => (e.1, e.2.halves) }

/-- The hub dies that are not lost. -/
def State.liveHubs (s : State) : List Nat := [0, 1].filter fun h => !(s.link h).lost

/-- The active management processor acts: its hub is not lost and the device is not in reset. -/
def State.managed (s : State) : Bool :=
  s.recovery.phase != .porstLow && s.recovery.phase != .warmRestart && (s.hubMgt s.mgt.active).role == .ACTIVE && !(s.link s.mgt.active).lost

/-- The life counters are written to the sticky region of both hubs. -/
def State.lifeWrite (s : State) : State :=
  let c := s.lifeCounters
  let s1 := s.liveHubs.foldl (fun s h => s.modHubMgt h fun m => { m with flash := { m.flash with life := c } }) s
  { s1 with thermal := { s1.thermal with lifeWritten := s.now } }

/-- Change the keeper store of a Talxon die. -/
def State.modKeeper (s : State) (d : Nat) (f : KeeperStore → KeeperStore) : State :=
  { s with recovery := { s.recovery with keepers := tblMod {} s.recovery.keepers d f } }

/-- The Talxon dies that are not fenced. -/
def State.liveTdies (s : State) : List Nat := [0, 1, 2, 3].filter fun d => !s.dieFenced d

/-- The thermal state word goes to the keeper store of each live Talxon die. -/
def State.thermalWord (s : State) : State :=
  s.liveTdies.foldl (fun s d => s.modKeeper d fun k => { k with
    shade := s.thermal.shade, cause := s.thermal.cause, loss := s.thermal.flowSt == 2 }) s

/-! ### The warm reset request (R424, R436) -/

/-- A warm package reset is requested by 0, 1 a lantern, 2 the fault manager, 3 a host RESET message, 4 an activation of HUBS. A
request while a reset is already coming or the device restarts is ignored; the open frames complete INVALID. -/
def State.requestWarm (s : State) (who : Nat) : State :=
  if s.recovery.phase = .running then
    let s1 := { s with recovery := { s.recovery with phase := .warmRequested, requester := who, requestedAt := s.now } }
    let s2 := if s1.managed then (s1.lifeWrite).thermalWord else s1
    s2.invalidateAll
  else s

/-! ### Power-off (R427, R455, R457) -/

/-- The causes of POWER_OFF_REQ that R427 gives beside THERMAL: three resets in 10 minutes, or power-good missing (log 36). -/
def offResets : Nat := 0
def offPgood : Nat := causeSupply

/-- PWR_OFF_REQ_N is low while a lantern or the trip latch drives it. -/
def State.setPwrOff (s : State) : State :=
  { s with pins := { s.pins with pwrOff := s.thermal.tripLatch || [0, 1].any fun l => (s.lantern l).pwrOff.isSome } }

/-- A lantern requests power-off. -/
def State.powerOff (s : State) (l cause : Nat) : State :=
  if (s.lantern l).pwrOff.isSome then s
  else ((s.modLantern l fun x => { x with pwrOff := some s.now }).setPwrOff).lanLog l .POWER_OFF_REQ [cause]

/-! ### Entry (R410, R424) -/

/-- R427: within 10 minutes. -/
def requestWindow : Nat := 600000000
/-- R427: warm resets in that time. -/
def requestMax : Nat := 3

/-- A lantern requests a warm reset, or power-off when it has requested three within 10 minutes. A request that meets a restart is
counted and otherwise ignored. -/
def State.lanternRequest (s : State) (l : Nat) : State :=
  let near := (s.lantern l).warmRequests.filter fun t => s.now < t + requestWindow
  if requestMax ≤ near.length then s.powerOff l offResets
  else (s.modLantern l fun x => { x with warmRequests := s.now :: near, warmWait := some s.now }).requestWarm l

/-- A lantern starts sending its three DOWN frames. -/
def State.startDown (s : State) (l cause : Nat) : State :=
  if s.recovery.down.any fun x => x.1 == l then s
  else { s with recovery := { s.recovery with down := s.recovery.down ++ [(l, 0, cause)] } }

/-- A lantern enters safe state. -/
def State.enterSafe (s : State) (l cause : Nat) (graph : Nat := 0xFFFF) : State :=
  if ¬ (s.lantern l).works then s
  else
    let s1 := (s.assertFault l cause graph).modLantern l fun x => { x with run := .SAFE }
    (s1.startDown l cause).lanternRequest l

/-- A safe-state cause that a lantern finds: a fault beyond a fence (R410), or one that it has asserted FAULT for. -/
def State.safeCause (s : State) (l : Nat) : Option (Nat × Nat) :=
  let x := s.lantern l
  if beyondFence s.supplyBad then some (causeSupply, 0xFFFF)
  else if beyondFence s.pins.clockBad then some (causeClock, 0xFFFF)
  else if x.causes.contains causeMpLost then some (causeMpLost, 0xFFFF)
  else if x.causes.contains causeOutage then some (causeOutage, x.causeGraph)
  else none

/-- The fault manager requests safe state when its recovery cannot go on: every lantern that works enters it. Without one, the request
alone remains. -/
def State.managerSafe (s : State) : State :=
  if ¬ s.managed ∨ s.recovery.phase ≠ .running then s
  else
    (s.workingLanterns.foldl (fun s l =>
      ((s.assertFault l Config.managerCause).modLantern l fun x => { x with run := .SAFE }).startDown l Config.managerCause) s).requestWarm 2

/-- SAFE_STATE_ENTRY: by a lantern (0, 1) that finds a cause and is not in safe state, or by the fault manager (2). -/
def State.safeEntry (s : State) (source : Nat) : State :=
  if source = 2 then s.managerSafe
  else
    match s.safeCause source with
    | some (c, g) => if (s.lantern source).run = .RUNNING then s.enterSafe source c g else s
    | none => s

/-- A supply or clock fault has been seen since `s0`: when no fence covers it any more, each lantern that works enters safe state
(R410). -/
def State.faultsBeyond (s s0 : State) : State :=
  let go (s : State) (c : Nat) : State := s.workingLanterns.foldl (fun s l => s.enterSafe l c) s
  let s1 := if beyondFence s.supplyBad && !beyondFence s0.supplyBad then go s causeSupply else s
  if beyondFence s.pins.clockBad && !beyondFence s0.pins.clockBad then go s1 causeClock else s1

/-! ### The commands -/

/-- SAFE_STATE_ENTRY (R424). -/
def execSafeStateEntry (source : Fin 3) (s : State) : Host.Outcome State Fault Refusal := .next (s.safeEntry source)

end Sys2Proof.Machine
end

