-- ==== Sys2Proof/Machine/Lantern.lean ====
section
/-! DEFINITION. The lanterns: start and reset, lockstep, clocks and heartbeats (R382 … R387, R417), frames and verdicts (R388 … R391), the
checker results that they receive (R392 … R396), the fault gap and the outage limit (R410). -/

namespace Sys2Proof.Machine

/-! ### Start, reset and failure (R383, R384, R418) -/

/-- The supply rail of a lantern (R439). -/
def lanternRail (l : Nat) : Nat := 6 + l

/-- What a reset of the whole lantern leaves: its flash (R418). -/
def Lantern.reset (x : Lantern) : Lantern :=
  { config := x.config, boots := x.boots, record := x.record, recordNext := x.recordNext, slot := x.slot, images := x.images, erased := x.erased }

/-- The two lanterns' own units of work end with a reset: results on their way are lost. -/
def State.dropMessages (s : State) (l : Nat) : State :=
  { s with lan := { s.lan with sigs := s.lan.sigs.filter (·.lantern != l), envs := s.lan.envs.filter (·.lantern != l) } }

/-- LAN_x_RST_N low. -/
def State.lanternReset (s : State) (l : Nat) : State :=
  ((((s.modLantern l Lantern.reset).dropMessages l).setPwrOff).summarise .LAN).promiseCheck

/-- LAN_x_RST_N released: the lantern boots from its own flash and runs, with FAULT held for cause BOOT (R383, R410). -/
def State.lanternBoot (s : State) (l : Nat) (c : LnfConfig) : State :=
  let s1 := s.modLantern l fun x => { x.reset with run := .RUNNING, since := s.now, periodAt := s.now, config := c, boots := x.boots + 1 }
  (s1.lanRecord l .FAULT_ASSERTED [causeBoot, 0xFFFF]).ratingsCheck

/-- The lantern's own fault: FAULT by the hardware path, and state FAILED (R384). -/
def State.lanternFail (s : State) (l : Nat) : State :=
  if (s.lantern l).run = .RESET ∨ (s.lantern l).run = .FAILED then s
  else ((s.modLantern l fun x => { x with run := .FAILED, fault := true, active := true }).summarise .LAN).promiseCheck

/-- LOCKSTEP_MISMATCH: a comparator mismatch or an uncorrectable SRAM error stops the lantern; a corrected one is counted. -/
def State.lockstep (s : State) (l : Nat) (k : LanternHw) : State :=
  if (s.lantern l).run = .RESET ∨ (s.lantern l).run = .FAILED then s
  else
    match k with
    | .sramCe => (s.modLantern l fun x => { x with sramCe := min (x.sramCe + 1) 0xFFFFFFFF }).lanError l 10
    | _ => s.lanternFail l

/-! ### Clocks and heartbeats (R385, R386) -/

/-- R385: no edge for 1 ms. -/
def peerGap : Nat := 1000
/-- R385: the management processor is silent for 5 ms. -/
def mpGap : Nat := 5000
/-- R410: no takeover within 50 ms. -/
def takeoverGap : Nat := 50000
/-- R385: ±0.5 % in ppm. -/
def clockLimit : Int := 5000
/-- R386: bad periods in a row. -/
def badPeriodMax : Nat := 4

/-- A lantern's own clock lies outside its limit. -/
def Lantern.clockOut (x : Lantern) : Bool := x.clockDev < -clockLimit || clockLimit < x.clockDev

/-- Each lantern checks its own clock against its hub's reference: outside it declares itself FAILED; with both inside each logs
LAN_CLOCK_SPLIT. -/
def State.clockSplit (s : State) : State :=
  let out := s.workingLanterns.filter fun l => (s.lantern l).clockOut
  if out = [] then s.workingLanterns.foldl (fun s l => (s.lanLog l .LAN_CLOCK_SPLIT [l]).lanError l 4) s
  else out.foldl (fun s l => s.lanternFail l) s

/-- PEER_HB_EDGE: an edge of the peer, with the period that the lantern has measured. -/
def State.peerEdge (s : State) (l period : Nat) : State :=
  if ¬ (s.lantern l).works then s
  else
    let bad := period < 450000 || 550000 < period
    let n := if bad then (s.lantern l).badPeriods + 1 else 0
    let s1 := (s.modLantern l fun x => { x with
      peerHeard := some s.now, peerLost := false, badPeriods := if n = badPeriodMax then 0 else n }).lanCondition l 8 false
    if n = badPeriodMax then s1.clockSplit else s1

/-- PEER_HB_TIMEOUT: no edge of the peer for 1 ms. -/
def State.peerTimeout (s : State) (l : Nat) : State :=
  let x := s.lantern l
  if x.works ∧ ¬ x.peerLost ∧ x.peerHeard.getD x.since + peerGap ≤ s.now then
    (s.modLantern l fun x => { x with peerLost := true }).lanCondition l 8 true
  else s

/-- LANTERN_CLOCK_WINDOW: a window of 250 µs has compared the lantern's clock with its hub's reference, in ppm. -/
def State.clockWindow (s : State) (l : Nat) (ppm : Int) : State :=
  if ¬ (s.lantern l).works then s
  else
    let s1 := s.modLantern l fun x => { x with clockDev := ppm }
    s1.lanCondition l 4 (s1.lantern l).clockOut

/-- MP_HEARTBEAT_RX: a heartbeat of the active management processor reaches a lantern. -/
def State.mpHeard (s : State) (l : Nat) : State :=
  if ¬ s.mgt.beats.contains l then s
  else
    let s1 := { s with mgt := { s.mgt with beats := s.mgt.beats.filter (· != l) } }
    if ¬ (s.lantern l).works then s1
    else (s1.modLantern l fun x => { x with mpHeard := some s.now, mpSilentAt := none }).lanCondition l 7 false

/-- MP_HEARTBEAT_TIMEOUT: none for 5 ms, after the first of this start (log 37). -/
def State.mpSilent (s : State) (l : Nat) : State :=
  let x := s.lantern l
  match x.mpHeard, x.mpSilentAt with
  | some t, none =>
    if x.works ∧ t + mpGap ≤ s.now ∧ s.recovery.phase = .running then
      (s.modLantern l fun x => { x with mpSilentAt := some s.now }).lanCondition l 7 true
    else s
  | _, _ => s

/-- MP_TAKEOVER_TIMEOUT: no takeover has been heard within 50 ms. -/
def State.mpLost (s : State) (l : Nat) : State :=
  match (s.lantern l).mpSilentAt with
  | some t => if t + takeoverGap ≤ s.now ∧ s.recovery.phase = .running then s.enterSafe l causeMpLost else s
  | none => s

/-! ### Frames and verdicts (R388 … R391, R26) -/

/-- A message of the gateway that fails its CRC: discarded, with a gap in the sequence numbers (R387). -/
def State.gatewayLoss (s : State) (l : Nat) : State :=
  if (s.lantern l).works then (s.modLantern l fun x => { x with gaps := min (x.gaps + 1) 0xFFFFFFFF }).lanError l 9 else s

/-- The start message of a frame of a safety-relevant graph goes out: the frame is open, or its set has closed. -/
def State.startable (s : State) (g f : Nat) : Bool :=
  match s.graph? g with
  | some gr => gr.bundle.header.safety == 1 && ((gr.frame? f).isSome || s.graphs.requests.any fun q => q.graph == g && q.setFrame == some f)
  | none => false

/-- LANTERN_FRAME_START. -/
def State.frameStart (s : State) (l g f : Nat) (ok : Bool) : State :=
  if ¬ (s.lantern l).works ∨ ¬ s.startable g f ∨ ((s.lantern l).frame? g f).any (·.start.isSome) then s
  else if ok then s.noteFrame l g f fun x => { x with start := some s.now }
  else s.gatewayLoss l

/-- A late verdict is counted and recorded (R389, R390, R416). -/
def State.countLate (s : State) (l g f lat : Nat) : State :=
  ((s.modLantern l fun x => { x with late := min (x.late + 1) 0xFFFFFFFF }).lanRecord l .VERDICT_LATE [g, f, lat]).lanError l 0

/-- Every result that a frame's graph calls for has arrived at a lantern and passes (R396). -/
def State.checksPass (s : State) (gr : Graph) (x : LanFrame) : Bool :=
  s.perceptionPasses gr x && (!s.paired gr.num || x.pair == some true) && (!s.mergeChecked gr.num || x.merge == some true)

/-- The verdict of a lantern at a hand-over: L is the time since the start message; without one the frame is late (R387, R389). A
result that has not arrived counts as a failure. -/
def State.giveVerdict (s : State) (l : Nat) (gr : Graph) (f : Nat) : State :=
  let x := ((s.lantern l).frame? gr.num f).getD { graph := gr.num, frame := f }
  let lat := (x.start.map fun t => s.now - t).getD 0
  let onTime := x.start.isSome && decide (lat ≤ gr.bundle.header.deadline) && !x.late
  let pass := !x.failed && s.checksPass gr x
  let s1 := (s.noteFrame l gr.num f fun x => { x with handed := true, verdict := some { onTime := onTime, latency := lat, passed := pass } }).modLantern l
    fun y => { y with lastJudged := f, lastLat := lat, verdicts := if x.late then y.verdicts else (y.verdicts + 1) % 2 ^ 32
                      judged := if x.late then y.judged else y.judged + 1 }
  let s2 := if onTime ∨ x.late then s1 else s1.countLate l gr.num f lat
  if pass then s2.disagree gr.num f
  else if x.failed then s2
  else s2.checkerMismatch l gr.num f .missing []

/-- LANTERN_HANDOVER_RX: the output stage's hand-over of a finished frame reaches a lantern. -/
def State.handoverRx (s : State) (l g f : Nat) (ok : Bool) : State :=
  let s1 := s.handOver g f
  match s1.graph? g with
  | none => s1
  | some gr =>
    match gr.frame? f with
    | none => s1
    | some fr =>
      if ¬ fr.handedOver ∨ ¬ s1.judges l gr fr ∨ ((s1.lantern l).frame? g f).any (·.handed) then s1
      else if ok then s1.giveVerdict l gr f
      else s1.gatewayLoss l

/-- DEADLINE_EXPIRY: the timer reaches deadline_us before the hand-over (R390). -/
def State.deadline (s : State) (l g f : Nat) : State :=
  match s.graph? g, (s.lantern l).frame? g f with
  | some gr, some x =>
    match x.start with
    | some t =>
      if (s.lantern l).works ∧ ¬ x.handed ∧ ¬ x.late ∧ t + gr.bundle.header.deadline ≤ s.now then
        let lat := s.now - t
        ((s.noteFrame l g f fun x => { x with late := true, verdict := some { onTime := false, latency := lat, passed := !x.failed } }).modLantern l
          fun y => { y with verdicts := (y.verdicts + 1) % 2 ^ 32, judged := y.judged + 1, lastJudged := f, lastLat := lat }).countLate l g f lat
      else s
    | none => s
  | _, _ => s

/-- A frame takes a status code that applies to it. -/
def State.addCode (s : State) (g f code : Nat) : State := s.modFrame g f fun fr => { fr with codes := addNew fr.codes code }

/-- VERDICT_RX: the output stage receives a lantern's verdict. A late verdict sent at the deadline makes the frame LATE at once; the
verdict of the hand-over follows. -/
def State.verdictRx (s : State) (l g f : Nat) : State :=
  match s.frame? g f, (s.lantern l).frame? g f with
  | some fr, some x =>
    match x.verdict with
    | some v =>
      if (fr.verdictOf l).back then s
      else
        let s1 := s.modFrame g f fun fr => fr.setVerdict l fun r => { r with
          judged := true, onTime := v.onTime, latency := v.latency, back := x.handed, checkFail := x.handed && !v.passed }
        if v.onTime then s1 else s1.addCode g f Status.LATE
    | none => s
  | _, _ => s

/-- R26: a verdict must be back 200 µs after the hand-over. -/
def verdictGap : Nat := 200

/-- VERDICT_TIMEOUT: a verdict that is not back in time counts as late. -/
def State.verdictTimeout (s : State) (l g f : Nat) : State :=
  match s.graph? g with
  | none => s
  | some gr =>
    match gr.frame? f with
    | some fr =>
      if fr.handedOver ∧ fr.handoverAt + verdictGap ≤ s.now ∧ s.judges l gr fr ∧ ¬ (fr.verdictOf l).back then
        (s.modFrame g f fun fr => fr.setVerdict l fun r => { r with back := true, onTime := false }).addCode g f Status.LATE
      else s
    | none => s

/-! ### Signatures (R392, R393, R398) -/

/-- The rank of a station. -/
def Graph.rankOf (gr : Graph) (st : Nat) : Nat := ((gr.bundle.cards.find? fun c => c.station == st).map (·.rank)).getD 0

/-- The suspects of a DUPLICATE mismatch: the cores of the lowest-ranked stations whose signatures differ, in both copies. -/
def Graph.signatureSuspects (gr : Graph) (x : LanFrame) : List Nat :=
  let bad := gr.stations.filter fun st => x.signaturePair st == some false
  let low := (bad.map gr.rankOf).foldl min ((bad.map gr.rankOf).headD 0)
  ((bad.filter fun st => gr.rankOf st == low).flatMap fun st => [(gr.place st 0).core, (gr.place st 1).core]).foldl addNew []

/-- SIGNATURE_RX: a lantern receives the oldest signature on its way to it and compares the copies. -/
def State.signatureRx (s : State) (l : Nat) : State :=
  match takeFirst (fun (m : SigMsg) => m.lantern == l) s.lan.sigs with
  | none => s
  | some (m, rest) =>
    let s1 := { s with lan := { s.lan with sigs := rest } }.noteFrame l m.graph m.frame fun x =>
      { x with signatures := x.signatures ++ [(m.station, m.copy, m.sum, m.lines, m.widened)] }
    match s1.graph? m.graph, (s1.lantern l).frame? m.graph m.frame with
    | some gr, some x =>
      if x.signaturePair m.station = some false then s1.checkerMismatch l m.graph m.frame .signature (gr.signatureSuspects x) else s1
    | _, _ => s1

/-! ### Envelopes (R394, R395) -/

/-- Split bytes into elements of `n` bytes. -/
def elements (n : Nat) (bs : List Byte) : List Nat := (List.range (bs.length / n)).map fun i => leAt bs (n * i) n

/-- The payload bytes of a tile row by row, without padding (R394). -/
def Tile.rowData (t : Tile) : List Byte :=
  let f := (Fmt.ofCode t.fmt).getD .none
  (List.range t.rows).flatMap fun r => (t.body.drop (r * rowBytes f t.cols)).take (t.cols * f.bits / 8)

/-- The elements of an edge that an envelope entry compares. -/
def State.envData (s : State) (gr : Graph) (fr : Frame) (ei size : Nat) : List Nat :=
  elements size (if (gr.edge ei).kind = 0 then (fr.edgeTiles ei).flatMap (·.rowData) else s.edgeData gr fr ei)

/-- An element as FP32, exactly. -/
def envValue (fmt v : Nat) : F32 :=
  if fmt = 0 then widen .int32 v else if fmt = 1 then widen .int8 v else if fmt = 2 then widen .bf16 v else BitVec.ofNat 32 v

/-- A pair of elements lies inside the envelope: one FP32 rounding for each operation. -/
def Envelope.inside (x : Envelope) (p s : F32) : Bool :=
  if fisNaN p || fisNaN s then false
  else if x.mode = 0 then fle (fsub p s &&& 0x7FFFFFFF#32) (fadd x.tolAbs (fmul x.tolRel (s &&& 0x7FFFFFFF#32)))
  else fle (fsub s x.tolAbs) p

/-- The elements outside: an element that the frame does not deliver counts as one. -/
def Envelope.outside (x : Envelope) (ps ss : List Nat) : Nat :=
  ((List.range x.elements).filter fun i =>
    match ps[i]?, ss[i]? with
    | some p, some q => !x.inside (envValue x.fmt p) (envValue x.fmt q)
    | _, _ => true).length

/-- ENVELOPE_COMPARE: a comparator tests an entry, once both edges have arrived, and sends verdict and count to both lanterns. -/
def State.envelopeCompare (s : State) (h g f i : Nat) : State :=
  match s.graph? g with
  | none => s
  | some gr =>
    match gr.frame? f, (s.envelopesOf gr)[i]? with
    | some fr, some x =>
      if ¬ s.comparatorRuns h ∨ gr.bundle.header.checking ≠ 2 ∨ fr.compared.contains (i, h) ∨ fr.withheld ∨ ¬ gr.outputThere fr x.primary ∨
          ¬ gr.outputThere fr x.shadow then s
      else
        let n := x.outside (s.envData gr fr x.primary (envElem x.fmt)) (s.envData gr fr x.shadow (envElem x.fmt))
        let m (l : Nat) : EnvMsg := { lantern := l, graph := g, frame := f, entry := i, hub := h, outside := n, passed := n ≤ x.maxOut }
        { s with lan := { s.lan with envs := s.lan.envs ++ [m 0, m 1] } }.modFrame g f fun fr => { fr with compared := fr.compared ++ [(i, h)] }
    | _, _ => s

/-- The cores that hold a station of a graph. -/
def Graph.allCores (gr : Graph) : List Nat := ((gr.places.filter (·.placed)).map (·.core)).foldl addNew []

/-- ENVELOPE_RESULT_RX: a lantern receives the oldest comparator result on its way to it. -/
def State.envelopeRx (s : State) (l : Nat) : State :=
  match takeFirst (fun (m : EnvMsg) => m.lantern == l) s.lan.envs with
  | none => s
  | some (m, rest) =>
    let s1 := { s with lan := { s.lan with envs := rest } }.noteFrame l m.graph m.frame fun x =>
      { x with envelopes := x.envelopes ++ [(m.entry, m.hub, m.outside, m.passed)] }
    match s1.graph? m.graph, (s1.lantern l).frame? m.graph m.frame with
    | some gr, some x =>
      match s1.entryResult x m.entry with
      | some (pass, same) =>
        let s2 := if same then s1 else s1.checkerMismatch l m.graph m.frame .comparators [40, 41]
        if pass ∨ ¬ same then s2 else s2.checkerMismatch l m.graph m.frame .envelope gr.allCores (some (m.entry, m.outside))
      | none => s1
    | _, _ => s1

/-! ### The fault gap and the outage limit (R410) -/

/-- Since when a loaded graph has released no usable frame, as a lantern sees it: it counts from the loading and from its own start. -/
def Lantern.silentSince (x : Lantern) (gr : Graph) : Nat := max (tblGet 0 x.lastUsable gr.num) (max gr.loadedAt x.since)

/-- No usable frame of a safety-relevant graph for a time in ms. -/
def State.gapOver (s : State) (l g ms : Nat) : Bool :=
  match s.graph? g with
  | some gr => (s.lantern l).works && gr.bundle.header.safety == 1 && decide ((s.lantern l).silentSince gr + ms * 1000 ≤ s.now)
  | none => false

/-- FAULT_GAP_EXPIRY. -/
def State.faultGap (s : State) (l g : Nat) : State :=
  if s.gapOver l g (s.lantern l).config.gapMs then s.assertFault l causeGap g else s

/-- OUTAGE_EXPIRY. -/
def State.outage (s : State) (l g : Nat) : State :=
  if s.gapOver l g (s.lantern l).config.outageMs ∧ (s.lantern l).run = .RUNNING then s.enterSafe l causeOutage g else s

/-! ### The commands -/

/-- LANTERN_RESET_RELEASE (R383): with its rail good the lantern starts. -/
def execLanternResetRelease (lantern : Fin 2) (config : LnfConfig) (s : State) : Host.Outcome State Fault Refusal :=
  if nth false s.pins.lanRstHigh lantern then .next s
  else
    let s1 := { s with pins := { s.pins with lanRstHigh := setNth s.pins.lanRstHigh lantern true } }
    .next (if s.railGood (lanternRail lantern) then s1.lanternBoot lantern config else s1)
/-- LAN_RST_ASSERT (R418). -/
def execLanRstAssert (lantern : Fin 2) (s : State) : Host.Outcome State Fault Refusal :=
  .next ({ s with pins := { s.pins with lanRstHigh := setNth s.pins.lanRstHigh lantern false } }.lanternReset lantern)
/-- LOCKSTEP_MISMATCH (R384). -/
def execLockstepMismatch (lantern : Fin 2) (kind : LanternHw) (s : State) : Host.Outcome State Fault Refusal := .next (s.lockstep lantern kind)
/-- LANTERN_HB_TOGGLE (R386). -/
def execLanternHbToggle (lantern : Fin 2) (s : State) : Host.Outcome State Fault Refusal :=
  .next (if (s.lantern lantern).works then s.modLantern lantern fun x => { x with hbOut := !x.hbOut } else s)
/-- PEER_HB_EDGE (R386). -/
def execPeerHbEdge (lantern : Fin 2) (periodNs : Nat) (s : State) : Host.Outcome State Fault Refusal := .next (s.peerEdge lantern periodNs)
/-- PEER_HB_TIMEOUT (R385). -/
def execPeerHbTimeout (lantern : Fin 2) (s : State) : Host.Outcome State Fault Refusal := .next (s.peerTimeout lantern)
/-- LANTERN_CLOCK_WINDOW (R385). -/
def execLanternClockWindow (lantern : Fin 2) (ppm : Int) (s : State) : Host.Outcome State Fault Refusal := .next (s.clockWindow lantern ppm)
/-- MP_HEARTBEAT_RX (R385). -/
def execMpHeartbeatRx (lantern : Fin 2) (s : State) : Host.Outcome State Fault Refusal := .next (s.mpHeard lantern)
/-- MP_HEARTBEAT_TIMEOUT (R385). -/
def execMpHeartbeatTimeout (lantern : Fin 2) (s : State) : Host.Outcome State Fault Refusal := .next (s.mpSilent lantern)
/-- MP_TAKEOVER_TIMEOUT (R410). -/
def execMpTakeoverTimeout (lantern : Fin 2) (s : State) : Host.Outcome State Fault Refusal := .next (s.mpLost lantern)
/-- LANTERN_FRAME_START (R388). -/
def execLanternFrameStart (lantern : Fin 2) (graph : Fin 64) (frame : Nat) (ok : Bool) (s : State) : Host.Outcome State Fault Refusal :=
  .next (s.frameStart lantern graph frame ok)
/-- LANTERN_HANDOVER_RX (R389). -/
def execLanternHandoverRx (lantern : Fin 2) (graph : Fin 64) (frame : Nat) (ok : Bool) (s : State) : Host.Outcome State Fault Refusal :=
  .next (s.handoverRx lantern graph frame ok)
/-- DEADLINE_EXPIRY (R390). -/
def execDeadlineExpiry (lantern : Fin 2) (graph : Fin 64) (frame : Nat) (s : State) : Host.Outcome State Fault Refusal :=
  .next (s.deadline lantern graph frame)
/-- VERDICT_RX (R26). -/
def execVerdictRx (lantern : Fin 2) (graph : Fin 64) (frame : Nat) (s : State) : Host.Outcome State Fault Refusal :=
  .next (s.verdictRx lantern graph frame)
/-- VERDICT_TIMEOUT (R26). -/
def execVerdictTimeout (lantern : Fin 2) (graph : Fin 64) (frame : Nat) (s : State) : Host.Outcome State Fault Refusal :=
  .next (s.verdictTimeout lantern graph frame)
/-- SIGNATURE_RX (R393). -/
def execSignatureRx (lantern : Fin 2) (s : State) : Host.Outcome State Fault Refusal := .next (s.signatureRx lantern)
/-- ENVELOPE_COMPARE (R395). -/
def execEnvelopeCompare (hub : Fin 2) (graph : Fin 64) (frame : Nat) (entry : Fin 16) (s : State) : Host.Outcome State Fault Refusal :=
  .next (s.envelopeCompare hub graph frame entry)
/-- ENVELOPE_RESULT_RX (R395). -/
def execEnvelopeResultRx (lantern : Fin 2) (s : State) : Host.Outcome State Fault Refusal := .next (s.envelopeRx lantern)
/-- FAULT_GAP_EXPIRY (R410). -/
def execFaultGapExpiry (lantern : Fin 2) (graph : Fin 64) (s : State) : Host.Outcome State Fault Refusal := .next (s.faultGap lantern graph)
/-- OUTAGE_EXPIRY (R410). -/
def execOutageExpiry (lantern : Fin 2) (graph : Fin 64) (s : State) : Host.Outcome State Fault Refusal := .next (s.outage lantern graph)
/-- LAN_ERR_HOLD_EXPIRY (R417). -/
def execLanErrHoldExpiry (lantern : Fin 2) (bit : Fin 11) (s : State) : Host.Outcome State Fault Refusal := .next (s.lanHoldExpiry lantern bit)
/-- RATINGS_HOLD_EXPIRY (R458). -/
def execRatingsHoldExpiry (lantern : Fin 2) (s : State) : Host.Outcome State Fault Refusal := .next (s.ratingsExpiry lantern)
/-- LANTERN_COMPARE_TEST (R396): the lantern's own compare test of 2 ms, asked for by LANTERN_DISAGREE, has run. -/
def execLanternCompareTest (lantern : Fin 2) (s : State) : Host.Outcome State Fault Refusal :=
  .next (if (s.lantern lantern).works then s.modLantern lantern fun x => { x with compareTest := false } else s)

end Sys2Proof.Machine
end

