-- ==== Sys2Proof/Machine/LedgerFmt.lean ====
section
/-! DEFINITION. The 64 B entry of the ledger and of a lantern's event record (R470, R514). The event table of the MPF image gives what the
manual leaves to it. -/

namespace Sys2Proof.Machine

/-- The events of either lantern: source block 12 (R416, R470). -/
def Event.ofLantern : Event → Bool
  | .VERDICT_LATE | .CHECK_MISMATCH | .FAULT_ASSERTED | .FAULT_RELEASED | .LAN_CLOCK_SPLIT | .PROMISE_CHANGE | .POWER_OFF_REQ
  | .THERMAL_TRIP | .LANTERN_DISAGREE | .SELFTEST_STARVED => true
  | _ => false

/-- The event field: source block [15:10], event [9:0]; BOOT_STOPPED is an event of the MGT block (R423). -/
def Event.code (e : Event) : Nat :=
  let block := if e.ofLantern then 12 else if e = .BOOT_STOPPED then 16 else (Config.eventBlock e.ctorIdx).toNat
  block * 1024 + (Config.eventNumber e.ctorIdx).toNat

/-- The severity of an event. -/
def Event.severity (e : Event) : Nat := (Config.eventSeverity e.ctorIdx).toNat

/-- An entry as its 64 B. -/
def entryBytes (seq boot time : Nat) (e : Event) (die flags : Nat) (detail : List Nat) : List Byte :=
  let head := toLe 8 seq ++ toLe 4 boot ++ toLe 6 time ++ toLe 2 e.code ++ toLe 1 die ++ toLe 1 (Config.eventUnit e.ctorIdx).toNat ++
    toLe 1 e.severity ++ toLe 1 flags
  let det := padTo 32 (Config.eventDetail e.ctorIdx detail)
  head ++ toLe 4 (crc32 (head ++ det)).toNat ++ toLe 4 0 ++ det

/-- An entry of lantern `l`'s event record. -/
def RecEntry.bytes (l : Nat) (x : RecEntry) : List Byte := entryBytes x.seq x.boot x.at_ x.ev (4 + l) 1 x.detail

end Sys2Proof.Machine
end

