-- ==== Sys2Proof/Machine/LanternCan.lean ====
section
/-! DEFINITION. What a lantern sends on its CAN FD port (R414 … R416). -/

namespace Sys2Proof.Machine

/-- Send a message on a lantern's CAN FD port. -/
def State.canSend (s : State) (l off : Nat) (data : List Byte) : State := s.emit (.can l ((s.lantern l).config.canBase + off) data)

/-- LAN_STATE.peer: 0 unknown, 1 alive, 2 lost. -/
def Lantern.peerCode (x : Lantern) : Nat := if x.peerLost then 2 else if x.peerHeard.isSome then 1 else 0

/-- The age of the stored trajectory in ms. -/
def State.trajAge (s : State) (l : Nat) : Nat :=
  if (s.lantern l).stored = [] then 0 else min ((s.now - (s.lantern l).storedAt) / 1000) 0xFFFFFFFF

/-- STATUS. -/
def State.statusEmit (s : State) (l : Nat) : State :=
  let x := s.lantern l
  if ¬ x.works then s
  else s.canSend l 0 (toLe 1 x.run.ctorIdx ++ toLe 1 (x.cause % 256) ++ toLe 1 (s.promise l % 256) ++ toLe 1 x.peerCode ++ toLe 4 x.lastJudged ++
    toLe 4 (s.trajAge l) ++ toLe 4 0)

/-- The stop profile that a lantern builds from its stored record, `elapsed` µs after it was stored (R369, R415). -/
def stopRecord (rec : List Byte) (elapsed decel : Nat) : List Byte :=
  let start := recordStart rec
  let pts : List TrajPoint × Nat :=
    match remainingPoints rec (recordTau rec + elapsed * 1000) ((start : Int) * 1000000) with
    | some (t, ps) => (stopProfile decel ps, (t / 1000000).toNat)
    | none =>
      let p := Config.lanternPose rec
      ([{ x := p.1, y := p.2.1, heading := p.2.2 }], start)
  let flags := leAt rec 13 1
  let out : TrajRecord :=
    { es := leAt rec 0 4, eout := leAt rec 4 4, frame := leAt rec 8 4, incomplete := bitN flags 1, mapChanged := bitN flags 2
      found := leAt rec 20 2, coverage := leAt rec 22 2, tau := recordTau rec, startMs := pts.2, expansions := leAt rec 44 4, points := pts.1 }
  out.bytes

/-- The mode and the record of an emission: NONE, ARMED or ACTIVE. -/
def State.emission (s : State) (l : Nat) : Nat × List Byte :=
  let x := s.lantern l
  if x.stored = [] then (0, List.replicate recordBytes 0)
  else if x.active then (2, stopRecord x.stored (s.now - x.storedAt) x.config.decel)
  else (1, x.stored)

/-- TRAJ_HEAD and the 16 TRAJ_DATA messages. -/
def State.trajEmit (s : State) (l : Nat) : State :=
  let x := s.lantern l
  if ¬ x.works then s
  else
    let e := s.emission l
    let s1 := s.canSend l 1 (toLe 2 x.trajSeq ++ toLe 1 e.1 ++ toLe 1 0 ++ toLe 4 (s.trajAge l) ++ toLe 4 x.storedFrame ++
      toLe 4 (crc32 e.2).toNat)
    let s2 := (List.range 16).foldl (fun s k => s.canSend l (2 + k) ((e.2.drop (64 * k)).take 64)) s1
    s2.modLantern l fun x => { x with trajSeq := (x.trajSeq + 1) % 65536 }

/-- An entry of a lantern's record by its index. -/
def Lantern.entry? (x : Lantern) (i : Nat) : Option RecEntry := x.record.find? fun e => e.seq == i

/-- REC_REQ: the entries that exist from the first index on, then REC_END. An index that is not in the record, or a count outside 1 … 64,
is out of range. -/
def State.recReq (s : State) (l : Nat) (data : List Byte) : State :=
  let x := s.lantern l
  if x.run = .RESET ∨ x.run = .FAILED ∨ data.length ≠ 8 then s
  else
    let first := leAt data 0 4
    let n := leAt data 4 2
    let found := if n = 0 ∨ 64 < n then [] else (List.range n).filterMap fun k => x.entry? (first + k)
    let s1 := found.foldl (fun s e => s.canSend l 19 (e.bytes l)) s
    s1.canSend l 20 (toLe 4 (first + found.length) ++ toLe 2 found.length ++ toLe 2 (b2n (found.length != n || n == 0)))

/-- STATUS_EMIT (R414). -/
def execStatusEmit (lantern : Fin 2) (s : State) : Host.Outcome State Fault Refusal := .next (s.statusEmit lantern)
/-- TRAJ_HEAD_EMIT (R415). -/
def execTrajHeadEmit (lantern : Fin 2) (s : State) : Host.Outcome State Fault Refusal := .next (s.trajEmit lantern)
/-- REC_REQ (R416). -/
def execRecReq (lantern : Fin 2) (data : List Byte) (s : State) : Host.Outcome State Fault Refusal := .next (s.recReq lantern data)

end Sys2Proof.Machine
end

