-- ==== Sys2Proof/Machine/SelfTest.lean ====
section
/-! DEFINITION. The in-field self-test (R402 … R406): windows, chunks and coverage. Units are numbered as in `TestReq`. -/

namespace Sys2Proof.Machine

/-- R402: the chunks of a unit. -/
def unitChunks (u : Nat) : Nat := if u < 32 then 24 else if u < 36 then 16 else if u < 38 then 12 else if u < 40 then 8 else 2

/-- R402: the lantern on a unit's side. -/
def unitSide (u : Nat) : Nat := if u < 32 then u / 16 else if u < 36 then (u - 32) / 2 else u % 2

/-- The lantern that grants a unit's windows: that of its side, or the other when it is lost. -/
def State.granter (s : State) (u : Nat) : Nat := if (s.lantern (unitSide u)).works then unitSide u else 1 - unitSide u

/-- A unit is there to be tested: not fenced and not lost. -/
def State.testable (s : State) (u : Nat) : Bool :=
  if u < 32 then !s.coreFenced u else if u < 36 then !s.dieFenced (u - 32) else !s.lan.lostUnits.contains u && !(s.link (u % 2)).lost

/-- The units that are there. -/
def State.testUnits (s : State) : List Nat := (List.range 42).filter s.testable

/-- A unit's place in the self-test. -/
def State.testUnit (s : State) (u : Nat) : TestUnit := tblGet {} s.lan.units u
/-- Change it. -/
def State.modTestUnit (s : State) (u : Nat) (f : TestUnit → TestUnit) : State :=
  { s with lan := { s.lan with units := tblMod {} s.lan.units u f } }

/-- R403: the window that a chunk needs, in µs. -/
def windowMin : Nat := 170

/-- WINDOW_GRANT: a lantern grants a unit that forecasts no work a window of at least 170 µs and names its length. -/
def State.grantWindow (s : State) (l u us : Nat) : State :=
  if (s.lantern l).works ∧ s.granter u = l ∧ s.testable u ∧ windowMin ≤ us then s.modTestUnit u fun x => { x with windowEnd := s.now + us } else s

/-- A unit has no work: a core runs no pass and has none ready. -/
def State.unitIdle (s : State) (u : Nat) : Bool :=
  !s.graphs.testing.any (fun t => t.unit == u) && (32 ≤ u || ((s.core u).run == .IDLE && (s.core u).ready == [] && !(s.core u).testHold))

/-- CHUNK_START: with at least 170 µs of window left, the next chunk of the unit starts. -/
def State.chunkStart (s : State) (u : Nat) : State :=
  let x := s.testUnit u
  if s.testable u ∧ ¬ x.running ∧ x.passed < unitChunks u ∧ s.now + windowMin ≤ x.windowEnd ∧ s.unitIdle u then
    let s1 := s.modTestUnit u fun x => { x with running := true }
    if u < 32 then s1.modCore u fun k => { k with run := .SELFTEST } else s1
  else s

/-- A core goes back to its work after a chunk. -/
def State.chunkLeave (s : State) (u : Nat) : State :=
  if u < 32 then s.modCore u fun k => if k.run = .SELFTEST ∧ ¬ k.testHold then CoreState.settle { k with run := .IDLE } else k else s

/-- CHUNK_DONE: a pass counts, and after a failed chunk it is a glint; a failure is rerun at once, and a second one is lasting (R405). -/
def State.chunkDone (s : State) (u : Nat) (passed : Bool) : State :=
  let x := s.testUnit u
  if ¬ x.running then s
  else if passed then
    let s1 := (s.modTestUnit u fun x => { x with running := false, rerun := false, passed := x.passed + 1 }).chunkLeave u
    let s2 := s1.modLantern (s.granter u) fun y => if y.works then { y with chunks := (y.chunks + 1) % 2 ^ 32 } else y
    if x.rerun then s2.glint u else s2
  else if x.rerun then
    ((s.modTestUnit u fun x => { x with running := false, rerun := false }).chunkLeave u).lasting u x.passed
  else s.modTestUnit u fun x => { x with rerun := true }

/-- CHUNK_ABORT: work has reached the unit during a chunk; the chunk goes back to the head of the queue (R404). -/
def State.chunkAbort (s : State) (u : Nat) : State :=
  if ¬ (s.testUnit u).running then s
  else
    ((s.modTestUnit u fun x => { x with running := false }).chunkLeave u).modLantern (s.granter u) fun y =>
      if y.works then { y with aborts := min (y.aborts + 1) 0xFFFFFFFF } else y

/-! ### Coverage (R405, R406) -/

/-- R406: consecutive periods. -/
def starvePeriods : Nat := 3

/-- A unit at the end of a period. -/
def TestUnit.periodEnd (x : TestUnit) (covered : Bool) : TestUnit :=
  { x with passed := 0, missed := if covered then 0 else x.missed + 1, good := if covered then min (x.good + 1) starvePeriods else 0 }

/-- A unit ends a period: the third one uncovered in a row starves it. -/
def State.unitPeriod (s : State) (u : Nat) : State :=
  let x := (s.testUnit u).periodEnd ((s.testUnit u).passed == unitChunks u)
  if starvePeriods ≤ x.missed ∧ ¬ x.starved then (s.modTestUnit u fun _ => { x with starved := true }).log .SELFTEST_STARVED 0xFF [u]
  else s.modTestUnit u fun _ => x

/-- The starved units are well again once every unit has had three covered periods in a row. -/
def State.starveClear (s : State) : State :=
  if s.testUnits.all fun u => starvePeriods ≤ (s.testUnit u).good then
    { s with lan := { s.lan with units := (s.lan.units.map fun e => (e.1, { e.2 with starved := false })).filter fun e => e.2 ≠ {} } }
  else s

/-- COVERAGE_PERIOD_END: a lantern's period ends for the units that it grants windows. -/
def State.periodEnd (s : State) (l : Nat) : State :=
  let x := s.lantern l
  if ¬ x.works ∨ s.now < x.periodAt + x.periodMs * 1000 then s
  else
    let us := s.testUnits.filter fun u => s.granter u == l
    let n := (us.filter fun u => (s.testUnit u).passed == unitChunks u).length
    let s1 := (us.foldl (fun s u => s.unitPeriod u) s).starveClear
    let s2 := s1.modLantern l fun y => { y with coveredUnits := n, periods := (y.periods + 1) % 65536, periodAt := s.now }
    (s2.workingLanterns.foldl (fun s l => s.lanCondition l 3 (!s.notStarved)) s2).promiseCheck

/-! ### The commands -/

/-- WINDOW_GRANT (R403). -/
def execWindowGrant (lantern : Fin 2) (unit : Fin 42) (us : Nat) (s : State) : Host.Outcome State Fault Refusal :=
  .next (s.grantWindow lantern unit us)
/-- CHUNK_START (R402). -/
def execChunkStart (unit : Fin 42) (s : State) : Host.Outcome State Fault Refusal := .next (s.chunkStart unit)
/-- CHUNK_DONE (R405). -/
def execChunkDone (unit : Fin 42) (passed : Bool) (s : State) : Host.Outcome State Fault Refusal := .next (s.chunkDone unit passed)
/-- CHUNK_ABORT (R404). -/
def execChunkAbort (unit : Fin 42) (s : State) : Host.Outcome State Fault Refusal := .next (s.chunkAbort unit)
/-- COVERAGE_PERIOD_END (R406). -/
def execCoveragePeriodEnd (lantern : Fin 2) (s : State) : Host.Outcome State Fault Refusal := .next (s.periodEnd lantern)

end Sys2Proof.Machine
end

