-- ==== Sys2Proof/Machine/Mirror.lean ====
section
/-! DEFINITION. The mirror link: DOWN frames and heartbeats out, frames of the twin in, silence and the roles (R429 … R436). -/

namespace Sys2Proof.Machine

/-! ### Sending (R431) -/

/-- R431: a DOWN frame is sent three times. -/
def downFrames : Nat := 3

/-- DOWN_FRAME_SEND: the next of a lantern's three DOWN frames, on its hub's port. -/
def State.downSend (s : State) (l : Nat) : State :=
  match s.recovery.down.find? fun x => x.1 == l with
  | none => s
  | some (_, n, cause) =>
    let rest := s.recovery.down.filter fun x => x.1 != l
    let down := if n + 1 = downFrames then rest else rest ++ [(l, n + 1, cause)]
    { s with recovery := { s.recovery with down := down } }.mirSend l kindDown (cause % 256) []

/-- The management firmware of a hub runs. -/
def State.firmware (s : State) (h : Nat) : Bool := (s.hubMgt h).role != .BOOT && !(s.link h).lost

/-- MIR_HEARTBEAT_SEND: active or standby, on its own hub's port. -/
def State.heartbeatSend (s : State) (h : Nat) : State := if s.firmware h then s.mirSend h kindHeartbeat 0 [] else s

/-! ### Receiving (R429, R433 … R436) -/

/-- Payload bytes before the CRC, by kind. -/
def mirBytes (kind : Nat) : Nat := if kind = 2 then 1120 else 32

/-- A frame on a port: its payload when it is addressed to this port by the twin, and carries a CRC that holds. `crc` in the answer says
that only the FCS or the payload's CRC failed. -/
def State.mirParse (s : State) (h : Nat) (frame : List Byte) (fcsOk : Bool) : Option (List Byte) × Bool :=
  let p := frame.drop 14
  let n := mirBytes (leAt p 3 1)
  if ¬ fcsOk then (none, true)
  else if beAt frame 12 2 ≠ 0x88B5 ∨ frame.take 6 ≠ s.mac .MIR_MAC_LO .MIR_MAC_HI h ∨
      (frame.drop 6).take 6 ≠ s.mac .MIR_PEER_MAC_LO .MIR_PEER_MAC_HI h then (none, false)
  else if p.length < n + 4 ∨ leAt p n 4 ≠ (crc32 (p.take n)).toNat then (none, true)
  else if leAt p 0 2 ≠ 0x4D52 ∨ leAt p 2 1 ≠ 1 then (none, false)
  else (some (p.take n), false)

/-- MIR_FRAME_DROP: a frame is discarded and counted. -/
def State.mirDrop (s : State) (h : Nat) (crc : Bool) : State :=
  let s1 := (s.satReg (ra .MIR_RX_DROP h)).raise .MIR h 0
  if crc then s1.raise .MIR h 5 else s1

/-- What every frame tells of the twin: health word, boot count, identity. -/
def State.mirNote (s : State) (h : Nat) (p : List Byte) : State :=
  ((((s.wrapReg (ra .MIR_RX_FRAMES h)).setReg (ra .MIR_PEER_HEALTH h) (word (leAt p 12 4))).setReg (ra .MIR_PEER_BOOT h)
    (word (leAt p 8 4))).setReg (ra .MIR_PEER_ID_LO h) (word (leAt p 16 4))).setReg (ra .MIR_PEER_ID_HI h) (word (leAt p 20 4))

/-- R434 on a frame: a twin that acts LEAD is heard; when both act LEAD, the lower lead_ms yields, and on equal ones the higher
device_id. -/
def State.hearRole (s : State) (p : List Byte) : State :=
  if ¬ bitN (leAt p 12 4) 18 then { s with mirror := { s.mirror with conflict := false } }
  else
    let s1 := { s with mirror := { s.mirror with leadHeard := some s.now } }
    if ¬ s.mirror.lead then s1
    else
      let s2 := if s.mirror.conflict then s1
        else ({ s1 with mirror := { s1.mirror with conflict := true } }.mirRaise 7).log .ROLE_CONFLICT 0xFF []
      let theirs := leAt p 24 4
      if s.leadMs < theirs ∨ (s.leadMs = theirs ∧ leAt p 16 8 < deviceId) then s2.setLead false else s2

/-- A frame of one kind on an enabled port: dropped, or accepted. -/
def State.mirRx (s : State) (h kind : Nat) (frame : List Byte) (fcsOk : Bool) (act : State → List Byte → State) : State :=
  if ¬ s.mirSends h then s
  else
    match s.mirParse h frame fcsOk with
    | (none, crc) => s.mirDrop h crc
    | (some p, _) => if leAt p 3 1 ≠ kind then s else act s p

/-- MIR_HEARTBEAT_RX. -/
def State.heartbeatRx (s : State) (h : Nat) (p : List Byte) : State :=
  let since := if s.hbRecent then s.mirror.hbSince.orElse fun _ => some s.now else some s.now
  let s1 := ((s.mirNote h p).modMirPort h fun x => { x with hbAt := some s.now }).hearRole p
  ({ s1 with mirror := { s1.mirror with hbSince := since } }.twinRestore).twinCheck

/-- MIR_EXCHANGE_RX: a frame number below the last one is discarded unless the twin's boot count has changed (R436); the payload goes
to the receive ring. -/
def State.exchangeRx (s : State) (h : Nat) (p : List Byte) : State :=
  let m := s.mirror
  let boot := leAt p 8 4
  let f := leAt p 36 4
  let rebooted := boot ≠ m.peerBoot
  if f < m.peerFrame ∧ ¬ rebooted then s.mirDrop h false
  else
    let s1 := (((s.mirNote h p).setReg (ra .MIR_PEER_FRAME h) (word f)).setReg (ra .MIR_PEER_EDITION h) (word (leAt p 40 4))).hearRole p
    let k := (s.mirPort h).rxIndex
    let s2 := match s.mirRing h with
      | some a => s1.writeMem (a + 2048 * (k % 8)) (p.take 1120)
      | none => s1
    let s3 := s2.modMirPort h fun x => { x with exAt := some s.now, rxIndex := (x.rxIndex + 1) % 2 ^ 32 }
    let again := m.heardEx && f == m.peerFrame && boot == m.peerBoot
    let run := if bitsN (leAt p 12 4) 31 28 = 0 then (if again then m.runningEx else m.runningEx + 1) else 0
    ({ s3 with mirror := { s3.mirror with
        heard := true, heardEx := true, peerBoot := boot, peerFrame := f, runningEx := run
        misses := if rebooted then 0 else s3.mirror.misses } }.twinRestore).twinCheck

/-- MIR_DOWN_RX: the twin is lost at once. -/
def State.downRx (s : State) (h : Nat) (p : List Byte) : State :=
  ((((s.mirNote h p).raise .MIR h 6).hearRole p).loseTwin .LOST (leAt p 29 1))

/-- ROLE_HEAR_TIMEOUT: after 100 ms without hearing a twin that acts LEAD, the device acts in its configured role. -/
def State.roleTimeout (s : State) : State :=
  let m := s.mirror
  if s.mirPorts = [] ∨ m.roleSettled ∨ s.now < max m.roleAt (m.leadHeard.getD 0) + roleGap then s
  else
    let s1 := { s with mirror := { m with roleSettled := true } }
    if s.mirSetup.getLsbD 30 then s1.setLead true else s1

/-- MIR_PORT_LINK_CHANGE. -/
def State.mirLink (s : State) (h : Nat) (up : Bool) : State :=
  let s1 := s.modMirPort h fun p => { p with up := up }
  if !up && (s.mirPort h).up then s1.raise .MIR h 1 else s1

/-! ### The commands -/

/-- DOWN_FRAME_SEND (R431). -/
def execDownFrameSend (lantern : Fin 2) (s : State) : Host.Outcome State Fault Refusal := .next (s.downSend lantern)
/-- MIR_HEARTBEAT_SEND (R431). -/
def execMirHeartbeatSend (hub : Fin 2) (s : State) : Host.Outcome State Fault Refusal := .next (s.heartbeatSend hub)
/-- MIR_HEARTBEAT_RX (R433). -/
def execMirHeartbeatRx (hub : Fin 2) (frame : List Byte) (fcsOk : Bool) (s : State) : Host.Outcome State Fault Refusal :=
  .next (s.mirRx hub kindHeartbeat frame fcsOk fun s p => s.heartbeatRx hub p)
/-- MIR_EXCHANGE_RX (R435). -/
def execMirExchangeRx (hub : Fin 2) (frame : List Byte) (fcsOk : Bool) (s : State) : Host.Outcome State Fault Refusal :=
  .next (s.mirRx hub kindExchange frame fcsOk fun s p => s.exchangeRx hub p)
/-- MIR_DOWN_RX (R433). -/
def execMirDownRx (hub : Fin 2) (frame : List Byte) (fcsOk : Bool) (s : State) : Host.Outcome State Fault Refusal :=
  .next (s.mirRx hub kindDown frame fcsOk fun s p => s.downRx hub p)
/-- TWIN_SILENCE (R433). -/
def execTwinSilence (s : State) : Host.Outcome State Fault Refusal := .next s.twinCheck
/-- ROLE_HEAR_TIMEOUT (R434). -/
def execRoleHearTimeout (s : State) : Host.Outcome State Fault Refusal := .next s.roleTimeout
/-- MIR_PORT_LINK_CHANGE (R438). -/
def execMirPortLinkChange (hub : Fin 2) (up : Bool) (s : State) : Host.Outcome State Fault Refusal := .next (s.mirLink hub up)

end Sys2Proof.Machine
end

