-- ==== Sys2Proof/Machine/Supply.lean ====
section
/-! DEFINITION. Supplies and clocks: power-good and die clock faults (R385, R410, R413, R441), the AVSBus (R442, R443), cluster clocks
(R24, R450), package power (R444) and the life counters (R460, R461). -/

namespace Sys2Proof.Machine

/-! ### Rails -/

/-- A rail. -/
def State.rail (s : State) (r : Nat) : RailState := tblGet {} s.thermal.rails r
/-- Change a rail. -/
def State.modRail (s : State) (r : Nat) (f : RailState → RailState) : State :=
  { s with thermal := { s.thermal with rails := tblMod {} s.thermal.rails r f } }

/-- Rails 0 … 5. -/
def coreRails : List Nat := [0, 1, 2, 3, 4, 5]

/-- The device runs, or boots: it is not held in a power-on reset. -/
def State.alive (s : State) : Bool := s.recovery.phase != .porstLow

/-- The effect of a condition that both lanterns see. -/
def State.bothLanterns (s : State) (f : State → Nat → State) : State := s.workingLanterns.foldl f s

/-- A unit whose supply or clock has failed: the fault manager fences it (R413, R468). -/
def State.unitFault (s : State) (u : FenceUnit) : State := if s.managed ∧ s.recovery.phase = .running then s.fenceUnit u else s

/-- A die whose supply or reference clock has failed: a Talxon die is fenced, a hub die is lost. -/
def State.dieFault (s : State) (d : Nat) : State :=
  if h : d < 4 then s.unitFault (.die ⟨d, h⟩) else if (s.link (d - 4)).lost then s else s.failHub (d - 4)

/-- A Talxon die's rail is down: its keeper stops, and with it the contents of its stack go (R207). -/
def State.loseKeeper (s : State) (d : Nat) : State :=
  { s with
    recovery := { s.recovery with keepers := tblSet {} s.recovery.keepers d {} }
    hbm := { s.hbm with mcs := tblMod {} s.hbm.mcs d fun m => { repairs := m.repairs, retired := m.retired } } }

/-- PGOOD_FALL. -/
def State.pgoodFall (s : State) (r : Nat) : State :=
  if ¬ s.railGood r then s
  else
    let s1 := s.modRail r fun x => { x with good := false }
    let s2 := if r < 6 ∧ s.thermal.upSince.isSome then { s1 with thermal := { s1.thermal with poweredUs := s.poweredUs, upSince := none } } else s1
    let s3 := if coreRails.any s2.railGood then s2
      else { s2 with pins := { s2.pins with railsFellAt := s2.pins.railsFellAt.orElse fun _ => some s.now } }
    let s4 := if s.alive then (s3.raise .PWR 0 2 r).log .RAIL_PGOOD_LOW 0xFF [r] else s3
    let s5 := s4.bothLanterns fun s l => s.lanCondition l 5 true
    let s6 := if r = 6 ∨ r = 7 then s5.lanternReset (r - 6) else if r < 4 then s5.loseKeeper r else s5
    let s7 := if s.alive ∧ r < 6 then s6.dieFault r else s6
    (s7.faultsBeyond s).ratingsCheck

/-- PGOOD_RISE: a lantern whose reset pin is high starts with its rail; the conditions of FAULT may have ended. -/
def State.pgoodRise (s : State) (r : Nat) : State :=
  if s.railGood r then s
  else
    let s1 := s.modRail r fun x => { x with good := true }
    let s2 := if coreRails.all s1.railGood then { s1 with thermal := { s1.thermal with upSince := some s.now }, pins := { s1.pins with railsFellAt := none } }
      else if r < 6 then { s1 with pins := { s1.pins with railsFellAt := none } } else s1
    let s3 := if s2.pgoodLow then s2 else s2.bothLanterns fun s l => s.lanCondition l 5 false
    let s4 := if (r = 6 ∨ r = 7) ∧ nth false s.pins.lanRstHigh (r - 6) then s3.lanternBoot (r - 6) (s3.lantern (r - 6)).config else s3
    (s4.bothLanterns fun s l => s.releaseFault l).ratingsCheck

/-- DIE_CLOCK_FAULT: a die's monitor finds its reference clock, or one cluster's PLL, outside its limit. -/
def State.clockFault (s : State) (d : Nat) (pll : Option (Fin 2)) : State :=
  if ¬ s.alive then s
  else
    let s1 := s.bothLanterns fun s l => s.lanError l 4
    match pll with
    | some j => if h : d < 4 then s1.unitFault (.cluster ⟨2 * d + j.val, by omega⟩) else s1.dieFault d
    | none =>
      let s2 := { s1 with pins := { s1.pins with clockBad := addNew s1.pins.clockBad d } }.dieFault d
      s2.faultsBeyond s

/-! ### Voltage and clock (R442, R443, R450) -/

/-- The nominal step in 100 MHz (log 39), and the lowest. -/
def stepNominal : Nat := 9
def stepLowest : Nat := 4

/-- The clock of a cluster. -/
def State.clusterClock (s : State) (k : Nat) : ClusterClock := tblGet {} s.thermal.clocks k
/-- Change it. -/
def State.modClock (s : State) (k : Nat) (f : ClusterClock → ClusterClock) : State :=
  { s with thermal := { s.thermal with clocks := tblMod {} s.thermal.clocks k f } }

/-- The graphs with a station on a cluster: whether any, and whether one of them is safety-relevant. -/
def State.clusterUse (s : State) (k : Nat) : Bool × Bool :=
  let gs := s.graphs.graphs.filter fun gr => gr.places.any fun p => p.placed && p.core / 4 == k
  (gs != [], gs.any fun gr => gr.bundle.header.safety == 1)

/-- The step that the shade level asks of a cluster; 0 stops its clock (R450). -/
def State.wantedStep (s : State) (k : Nat) : Nat :=
  let u := s.clusterUse k
  match s.thermal.shade with
  | 0 => stepNominal
  | 1 => if u.1 && !u.2 then stepLowest else stepNominal
  | 2 => if u.2 then stepLowest + Config.deadlineStep s.free k % (stepNominal + 1 - stepLowest) else if u.1 then stepLowest else stepNominal
  | _ => if u.2 then stepLowest else 0

/-- The hottest hot spot of a die in 0.125 °C, of those that have been read. -/
def State.junction (s : State) (d : Nat) : Int :=
  let spots := if d < 4 then [4 * d, 4 * d + 1, 4 * d + 2, 4 * d + 3] else [16 + 3 * (d - 4), 17 + 3 * (d - 4), 18 + 3 * (d - 4)]
  let vs := spots.filterMap fun h => (s.thermal.spots.find? fun e => e.1 == h).map (·.2.value)
  vs.foldl max (vs.headD 0)

/-- The voltage in mV that a step needs on a die at its temperature, in steps of 5 mV (R442). -/
def State.voltageFor (s : State) (d step : Nat) : Nat :=
  let t := s.junction d
  let cold : Int := (Config.voltageTable d step false : Nat)
  let hot : Int := (Config.voltageTable d step true : Nat)
  let x := max 200 (min 840 t)
  let v := cold + ((hot - cold) * (x - 200) + 639) / 640 + (if t < 0 then 25 else 0)
  max 600 (min 850 ((v.toNat + 4) / 5 * 5))

/-- The voltage that a rail needs: for the faster of what its clusters run at and what they are to run at. -/
def State.railNeed (s : State) (r : Nat) : Nat :=
  if 4 ≤ r then s.voltageFor r stepNominal
  else
    let steps := [2 * r, 2 * r + 1].flatMap fun k => [(s.clusterClock k).step, s.wantedStep k]
    if s.thermal.shade = 3 ∧ steps.all (· ≤ stepLowest) then 600 else s.voltageFor r (max stepLowest (steps.foldl max 0))

/-- Three requests in a row that are not acknowledged or not confirmed (R443). -/
def avsFailMax : Nat := 3

/-- A rail fails: it is held, and its die's clusters at the highest step its table allows at the last confirmed voltage. -/
def State.railFails (s : State) (r : Nat) : State :=
  let n := (s.rail r).fails + 1
  let s1 := s.modRail r fun x => { x with fails := n }
  if n = avsFailMax then ((s1.modRail r fun x => { x with held := true }).raise .PWR 0 1 r).log .AVS_FAIL 0xFF [r] else s1

/-- AVS_REQUEST: the master requests the voltage that a rail needs; a request without acknowledgement is retried once. A held rail is
not raised. -/
def State.avsRequest (s : State) (r : Nat) (ack retryAck : Bool) : State :=
  let x := s.rail r
  let v := s.railNeed r
  if ¬ s.managed ∨ x.requested = v ∨ (x.held ∧ x.confirmed < v) then s
  else
    let s0 := if x.requested ≠ 0 ∧ x.confirmed ≠ x.requested then s.railFails r else s
    let send (s : State) : State := s.emit (.avs r v)
    let nack (s : State) : State := (s.modRail r fun x => { x with nacks := min (x.nacks + 1) 255 }).raise .PWR 0 0 r
    let s1 := send s0
    if ack then s1.modRail r fun x => { x with requested := v }
    else
      let s2 := send (nack s1)
      if retryAck then s2.modRail r fun x => { x with requested := v } else (nack s2).railFails r

/-- The highest step that a die's table allows at a voltage. -/
def State.stepAt (s : State) (d mv : Nat) : Nat := ([11, 10, 9, 8, 7, 6, 5].find? fun k => s.voltageFor d k ≤ mv).getD stepLowest

/-- The step that a cluster is to take now: down at once, up only after the rail has confirmed the voltage, and never up on a held rail. -/
def State.nextStep (s : State) (k : Nat) : Nat :=
  let d := k / 2
  let now_ := (s.clusterClock k).step
  let want := s.wantedStep k
  let x := s.rail d
  if want ≤ now_ then (if x.held then min want (s.stepAt d x.confirmed) else want)
  else if x.held then min now_ (s.stepAt d x.confirmed)
  else if s.voltageFor d (max stepLowest want) ≤ x.confirmed then want else now_

/-- A cluster's cores halt at their next instruction boundary. -/
def CoreState.halt (k : CoreState) : CoreState :=
  if k.run = .RUNNING then { k with run := .DVFS, dvfsPass := true }
  else if k.run = .IDLE then { k with run := .DVFS, dvfsPass := false } else k

/-- They resume. -/
def CoreState.resume (k : CoreState) : CoreState :=
  if k.run = .DVFS then CoreState.settle { k with run := if k.dvfsPass then .RUNNING else .IDLE, dvfsPass := false } else k

/-- The cores of a cluster. -/
def clusterCores (k : Nat) : List Nat := [4 * k, 4 * k + 1, 4 * k + 2, 4 * k + 3]

/-- DVFS_STEP: a cluster's PLL starts a step towards what the level asks for (R24). -/
def State.startDvfs (s : State) (k : Nat) : State :=
  let c := s.clusterClock k
  let t := s.nextStep k
  if c.target.isSome ∨ t = c.step then s
  else (clusterCores k).foldl (fun s i => s.modCore i CoreState.halt) (s.modClock k fun c => { c with target := some t })

/-- Start a step on every cluster that needs one. -/
def State.startSteps (s : State) : State := (List.range 8).foldl (fun s k => s.startDvfs k) s

/-- DVFS_STEP_DONE: the step is complete, and the stations resume unless the clock has stopped. -/
def State.dvfsDone (s : State) (k : Nat) : State :=
  match (s.clusterClock k).target with
  | none => s
  | some t =>
    let s1 := s.modClock k fun _ => { step := t, target := none }
    if t = 0 then s1 else (clusterCores k).foldl (fun s i => s.modCore i CoreState.resume) s1

/-! ### Package power (R442, R444) -/

/-- The power of a rail in 0.1 W: measured from telemetry in mV and 10 mA, or modelled (R444). -/
def State.railPower (s : State) (r : Nat) : Nat := if r < 6 then (s.rail r).measured * (s.rail r).current / 10000 else Config.otherRailPower s.free r

/-- Package power in 0.1 W. -/
def State.packagePower (s : State) : Nat := ((List.range 13).map s.railPower).foldl (· + ·) 0

/-- P_inlet and P_flow in 0.1 W; 360 W without a valid tray reading. -/
def State.pInlet (s : State) : Nat :=
  if s.thermal.trayOk then (3600 - 160 * (max 6500 (min 7500 s.thermal.inlet) - 6500) / 100).toNat else 3600
def State.pFlow (s : State) : Nat :=
  if s.thermal.trayOk then 600 + 3000 * (max 120 (min 300 s.thermal.flow) - 120) / 180 else 3600

/-- P_lim in 0.1 W. -/
def State.pLim (s : State) : Nat := min (10 * s.thermal.cap) (min s.pInlet s.pFlow)

/-- The mean of a list. -/
def mean (l : List Nat) : Nat := l.foldl (· + ·) 0 / max 1 l.length

/-- A sample of the package power, once per round of telemetry: its averages, the energy, and since when the limit is exceeded. -/
def State.powerSample (s : State) : State :=
  let p := s.packagePower
  let l := (p :: s.thermal.samples).take 100
  let a := mean l
  let excess := 100 * a > 102 * s.pLim
  { s with free := s.free + 1, thermal := { s.thermal with
    samples := l, pkg10 := mean (l.take 10), pkg100 := a, energyMilli := s.thermal.energyMilli + p / 10
    overSince := if excess then s.thermal.overSince.orElse fun _ => some s.now else none } }

/-- AVS_TELEMETRY_POLL: voltage in mV and current in 10 mA of a rail, or no telemetry. A request is confirmed within 10 mV. -/
def State.telemetry (s : State) (r : Nat) (t : Option (Nat × Nat)) : State :=
  if ¬ s.managed then s
  else
    match t with
    | none => if (s.rail r).telemetryAt + 10000 ≤ s.now then s.raise .PWR 0 3 r else s
    | some (mv, i) =>
      let x := s.rail r
      let ok := x.requested != 0 && mv ≤ x.requested + 10 && x.requested ≤ mv + 10
      let s1 := s.modRail r fun x => { x with
        measured := mv, current := i, peak := max x.peak i, telemetryAt := s.now
        confirmed := if ok then x.requested else if x.requested = 0 then mv else x.confirmed
        fails := if ok ∧ ¬ x.held then 0 else x.fails }
      if r = 5 then s1.powerSample else s1

/-- POWER_OVER_LIMIT: the 100 ms average has exceeded P_lim by more than 2 % for 1 s. -/
def State.overLimit (s : State) : State :=
  match s.thermal.overSince with
  | some t => if t + 1000000 ≤ s.now then s.raise .PWR 0 4 else s
  | none => s

/-! ### Fifteen years (R460, R461) -/

/-- Half cycles of a die. -/
def State.halves (s : State) (d : Nat) : List Nat := (tblGet ({} : Rainflow) s.thermal.rain d).halves

/-- Life consumed in 1/10,000 by hours, power cycles and thermal cycles. -/
def State.lifeFractions (s : State) : List Nat :=
  let cyc (d : Nat) : Nat :=
    (((s.halves d).zip [3, 30, 400, 2000]).foldl (fun a x => a + x.1 * x.2) 0) * 10000 / 120000000
  [s.poweredUs / 36000000000, s.thermal.powerCycles / 7, ([0, 1, 2, 3, 4, 5].map cyc).foldl max 0]

/-- Life consumed: the largest fraction. -/
def State.life (s : State) : Nat := s.lifeFractions.foldl max 0

/-- LIFE_MARK: each whole 10 % that life consumed crosses. -/
def State.lifeCheck (s : State) : State :=
  let m := s.life / 1000
  if s.thermal.lifeMark < m then { s with thermal := { s.thermal with lifeMark := m } }.log .LIFE_MARK 0xFF [s.life] else s

/-- R460: the counters are written every 10 minutes. -/
def lifePeriod : Nat := 600000000

/-- LIFE_COUNTER_WRITE. -/
def State.lifePeriodic (s : State) : State :=
  if s.managed ∧ s.thermal.lifeWritten + lifePeriod ≤ s.now then s.lifeWrite.lifeCheck else s

/-- The bin of an amplitude in 0.125 °C: 10 … 20, 20 … 40, 40 … 80, above 80 K. -/
def rainBin (a : Nat) : Option Nat := if a < 80 then none else if a < 160 then some 0 else if a < 320 then some 1 else if a < 640 then some 2 else some 3

/-- Count half cycles of an amplitude. -/
def Rainflow.count (x : Rainflow) (a n : Nat) : Rainflow :=
  match rainBin a with
  | some b => { x with halves := x.halves.modify b fun v => min (v + n) 0xFFFFFFFF }
  | none => x

/-- Close the ranges of three turning points from the newest end: a range that the next one covers counts as a full cycle, or as a
half one when it holds the first point. -/
def Rainflow.close : Nat → Rainflow → Rainflow
  | 0, x => x
  | n + 1, x =>
    match x.points with
    | [c, b, a] =>
      if (b - a).natAbs ≤ (c - b).natAbs then Rainflow.close n ({ x with points := [c, b] }.count (b - a).natAbs 1) else x
    | c :: b :: a :: rest =>
      if (b - a).natAbs ≤ (c - b).natAbs then Rainflow.close n ({ x with points := c :: rest }.count (b - a).natAbs 2) else x
    | _ => x

/-- A sample of a junction: a further step in the same direction replaces the newest point. -/
def Rainflow.push (x : Rainflow) (t : Int) : Rainflow :=
  match x.points with
  | [] => { x with points := [t] }
  | [a] => if t = a then x else { x with points := [t, a] }
  | c :: b :: rest =>
    if t = c then x
    else
      let y : Rainflow := if (b < c) = (c < t) then { x with points := t :: b :: rest } else { x with points := t :: c :: b :: rest }
      y.close y.points.length

/-- THERMAL_CYCLE_SAMPLE: every die's junction, once per second. -/
def State.cycleSample (s : State) : State :=
  if ¬ s.managed then s
  else
    let s1 := (List.range 6).foldl (fun s d =>
      { s with thermal := { s.thermal with rain := tblMod {} s.thermal.rain d fun x => x.push (s.junction d) } }) s
    s1.lifeCheck

/-! ### The commands -/

/-- PGOOD_FALL (R441). -/
def execPgoodFall (rail : Fin 13) (s : State) : Host.Outcome State Fault Refusal := .next (s.pgoodFall rail)
/-- PGOOD_RISE (R441). -/
def execPgoodRise (rail : Fin 13) (s : State) : Host.Outcome State Fault Refusal := .next (s.pgoodRise rail)
/-- DIE_CLOCK_FAULT (R385). -/
def execDieClockFault (die : Fin 6) (pll : Option (Fin 2)) (s : State) : Host.Outcome State Fault Refusal := .next (s.clockFault die pll)
/-- AVS_TELEMETRY_POLL (R442). -/
def execAvsTelemetryPoll (rail : Fin 6) (telemetry : Option (Nat × Nat)) (s : State) : Host.Outcome State Fault Refusal :=
  .next (s.telemetry rail telemetry)
/-- AVS_REQUEST (R443). -/
def execAvsRequest (rail : Fin 6) (ack retryAck : Bool) (s : State) : Host.Outcome State Fault Refusal := .next (s.avsRequest rail ack retryAck)
/-- DVFS_STEP_DONE (R24). -/
def execDvfsStepDone (cluster : Fin 8) (s : State) : Host.Outcome State Fault Refusal := .next (s.dvfsDone cluster)
/-- POWER_OVER_LIMIT (R444). -/
def execPowerOverLimit (s : State) : Host.Outcome State Fault Refusal := .next s.overLimit
/-- LIFE_COUNTER_WRITE (R460). -/
def execLifeCounterWrite (s : State) : Host.Outcome State Fault Refusal := .next s.lifePeriodic
/-- THERMAL_CYCLE_SAMPLE (R460). -/
def execThermalCycleSample (s : State) : Host.Outcome State Fault Refusal := .next s.cycleSample

end Sys2Proof.Machine
end

