-- ==== Sys2Proof/Machine/Thermal.lean ====
section
/-! DEFINITION. Temperatures, the coolant tray, the two-second forecast, the shade levels, coolant loss and the hard limit
(R445 … R458). -/

namespace Sys2Proof.Machine

/-! ### The hard limit (R457) -/

/-- The die of a hot spot or of a stack. -/
def spotDie (h : Nat) : Nat := if h < 16 then h / 4 else if h < 22 then 4 + (h - 16) / 3 else h - 22

/-- THERMAL_TRIP: an analog trip, or a hot spot treated as being at its limit. The hardware latch and both lanterns drive
PWR_OFF_REQ_N, and each lantern asserts FAULT. -/
def State.thermalTrip (s : State) (h : Nat) : State :=
  if s.thermal.trips.contains h then s
  else
    let s1 := { s with thermal := { s.thermal with trips := s.thermal.trips ++ [h], tripLatch := true } }
    let one (s : State) (l : Nat) : State :=
      if ¬ (s.lantern l).powered then s
      else (((s.modLantern l fun x => { x with pwrOff := x.pwrOff.orElse fun _ => some s.now }).assertFault l causeThermal).lanRecord l
        .THERMAL_TRIP [spotDie h, h]).lanCondition l 6 true
    let s2 := ([0, 1].foldl one s1).setPwrOff
    if s.alive then (s2.raise .THM 0 7 h).log .THERMAL_TRIP (spotDie h) [spotDie h, h] else s2

/-- R457: 10 ms. -/
def releaseDelay : Nat := 10000

/-- PWR_OFF_REQ_RELEASE: 10 ms after rails 0 … 5 have fallen. -/
def State.pwrOffRelease (s : State) : State :=
  match s.pins.railsFellAt with
  | some t =>
    if t + releaseDelay ≤ s.now then
      let s1 := [0, 1].foldl (fun s l => (s.modLantern l fun x => { x with pwrOff := none }).lanCondition l 6 false) s
      { s1 with thermal := { s1.thermal with trips := [], tripLatch := false } }.setPwrOff
    else s
  | none => s

/-! ### Hot spots and stacks (R445, R446) -/

/-- R445: plausible between −55 and 150 °C, and within a step of the same sensor's previous reading; in 0.125 °C. -/
def plausible (seen : Bool) (prev v step : Int) : Bool := -440 ≤ v && v ≤ 1200 && (!seen || (v - prev).natAbs ≤ step.natAbs)

/-- A step of 5 °C, and of 50 °C/ms over 32 ms. -/
def spotStep : Int := 40
def readoutStep : Int := 12800

/-- The value and the status of two sensors; `limit` stands for both being implausible. A sensor that has not been read yet is no
implausible one: the other is used alone. -/
def SpotState.form (x : SpotState) (limit : Int) : SpotState :=
  let okA := x.seenA && !x.badA
  let okB := x.seenB && !x.badB
  let both := x.seenA && x.seenB
  let v : Int × Nat :=
    if okA && okB then (max x.a x.b, if (x.a - x.b).natAbs ≤ 24 then 0 else 1)
    else if okA || okB then (if okA then x.a else x.b, if both then 2 else 0)
    else if both then (limit, 3) else (x.value, 2)
  { x with value := v.1, status := v.2 }

/-- A spot's peak: the highest value used since the power-on reset. -/
def SpotState.notePeak (x : SpotState) (first : Bool) : SpotState := { x with peak := if first then x.value else max x.peak x.value }

/-- SENSOR_SPLIT at most once per hour. -/
def splitPeriod : Nat := 3600000000

/-- What follows a new value of a hot spot or stack: the reports of its sensors and, at its limit, the shutdown. -/
def State.spotReports (s : State) (h : Nat) (x : SpotState) : State :=
  let y := tblGet ({} : SpotState) s.thermal.spots h
  let d := spotDie h
  let fault (s : State) (k : Nat) (was isBad : Bool) : State := if isBad && !was then (s.raise .THM 0 1 h).log .SENSOR_FAULT d [h, k] else s
  let s1 := fault (fault s 0 x.badA y.badA) 1 x.badB y.badB
  let due : Bool := match y.splitAt with
    | some t => t + splitPeriod ≤ s.now
    | none => true
  let s2 := if y.status = 1 ∧ due then
      (({ s1 with thermal := { s1.thermal with spots := tblMod {} s1.thermal.spots h fun z => { z with splitAt := some s.now } } }.raise
        .THM 0 0 h).log .SENSOR_SPLIT d [h])
    else s1
  let s3 := if y.status = 3 ∧ x.status ≠ 3 then s2.raise .THM 0 2 h else s2
  (if y.status = 3 then s3.thermalTrip h else s3).ratingsCheck

/-- Set a spot, and what follows. -/
def State.setSpot (s : State) (h : Nat) (y : SpotState) : State :=
  let x := tblGet ({} : SpotState) s.thermal.spots h
  let z := y.notePeak (!x.seenA && !x.seenB)
  { s with thermal := { s.thermal with spots := tblSet {} s.thermal.spots h z } }.spotReports h x

/-- The hard limits of a die and of a stack. -/
def spotLimit : Int := 920
def stackLimit : Int := 840

/-- HOTSPOT_SAMPLE: the two sensors of a hot spot, in 0.125 °C. -/
def State.hotspot (s : State) (h : Nat) (a b : Int) : State :=
  if ¬ s.alive then s
  else
    let x := tblGet ({} : SpotState) s.thermal.spots h
    let y : SpotState := { x with
      a := a, b := b, seenA := true, seenB := true
      badA := !plausible x.seenA x.a a spotStep, badB := !plausible x.seenB x.b b spotStep }
    s.setSpot h (y.form spotLimit)

/-- The refresh rate that a stack temperature calls for (R206). -/
def refreshRate (v : Int) : Nat := if 760 < v then 2 else if 680 ≤ v then 1 else 0

/-- A stack's temperature reaches its controller: the refresh rate rises at once, and the time starts after which it may fall. -/
def State.stackRefresh (s : State) (n : Nat) : State :=
  let v := s.stackTemp n
  let r := refreshRate v
  let s1 := s.modMc n fun m => { m with temp := v / 8 }
  if (s.mc n).refresh < r then (s1.modMc n fun m => { m with refresh := r, coolSince := none }).log .HBM_REFRESH_RATE n [r]
  else
    s1.modMc n fun m => { m with
      coolSince := if 0 < m.refresh ∧ v + 24 ≤ 8 * refreshFloor m.refresh then m.coolSince.orElse fun _ => some s.now else none }

/-- HBM_DIODE_SAMPLE: the substrate diode of a stack. -/
def State.diode (s : State) (n : Nat) (v : Int) : State :=
  if ¬ s.alive then s
  else
    let x := tblGet ({} : SpotState) s.thermal.spots (22 + n)
    let y : SpotState := { x with b := v, seenB := true, badB := !plausible x.seenB x.b v spotStep }
    (s.setSpot (22 + n) (y.form stackLimit)).stackRefresh n

/-- HBM_TEMP_READOUT: the stack's own readout. -/
def State.readout (s : State) (n : Nat) (v : Int) : State :=
  if ¬ s.alive then s
  else
    let x := tblGet ({} : SpotState) s.thermal.spots (22 + n)
    let y : SpotState := { x with a := v, seenA := true, badA := !plausible x.seenA x.a v readoutStep }
    (s.setSpot (22 + n) (y.form stackLimit)).stackRefresh n

/-! ### Shade levels (R450, R451) -/

/-- Set the shade level and its cause: counted, logged, kept, and followed by the clocks. -/
def State.setShade (s : State) (level cause : Nat) : State :=
  if level = s.thermal.shade then
    if cause = s.thermal.cause then s else { s with thermal := { s.thermal with cause := cause } }.thermalWord
  else
    let s1 := { s with thermal := { s.thermal with shade := level, cause := cause, lowerSince := none } }
    let e := ra .THM_SHADE_ENTRIES 0
    let lo := 8 * (level - 1)
    let s2 := if level = 0 then s1 else s1.setField e (lo + 7) lo (min 255 (s1.field e (lo + 7) lo + 1))
    let s3 := if level = 3 then s2.raise .THM 0 6 else s2
    ((((s3.log .SHADE_CHANGE 0xFF [level, cause]).thermalWord).startSteps).ratingsCheck)

/-! ### Coolant flow loss (R452 … R455) -/

/-- Slow flow loss is seen. -/
def State.flowLow (s : State) : State :=
  if s.thermal.flowSt ≠ 0 then s
  else
    ((({ s with thermal := { s.thermal with flowSt := 1, flowOkSince := none } }.raise .THM 0 4).log .FLOW_LOW 0xFF
      [s.thermal.flow, s.thermal.rEst])).ratingsCheck

/-- A sudden flow loss is detected: level 3 at once, and both lanterns start their count. -/
def State.flowLoss (s : State) : State :=
  if s.thermal.flowSt = 2 then s
  else
    let s1 := { s with thermal := { s.thermal with flowSt := 2, slowSince := none, goneSince := none } }
    let s2 := [0, 1].foldl (fun s l => if (s.lantern l).powered then s.modLantern l fun x => { x with lossAt := some s.now } else s) s1
    (((s2.raise .THM 0 5).log .FLOW_LOSS 0xFF [s.thermal.flow]).setShade 3 5).thermalWord.ratingsCheck

/-- A sudden flow loss ends. -/
def State.lossEnds (s : State) : State :=
  let s1 := { s with thermal := { s.thermal with flowSt := 0, slowSince := none } }
  ([0, 1].foldl (fun s l => s.modLantern l fun x => { x with lossAt := none }) s1).thermalWord.ratingsCheck

/-- R452: 3.0 L/min in 0.01 L/min, 0.088 K/W in 0.1 mK/W, 60 s and 10 s. -/
def flowFull : Nat := 300
def rEstHigh : Nat := 880
def flowClearTime : Nat := 60000000
def rHighTime : Nat := 10000000

/-- The flow and R_est are in range. -/
def State.flowFine (s : State) : Bool := (!s.thermal.trayOk || flowFull ≤ s.thermal.flow) && s.thermal.rEst ≤ rEstHigh

/-- Note since when they are. -/
def State.noteFlow (s : State) : State :=
  { s with thermal := { s.thermal with flowOkSince := if s.flowFine then s.thermal.flowOkSince.orElse fun _ => some s.now else none } }

/-- FLOW_LOW_CLEAR: in range for 60 s. -/
def State.flowLowClear (s : State) : State :=
  match s.thermal.flowOkSince with
  | some t =>
    if s.thermal.flowSt = 1 ∧ s.flowFine ∧ t + flowClearTime ≤ s.now then { s with thermal := { s.thermal with flowSt := 0 } }.ratingsCheck
    else s
  | none => s

/-- R455: 10 s in a lantern's clock. -/
def lossLimit : Nat := 10000000

/-- FLOW_LOSS_EXPIRY. -/
def State.lossExpiry (s : State) (l : Nat) : State :=
  match (s.lantern l).lossAt with
  | some t => if (s.lantern l).works ∧ t + lossLimit ≤ s.now then s.powerOff l causeThermal else s
  | none => s

/-! ### The coolant tray (R447) -/

/-- THM_CFG.tray_en and flow_nom (0.1 L/min). -/
def State.trayOn (s : State) : Bool := (s.reg (ra .THM_CFG 0)).getLsbD 31
def State.flowNom (s : State) : Nat := s.field (ra .THM_CFG 0) 23 16

/-- A read that fails: the third in a row loses the tray. -/
def State.trayFail (s : State) : State :=
  let n := s.thermal.trayFails + 1
  let s1 := { s with thermal := { s.thermal with trayFails := n, trayGood := 0 } }
  if n = 3 ∧ ¬ s.thermal.trayLost then
    (({ s1 with thermal := { s1.thermal with trayLost := true, trayOk := false } }.raise .THM 0 3).log .TRAY_LOST 0xFF []).ratingsCheck
  else s1

/-- A good reading is taken: a lost tray returns with the tenth in a row. -/
def State.trayTake (s : State) (inlet outlet : Int) (flow : Nat) (pump : Bool) : State :=
  let n := s.thermal.trayGood + 1
  let lost := s.thermal.trayLost && n < 10
  { s with thermal := { s.thermal with
    inlet := inlet, outlet := outlet, flow := flow, pumpOn := pump, trayFails := 0
    trayGood := if lost then n else 0, trayLost := lost, trayOk := !lost } }

/-- What the tray's values mean (R451, R452, R453). -/
def State.trayJudge (s : State) : State :=
  let t := s.thermal
  if ¬ t.trayOk then s
  else
    let s1 := if t.flow < 3 * s.flowNom ∧ -1000 ≤ t.inlet then s.flowLoss else if t.flowSt = 2 ∧ flowFull ≤ t.flow then s.lossEnds else s
    let s2 := s1.noteFlow
    let s3 := if t.flow < flowFull then s2.flowLow else s2
    if 7500 < t.inlet ∧ s3.thermal.flowSt ≠ 2 then s3.setShade 3 3 else s3

/-- TRAY_READ: inlet and outlet in 0.01 °C, flow in 0.01 L/min, and the status; none for a read without acknowledgement or with a
wrong PEC. -/
def State.trayRead (s : State) (r : Option (Int × Int × Nat × Nat)) : State :=
  if ¬ s.managed ∨ ¬ s.trayOn then s
  else
    match r with
    | some (i, o, f, st) => if bitN st 1 then s.trayFail else ((s.trayTake i o f (bitN st 0)).trayJudge).ratingsCheck
    | none => s.trayFail

/-! ### The forecast (R449, R451) -/

/-- The hottest die junction in 0.125 °C. -/
def State.hottest (s : State) : Int :=
  let vs := (s.thermal.spots.filter fun e => e.1 < 22).map (·.2.value)
  vs.foldl max (vs.headD 0)

/-- The coolant temperature that the forecast of a spot starts from, in µ°C. -/
def State.coolant (s : State) (h : Nat) (x : SpotState) : Int :=
  if s.thermal.trayOk then s.thermal.inlet * 10000
  else x.value * 125000 - (s.thermal.rEst : Int) * (Config.thermalK h : Int) * x.pFilt / 10000000

/-- One bin of 10 ms: the temperature in µ°C after it, under a power in 0.1 W. -/
def forecastBin (rEst h : Nat) (tc t : Int) (p : Nat) : Int :=
  t + (tc + (rEst : Int) * (Config.thermalK h : Int) * (p : Int) / 100000 - t) * 10000 / (Config.thermalTau h : Int)

/-- The peak over bins of a power. -/
def forecastPeak (rEst h : Nat) (tc t : Int) (ps : List Nat) : Int :=
  (ps.foldl (fun (a : Int × Int) p => let t := forecastBin rEst h tc a.1 p; (t, max a.2 t)) (t, t)).2

/-- The predicted package power of a level: 200 bins of 10 ms, in 0.1 W. -/
def State.predicted (s : State) (level : Nat) : List Nat := (List.range 200).map (Config.predictedPower s.free level)

/-- The forecasts of every spot and stack that has been read. -/
def State.forecast (s : State) (ps : List (List Nat)) : Tbl SpotState :=
  s.thermal.spots.map fun e =>
    let f : List Int := ps.map fun p => forecastPeak s.thermal.rEst e.1 (s.coolant e.1 e.2) (e.2.value * 125000) p
    let q : Int := e.2.pFilt + ((s.thermal.pkg10 : Int) * 100 - e.2.pFilt) * 10000 / (Config.thermalTau e.1 : Int)
    (e.1, { e.2 with forecast := f, pFilt := q })

/-- R451: the limits in µ°C. -/
def spotGoal : Int := 97000000
def stackGoal : Int := 93000000

/-- Every forecast of a level is within its limit. -/
def coolEnough (spots : Tbl SpotState) (level : Nat) : Bool :=
  spots.all fun e => nth 0 e.2.forecast level ≤ (if e.1 < 22 then spotGoal else stackGoal)

/-- The power predicted for a level stays within P_lim. -/
def State.withinPower (s : State) (ps : List (List Nat)) (level : Nat) : Bool := (nth [] ps level).all (· ≤ s.pLim)

/-- A level satisfies R451. -/
def State.levelOk (s : State) (ps : List (List Nat)) (level : Nat) : Bool := coolEnough s.thermal.spots level && s.withinPower ps level

/-- The cause of leaving a level upwards (log 40): the forecast, else what bounds P_lim. -/
def State.upCause (s : State) (level : Nat) : Nat :=
  if ¬ coolEnough s.thermal.spots level then 1
  else if 10 * s.thermal.cap = s.pLim then 2 else if s.pInlet = s.pLim then 3 else 4

/-- R451: level 3 holds for 10 s after its cause has gone, and a level is left downwards after 1 s. -/
def level3Hold : Nat := 10000000
def lowerTime : Nat := 1000000

/-- The selection without a cause of level 3. -/
def State.selectLevel (s : State) (ps : List (List Nat)) : State :=
  let cur := s.thermal.shade
  let want := ([0, 1, 2].find? (s.levelOk ps)).getD 3
  if cur < want then s.setShade (cur + 1) (s.upCause cur)
  else if 0 < cur ∧ s.levelOk ps (cur - 1) then
    let since := s.thermal.lowerSince.getD s.now
    if since + lowerTime ≤ s.now then s.setShade (cur - 1) (if cur = 1 then 0 else s.thermal.cause)
    else { s with thermal := { s.thermal with lowerSince := some since } }
  else { s with thermal := { s.thermal with lowerSince := none } }

/-- The level is selected: level 3 at once under an inlet above 75 °C or a sudden loss, and for 10 s after. -/
def State.selectShade (s : State) (ps : List (List Nat)) : State :=
  let t := s.thermal
  if t.flowSt = 2 then { s with thermal := { t with goneSince := none } }.setShade 3 5
  else if t.trayOk ∧ 7500 < t.inlet then { s with thermal := { t with goneSince := none } }.setShade 3 3
  else if t.shade = 3 ∧ (t.cause = 3 ∨ t.cause = 5) then
    let since := t.goneSince.getD s.now
    let s1 := { s with thermal := { t with goneSince := some since } }
    if since + level3Hold ≤ s.now then s1.selectLevel ps else s1
  else s.selectLevel ps

/-- R456: for 5 s of a restart the flow has not been measured again. -/
def unmeasured : Nat := 5000000

/-- The predicted slope of the hottest junction over the first bin, in mK/s. -/
def State.predictedSlope (s : State) (p : Nat) : Int :=
  let top := s.hottest
  match s.thermal.spots.find? fun e => e.1 < 22 && e.2.value == top with
  | some e => (forecastBin s.thermal.rEst e.1 (s.coolant e.1 e.2) (top * 125000) p - top * 125000) / 10
  | none => 0

/-- FORECAST_REFRESH. -/
def State.refreshForecast (s : State) : State :=
  if ¬ s.managed then s
  else
    let t := s.thermal
    let ps := [0, 1, 2, 3].map s.predicted
    let p0 := (nth [] ps t.shade).headD 0
    let spots := s.forecast ps
    let slope := s.predictedSlope p0
    let s1 := { s with free := s.free + 1, thermal := { t with
      spots := spots
      predicted := ((p0, slope) :: t.predicted).take 20
      history := ((s.hottest * 125, t.inlet, t.pkg10) :: t.history).take 100
      flowSt := if t.flowSt = 3 ∧ unmeasured ≤ s.mgtTime then 0 else t.flowSt } }
    (s1.selectShade ps).startSteps

/-! ### The slope (R453, R455) -/

/-- The least-squares slope of samples (µs, m°C) in mK/s, times taken from `now`; none for fewer than two. -/
def fitSlope (now : Nat) (l : List (Nat × Int)) : Option Int :=
  let pts : List (Int × Int) := l.map fun x => ((x.1 : Int) - (now : Int), x.2)
  let n : Int := pts.length
  let st := pts.foldl (fun a x => a + x.1) (0 : Int)
  let sy := pts.foldl (fun a x => a + x.2) (0 : Int)
  let stt := pts.foldl (fun a x => a + x.1 * x.1) (0 : Int)
  let sty := pts.foldl (fun a x => a + x.1 * x.2) (0 : Int)
  let d := n * stt - st * st
  if d = 0 then none else some ((n * sty - st * sy) * 1000000 / d)

/-- R453: 1.5 K/s; 20 slopes; a workload change of 5 %, and of 0.5 K/s. -/
def slopeHigh : Int := 1500
def slopeCount : Nat := 20
def slopeCalm : Int := 500
/-- R455: 0.2 K/s for 2 s. -/
def slopeLow : Int := 200
def slopeLowTime : Nat := 2000000

/-- No workload change over the last 200 ms. -/
def steadyWork (l : List (Nat × Int)) : Bool :=
  let ps := l.map (·.1)
  let hi := ps.foldl max 0
  let lo := ps.foldl min hi
  l.length == slopeCount && 100 * (hi - lo) < 5 * hi && l.all fun x => x.2 < slopeCalm

/-- JUNCTION_SLOPE_FIT. -/
def State.slopeFit (s : State) : State :=
  if ¬ s.managed then s
  else
    let t := s.thermal
    let js := (s.now, s.hottest * 125) :: t.junctions.filter fun x => s.now ≤ x.1 + 50000
    match fitSlope s.now js with
    | none => { s with thermal := { t with junctions := js } }
    | some m =>
      let ms := (m :: t.slopes).take slopeCount
      let slow := t.flowSt == 2 && !t.trayOk && t.shade == 3 && m < slopeLow
      let since := t.slowSince.getD s.now
      let s1 := { s with thermal := { t with junctions := js, slopes := ms, slowSince := if slow then some since else none } }
      if slow && since + slopeLowTime ≤ s.now then s1.lossEnds
      else if ms.length = slopeCount ∧ ms.all (slopeHigh < ·) ∧ steadyWork t.predicted then s1.flowLoss else s1

/-! ### Junction-to-coolant resistance (R448) -/

/-- The mean of integers. -/
def meanInt (l : List Int) : Int := l.foldl (· + ·) 0 / (max 1 l.length : Nat)

/-- A new estimate in 0.1 mK/W is averaged with the last three. -/
def State.newEstimate (s : State) (r : Int) : State :=
  let x := min r.toNat 65535
  { s with thermal := { s.thermal with rEst := mean (x :: s.thermal.rRaw), rRaw := (x :: s.thermal.rRaw).take 3 } }

/-- The estimate with a valid tray: over 1 s averages, at 100 W or more. -/
def State.estimateTray (s : State) : State :=
  let h := s.thermal.history
  let p := mean (h.map (·.2.2))
  if h.length = 100 ∧ 1000 ≤ p then
    s.newEstimate ((meanInt (h.map (·.1)) - 10 * meanInt (h.map (·.2.1))) * 100 / (p : Int))
  else s

/-- The estimate without a tray: a step of the average power by 40 W, and the junction 2 s after it. -/
def State.estimateStep (s : State) : State :=
  let h := s.thermal.history
  let p := mean (h.map (·.2.2))
  let j := s.hottest * 125
  match s.thermal.rStep with
  | some (at_, j0, p0) =>
    if s.now < at_ + 2000000 then s
    else
      let s1 := { s with thermal := { s.thermal with rStep := none, lastPower := p } }
      if p = p0 then s1 else s1.newEstimate ((j - j0) * 100 * (Config.stepFactor : Int) / (((p : Int) - (p0 : Int)) * 1000))
  | none =>
    if h.length = 100 ∧ (s.thermal.lastPower + 400 ≤ p ∨ p + 400 ≤ s.thermal.lastPower) then
      { s with thermal := { s.thermal with rStep := some (s.now, j, s.thermal.lastPower) } }
    else s

/-- THERMAL_RESISTANCE_UPDATE: R_est above 0.088 K/W for 10 s is slow flow loss (R452). -/
def State.resistance (s : State) : State :=
  if ¬ s.managed then s
  else
    let s1 := (if s.thermal.trayOk then { s.estimateTray with thermal := { s.estimateTray.thermal with rStep := none } } else s.estimateStep).noteFlow
    if s1.thermal.rEst ≤ rEstHigh then { s1 with thermal := { s1.thermal with rHighSince := none } }
    else
      let since := s1.thermal.rHighSince.getD s.now
      let s2 := { s1 with thermal := { s1.thermal with rHighSince := some since } }
      if since + rHighTime ≤ s.now then s2.flowLow else s2

/-! ### The commands -/

/-- HOTSPOT_SAMPLE (R445). -/
def execHotspotSample (spot : Fin 22) (a b : Int) (s : State) : Host.Outcome State Fault Refusal := .next (s.hotspot spot a b)
/-- HBM_DIODE_SAMPLE (R446). -/
def execHbmDiodeSample (stack : Fin 4) (value : Int) (s : State) : Host.Outcome State Fault Refusal := .next (s.diode stack value)
/-- HBM_TEMP_READOUT (R446). -/
def execHbmTempReadout (stack : Fin 4) (value : Int) (s : State) : Host.Outcome State Fault Refusal := .next (s.readout stack value)
/-- TRAY_READ (R447). -/
def execTrayRead (reading : Option (Int × Int × Nat × Nat)) (s : State) : Host.Outcome State Fault Refusal := .next (s.trayRead reading)
/-- FLOW_LOW_CLEAR (R452). -/
def execFlowLowClear (s : State) : Host.Outcome State Fault Refusal := .next s.flowLowClear
/-- FLOW_LOSS_EXPIRY (R455). -/
def execFlowLossExpiry (lantern : Fin 2) (s : State) : Host.Outcome State Fault Refusal := .next (s.lossExpiry lantern)
/-- JUNCTION_SLOPE_FIT (R453). -/
def execJunctionSlopeFit (s : State) : Host.Outcome State Fault Refusal := .next s.slopeFit
/-- THERMAL_RESISTANCE_UPDATE (R448). -/
def execThermalResistanceUpdate (s : State) : Host.Outcome State Fault Refusal := .next s.resistance
/-- FORECAST_REFRESH (R449). -/
def execForecastRefresh (s : State) : Host.Outcome State Fault Refusal := .next s.refreshForecast
/-- THERMAL_TRIP (R457). -/
def execThermalTrip (spot : Fin 26) (s : State) : Host.Outcome State Fault Refusal := .next (s.thermalTrip spot)
/-- PWR_OFF_REQ_RELEASE (R457). -/
def execPwrOffReqRelease (s : State) : Host.Outcome State Fault Refusal := .next s.pwrOffRelease

end Sys2Proof.Machine
end

