-- ==== Sys2Proof/Machine/Images.lean ====
section
/-! DEFINITION. Images, slots and anti-rollback (R475, R481 … R484): kinds 1 MPF, 2 LNF, 3 TDF, 4 SIF, 5 PLF, 6 PHY; slot false A,
true B. -/

namespace Sys2Proof.Machine

/-- The kinds. -/
def imageKinds : List Nat := [1, 2, 3, 4, 5, 6]

/-- The size of a slot (R475). -/
def slotSize (kind : Nat) : Nat :=
  match kind with
  | 1 => 0x800000 | 3 => 0x1000000 | 4 => 0x400000 | 5 => 0x800000 | 6 => 0x200000
  | _ => Config.lnfSlotBytes

/-- The key of a slot in a flash. -/
def slotKey (kind : Nat) (b : Bool) : Nat := if kind = 2 then b2n b else 2 * kind + b2n b

/-- What an erased byte of flash reads as (log 41). -/
def erasedByte : Byte := 0xFF

/-- The slots erased since manufacture, and the contents of the slots, in the flash of hub `h`, or of lantern `h` for LNF. -/
def State.slotFlash (s : State) (h kind : Nat) : List Nat × Tbl (Tbl Byte) :=
  if kind = 2 then ((s.lantern h).erased, (s.lantern h).images) else ((s.hubMgt h).flash.erased, (s.hubMgt h).flash.images)

/-- A slot still holds what it held at manufacture. -/
def State.asMade (s : State) (h kind : Nat) (b : Bool) : Bool := !(s.slotFlash h kind).1.contains (slotKey kind b)

/-- Bytes of a slot. -/
def State.slotRead (s : State) (h kind : Nat) (b : Bool) (o n : Nat) : List Byte :=
  if s.asMade h kind b then (List.range n).map fun i => Config.factoryImage kind (o + i)
  else tblGetList erasedByte (tblGet [] (s.slotFlash h kind).2 (slotKey kind b)) o n

/-- Change a slot's contents in every flash that holds one: both lanterns' for LNF, else both hubs'. -/
def State.slotChange (s : State) (kind : Nat) (b : Bool) (f : Tbl Byte → Tbl Byte) : State :=
  let k := slotKey kind b
  if kind = 2 then
    [0, 1].foldl (fun s l => s.modLantern l fun x => { x with images := tblMod [] x.images k f, erased := addNew x.erased k }) s
  else
    s.liveHubs.foldl (fun s h => s.modHubMgt h fun m =>
      { m with flash := { m.flash with images := tblMod [] m.flash.images k f, erased := addNew m.flash.erased k } }) s

/-- The slot record of a kind. -/
def State.slotRec (s : State) (kind : Nat) : SlotRec := tblGet {} s.mgt.slots kind
/-- Change it. -/
def State.modSlot (s : State) (kind : Nat) (f : SlotRec → SlotRec) : State :=
  { s with mgt := { s.mgt with slots := tblMod {} s.mgt.slots kind f } }

/-- The slot that the next boot uses of a kind: the pending one, else the active one. -/
def SlotRec.next (r : SlotRec) : Bool := if r.pending then !r.activeB else r.activeB

/-- The version in a slot. -/
def State.slotVersion (s : State) (h kind : Nat) (b : Bool) : Nat := leAt (s.slotRead h kind b 8 4) 0 4

/-- The versions of the kinds that an image's requires fields speak of: those of the slots that the next boot uses. -/
def State.nextVersion (s : State) (h kind : Nat) : Nat := s.slotVersion h kind (s.slotRec kind).next

/-- R482: why an image is refused: 0 its header, 1 its key slot, 2 its public key, 3 its signature, 4 its payload's digest, 5 its
rollback, 6 its requires fields. -/
def State.imageFault (s : State) (h kind : Nat) (b : Bool) : Option Nat :=
  let hd := s.slotRead h kind b 0 4096
  let len := leAt hd 16 4
  let key := leAt hd 5 1
  let pub := (hd.drop 96).take 68
  let roll := leAt hd 12 1
  if leAt hd 0 4 ≠ 0x494D4731 ∨ leAt hd 4 1 ≠ kind ∨ slotSize kind < len + 4096 ∨ (kind = 1 ∧ bitN (leAt hd 6 1) key) then some 0
  else if 3 < key ∨ Config.vendorKey key = [] ∨ s.mgt.otp.revoked.contains key then some 1
  else if shake256 pub ≠ Config.vendorKey key then some 2
  else if ¬ Config.xmssVerify pub (hd.take 1024) ((hd.drop 1024).take 2820) then some 3
  else if shake256 (s.slotRead h kind b 4096 len) ≠ (hd.drop 64).take 32 then some 4
  else if roll < tblGet 0 s.mgt.otp.floors kind ∨ 128 < roll then some 5
  else if imageKinds.any fun k => k != kind && s.nextVersion h k < leAt hd (32 + 4 * (k - 1)) 4 then some 6
  else none

/-- A refusal is logged with the kind and the reason, and shown in SEC_ERR_STATUS. -/
def State.refuseImage (s : State) (h kind reason : Nat) : State :=
  (s.raise .SEC h (if reason = 5 then 1 else 0)).log .IMAGE_REFUSED (4 + h) [kind, reason]

/-- UPDATE_FALLBACK: the pending mark is cleared and the active slot is used (R483). -/
def State.fallBack (s : State) (kind : Nat) : State :=
  ((s.modSlot kind fun r => { r with pending := false, attempts := 0 }).raise .MGT s.mgt.active 6).log .UPDATE_FALLBACK 0xFF [kind]

/-- The check of a slot at a boot: a slot as manufactured is refused only as it is read (log 42). -/
def State.bootCheck (s : State) (h kind : Nat) (b bad : Bool) : Option Nat :=
  if bad then some 4 else if s.asMade h kind b then none else s.imageFault h kind b

/-- IMAGE_BOOT_ATTEMPT: a pending slot gets one attempt, and the active slot is used after a failure (R483). `bad` counts the slots
that fail as they are read; the answer says whether an image runs. `skip` leaves a pending slot alone (R486). -/
def State.bootImage (s : State) (h kind bad : Nat) (skip : Bool) : State × Bool :=
  let r := s.slotRec kind
  let active (s : State) (bad : Bool) : State × Bool :=
    match s.bootCheck h kind r.activeB bad with
    | some why => (s.refuseImage h kind why, false)
    | none => (s, true)
  if ¬ r.pending ∨ skip then active s (0 < bad)
  else if r.attempts = 0 then active (s.fallBack kind) (0 < bad)
  else
    let s1 := s.modSlot kind fun r => { r with attempts := r.attempts - 1 }
    match s.bootCheck h kind (!r.activeB) (0 < bad) with
    | some why => active ((s1.refuseImage h kind why).fallBack kind) (1 < bad)
    | none => (s1, true)

/-- The slot that runs: a pending one that has been attempted, else the active one. -/
def SlotRec.running (r : SlotRec) : Bool := if r.pending && r.attempts == 0 then !r.activeB else r.activeB

/-- A pending slot whose image has succeeded becomes active (R483). -/
def State.promoteSlot (s : State) (kind : Nat) : State := s.modSlot kind fun r => { r with activeB := !r.activeB, pending := false, attempts := 0 }

/-- The attempted slots become active at the end of a boot. -/
def State.promoteAll (s : State) : State :=
  [1, 3, 4, 5, 6].foldl (fun s k => if (s.slotRec k).pending ∧ (s.slotRec k).attempts = 0 then s.promoteSlot k else s) s

/-- What runs of a kind, for attestation (R491, R493). -/
def State.measure (s : State) (h kind : Nat) : State :=
  let hd := s.slotRead h kind (s.slotRec kind).running 0 4096
  let m : Measure := { version := leAt hd 8 4, rollback := leAt hd 12 1, digest := (hd.drop 64).take 32
                       requires_ := [0, 1, 2, 3, 4, 5].map fun i => leAt hd (32 + 4 * i) 4 }
  { s with mgt := { s.mgt with meas := tblSet {} s.mgt.meas kind m } }

/-- Measurements of every kind. -/
def State.measureAll (s : State) : State := imageKinds.foldl (fun s k => s.measure (if k = 2 then 0 else s.mgt.active) k) s

end Sys2Proof.Machine
end

