-- ==== Sys2Proof/Machine/Update.lean ====
section
/-! DEFINITION. Activations of a live update and the resets of one die or one lantern (R418, R419, R485, R486). -/

namespace Sys2Proof.Machine

/-! ### The activation -/

/-- An activation runs, or is paused. -/
def State.activating (s : State) : Bool := s.mgt.update.phase == .ACTIVATING || s.mgt.update.phase == .PAUSED

/-- Change the activation. -/
def State.modUpdate (s : State) (f : UpdateState → UpdateState) : State := { s with mgt := { s.mgt with update := f s.mgt.update } }

/-- The activation of a scope that runs. -/
def State.scopeRuns (s : State) (scope : Nat) : Bool := s.activating && s.mgt.update.scope == scope

/-- UPDATE_ABORTED: the activation stops. -/
def State.abortUpdate (s : State) : State :=
  if s.activating then ((s.modUpdate fun u => { u with phase := .ABORTED }).raise .MGT s.mgt.active 5).log .UPDATE_ABORTED 0xFF [] else s

/-- The next Talxon die of TDIES from one on: a die that is fenced for another reason is left out (log 44). -/
def State.nextDie (s : State) (d : Nat) : Option Nat := ([0, 1, 2, 3].filter (d ≤ ·)).find? fun x => !s.dieFenced x

/-- Start a die of TDIES: its fence and the fold. -/
def State.startDie (s : State) (d : Nat) : State :=
  if h : d < 4 then
    (s.modUpdate fun u => { u with phase := .ACTIVATING, unit := d, step := 1, since := s.now }).fenceUnit (.die ⟨d, h⟩)
  else s

/-- Go on with TDIES from a die on: pause under a fold that another fence has started, stop after a takeover, and end after the last die,
when the pending TDF has succeeded. -/
def State.nextTdie (s : State) (d : Nat) : State :=
  if s.mgt.update.stopAfter then s.abortUpdate
  else
    match s.nextDie d with
    | none => (s.promoteSlot 3).modUpdate fun u => { u with phase := .DONE, step := 0 }
    | some x =>
      if s.graphs.folding then s.modUpdate fun u => { u with phase := .PAUSED, unit := x, step := 0, since := s.now }
      else s.startDie x

/-! ### Die resets (R418, R419) -/

/-- DIE_RESET: the fault manager resets a Talxon die under its fence. In TDIES the fold comes first, and a paused activation goes on. -/
def State.dieReset (s : State) (d : Fin 4) : State :=
  if ¬ s.managed ∨ s.recovery.phase ≠ .running ∨ s.recovery.dieResets.any (fun x => x.1 == d.val) then s
  else if s.scopeRuns 1 ∧ s.mgt.update.unit = d.val then
    if s.graphs.folding then s
    else if s.mgt.update.step = 0 then s.startDie d
    else (s.resetDie d).modUpdate fun u => { u with step := 2, since := s.now }
  else (s.fenceUnit (.die d)).resetDie d

/-- Every link of a die that has not been fenced, and whose other end is up, has agreed widths. -/
def State.widthsAgreed (s : State) (d : Nat) : Bool :=
  [0, 1, 2].all fun p => match portPeer d p with
    | some (d', _) => (s.port d p).fenced || !s.dieUp d' || (s.port d p).st == 3 || (s.port d p).st == 4
    | none => true

/-- The restart record in force: the copy with the highest generation (R420). -/
def State.recordInForce (s : State) : Option RestartRecord :=
  s.recovery.keepers.foldl (fun a e => match a, e.2.record with
    | some x, some y => if x.generation < y.generation then some y else some x
    | none, y => y
    | x, none => x) none

/-- A die rejoins with no stations: its fence goes, its keeper store is filled again and its links open (R146, R419, R420). -/
def State.rejoin (s : State) (d : Fin 4) : State :=
  let s1 := s.markLifted (.die d)
  let s2 := { s1 with
    recovery := { s1.recovery with dieResets := s1.recovery.dieResets.filter (fun (x : Nat × Nat × Bool) => x.1 != d.val) }
    graphs := { s1.graphs with liftable := s1.graphs.liftable.filter (· != 32 + d.val) } }
  let s3 := s2.modKeeper d fun k => { k with record := s2.recordInForce }
  let s4 := (List.range 8).foldl (fun s i => s.modCore (8 * d.val + i) fun k => if k.run = .RESET then { k with run := .IDLE } else k) s3
  (s4.setRoutes).replace

/-- DIE_REJOIN: widths, firmware digest and SAFETY_BIST injections have passed. -/
def State.dieRejoin (s : State) (d : Fin 4) (digestOk bistOk : Bool) : State :=
  match s.recovery.dieResets.find? fun x => x.1 == d.val with
  | none => s
  | some (_, _, second) =>
    if ¬ digestOk ∨ ¬ bistOk ∨ ¬ s.widthsAgreed d then s
    else
      let s1 := s.rejoin d
      if s.scopeRuns 1 ∧ s.mgt.update.unit = d.val ∧ s.mgt.update.step = 2 ∧ ¬ second then
        (s1.log .UPDATE_DIE_DONE d [d.val]).nextTdie (d.val + 1)
      else s1

/-- R419: 300 ms. -/
def rejoinTime : Nat := 300000

/-- DIE_REJOIN_TIMEOUT: in a live update the die is first reset again from its previous TDF slot; else it stays fenced. -/
def State.rejoinTimeout (s : State) (d : Fin 4) : State :=
  match s.recovery.dieResets.find? fun x => x.1 == d.val with
  | none => s
  | some (_, t, _) =>
    if s.now < t + rejoinTime then s
    else if s.scopeRuns 1 ∧ s.mgt.update.unit = d.val ∧ s.mgt.update.step = 2 then
      let s1 := ((s.abortUpdate).fallBack 3).resetDie d
      let rs := s1.recovery.dieResets.map fun (x : Nat × Nat × Bool) => if x.1 = d.val then (x.1, x.2.1, true) else x
      { s1 with recovery := { s1.recovery with dieResets := rs } }
    else
      let rest := s.recovery.dieResets.filter fun (x : Nat × Nat × Bool) => x.1 != d.val
      ({ s with recovery := { s.recovery with dieResets := rest } }).log .DIE_REJOIN_FAIL d [d.val]

/-! ### Lantern restarts (R418, R419, R485) -/

/-- Start the restart of a lantern's processor: it stops judging, and its FAULT latch, emission hardware and stored trajectory stay. -/
def State.startLantern (s : State) (l : Nat) : State :=
  let s1 := s.modLantern l fun x => { x with run := .UPDATING }
  let s2 := { s1 with recovery := { s1.recovery with lanRestarts := s1.recovery.lanRestarts.filter (fun (x : Nat × Nat) => x.1 != l) ++ [(l, s.now)] } }
  (s2.dropMessages l).modUpdate fun u => { u with unit := 8 + l, step := 2, since := s.now }

/-- What a restart leaves of a lantern. -/
def Lantern.restarted (x : Lantern) (now slot : Nat) (c : LnfConfig) : Lantern :=
  { x.reset with
    run := .RUNNING, since := now, periodAt := now, config := c, boots := x.boots + 1, slot := slot
    fault := x.fault, cause := x.cause, causeGraph := x.causeGraph, causes := x.causes, active := x.active
    stored := x.stored, storedFrame := x.storedFrame, storedAt := x.storedAt, pwrOff := x.pwrOff }

/-- LANTERN_RESTART: the processor is RUNNING with the LNF of the pending slot, or after a failed attempt of the active one; the
configuration block comes from that image. -/
def State.lanternRestart (s : State) (l : Nat) (c : LnfConfig) : State :=
  if (s.lantern l).run ≠ .UPDATING then s
  else
    let s1 := { s with recovery := { s.recovery with lanRestarts := s.recovery.lanRestarts.filter (fun (x : Nat × Nat) => x.1 != l) } }
    let ok := s.scopeRuns 2 && s.mgt.update.unit == 8 + l && s.mgt.update.step == 2
    let slot := b2n (if ok then (s.slotRec 2).next else (s.slotRec 2).activeB)
    let s2 := (s1.modLantern l fun x => x.restarted s.now slot c).ratingsCheck
    if ¬ ok then s2
    else if l = 1 ∨ s.mgt.update.stopAfter then
      if l = 1 then (s2.promoteSlot 2).modUpdate fun u => { u with phase := .DONE, step := 0 } else s2.abortUpdate
    else s2.modUpdate fun u => { u with step := 3, since := s.now }

/-- R418: 300 ms. -/
def lanternTime : Nat := 300000

/-- LANTERN_RESTART_TIMEOUT: the latch asserts FAULT with cause BOOT, and the attempt at the pending LNF has failed. -/
def State.lanternTimeout (s : State) (l : Nat) : State :=
  match s.recovery.lanRestarts.find? fun x => x.1 == l with
  | none => s
  | some (_, t) =>
    if s.now < t + lanternTime then s
    else
      let s1 := { s with recovery := { s.recovery with lanRestarts := s.recovery.lanRestarts.filter (fun (x : Nat × Nat) => x.1 != l) } }
      let s2 := s1.assertFault l causeBoot
      if s.scopeRuns 2 then (s2.fallBack 2).abortUpdate else s2

/-- R485: 1 s, and 8 judged frames. -/
def settleTime : Nat := 1000000
def settleFrames : Nat := 8

/-- LANTERN_UPDATE_SETTLE: the second lantern's restart starts. -/
def State.lanternSettle (s : State) : State :=
  let x := s.lantern 0
  if s.scopeRuns 2 ∧ s.mgt.update.unit = 8 ∧ s.mgt.update.step = 3 ∧ x.run = .RUNNING ∧ x.since + settleTime ≤ s.now ∧
      settleFrames ≤ x.judged ∧ (s.lantern 1).run = .RUNNING then s.startLantern 1
  else s

/-! ### The commands -/

/-- DIE_RESET (R419). -/
def execDieReset (die : Fin 4) (s : State) : Host.Outcome State Fault Refusal := .next (s.dieReset die)
/-- DIE_REJOIN (R419). -/
def execDieRejoin (die : Fin 4) (digestOk bistOk : Bool) (s : State) : Host.Outcome State Fault Refusal := .next (s.dieRejoin die digestOk bistOk)
/-- DIE_REJOIN_TIMEOUT (R419). -/
def execDieRejoinTimeout (die : Fin 4) (s : State) : Host.Outcome State Fault Refusal := .next (s.rejoinTimeout die)
/-- LANTERN_RESTART (R418). -/
def execLanternRestart (lantern : Fin 2) (config : LnfConfig) (s : State) : Host.Outcome State Fault Refusal :=
  .next (s.lanternRestart lantern config)
/-- LANTERN_RESTART_TIMEOUT (R419). -/
def execLanternRestartTimeout (lantern : Fin 2) (s : State) : Host.Outcome State Fault Refusal := .next (s.lanternTimeout lantern)
/-- LANTERN_UPDATE_SETTLE (R485). -/
def execLanternUpdateSettle (s : State) : Host.Outcome State Fault Refusal := .next s.lanternSettle

end Sys2Proof.Machine
end

