-- ==== Sys2Proof/Machine/Boot.lean ====
section
/-! DEFINITION. Package resets: PORST_N, the cold boot, the warm reset and the warm restart with its restart record (R418, R420 … R427,
R208, R209, R230, R231). -/

namespace Sys2Proof.Machine

/-! ### Power-on reset (R418, R436) -/

/-- What a power-on reset leaves of a hub's management processor: its flash, with the XMSS^MT reservation records. -/
def HubMgt.powerOn (m : HubMgt) : HubMgt := { flash := m.flash, xmssRecs := m.xmssRecs }

/-- A package reset takes away the frames that a lantern follows; all else of it stays. -/
def Lantern.packageReset (x : Lantern) : Lantern :=
  { x with causes := x.causes.filter (· != causePlanned), frames := [], usable := [], mpHeard := none, mpSilentAt := none, badPeriods := 0, compareTest := false }

/-- The larger value, field by field (R473). -/
def LifeCounters.larger (a b : LifeCounters) : LifeCounters :=
  let bins (d : Nat) : List Nat := [0, 1, 2, 3].map fun i => max (nth 0 (tblGet [] a.halves d) i) (nth 0 (tblGet [] b.halves d) i)
  { poweredUs := max a.poweredUs b.poweredUs, powerCycles := max a.powerCycles b.powerCycles
    halves := [0, 1, 2, 3, 4, 5].foldl (fun t d => tblSet [] t d (bins d)) [] }

/-- The life counters of the sticky region. -/
def State.storedLife (s : State) : LifeCounters := (s.hubMgt 0).flash.life.larger (s.hubMgt 1).flash.life

/-- The thermal controller starts from the stored life counters. -/
def ThermalState.withLife (t : ThermalState) (c : LifeCounters) (now : Nat) : ThermalState :=
  { t with
    poweredUs := c.poweredUs, powerCycles := c.powerCycles, upSince := t.upSince.map fun _ => now
    rain := c.halves.foldl (fun r e => tblSet {} r e.1 { halves := e.2 }) [] }

/-- What a power-on reset leaves of the supplies and trips: the power-good inputs and the trip latch. -/
def ThermalState.powerOn (t : ThermalState) : ThermalState :=
  { rails := t.rails.foldl (fun r e => tblSet {} r e.1 { good := e.2.good }) [], upSince := t.upSince, trips := t.trips, tripLatch := t.tripLatch }

/-- The links of the outside that a reset does not take down: a port's PHY. -/
def MirrorState.ports_ (m : MirrorState) : Tbl MirPort := m.ports.foldl (fun t e => tblSet {} t e.1 { up := e.2.up }) []
def IntakeState.ports_ (x : IntakeState) : IntakeState := { ports := x.ports.foldl (fun t e => tblSet {} t e.1 { up := e.2.up }) [] }
/-- The intakes of both hubs with only that. -/
def State.sinPorts (s : State) : Tbl IntakeState := s.sin.foldl (fun t e => tblSet {} t e.1 e.2.ports_) []

/-- The state under PORST_N low. -/
def State.powerOn (s : State) : State :=
  let lans : Tbl Lantern := s.lan.lanterns.foldl (fun t e => tblSet {} t e.1 e.2.packageReset) []
  { pending := s.pending, now := s.now, free := s.free, outputs := s.outputs
    hbm := { mcs := s.hbm.mcs.foldl (fun t e => tblSet {} t e.1 { repairs := e.2.repairs, retired := e.2.retired }) [] }
    hif := { links := s.hif.links.foldl (fun t e => tblSet {} t e.1 { perst := e.2.perst, epoch := e.2.epoch + 1 }) [] }
    sin := s.sinPorts
    lan := { lanterns := lans }
    mirror := { ports := s.mirror.ports_ }
    thermal := s.thermal.powerOn.withLife s.storedLife s.now
    mgt := { hubs := s.mgt.hubs.foldl (fun t e => tblSet {} t e.1 e.2.powerOn) [], bootCount := s.mgt.bootCount
             nextSeq := s.mgt.nextSeq, key := s.mgt.key, counter := s.mgt.counter, otp := s.mgt.otp, userErased := s.mgt.userErased
             slots := s.mgt.slots.foldl (fun t e => tblSet {} t e.1 { e.2 with writing := none }) [] }
    pins := { s.pins with porst := false, clockBad := [] } }

/-- PORST_ASSERT: PORST_N has been low for 10 µs. The lanterns are not reset, and hold FAULT with cause BOOT (log 38). -/
def State.porstAssert (s : State) : State :=
  if ¬ s.pins.porst then s
  else s.powerOn.workingLanterns.foldl (fun s l => s.assertFault l causeBoot) s.powerOn

/-! ### Steps of a boot (R422, R423, R425) -/

/-- A boot stops at its step: BOOT_STOPPED with the step and the code of the cause event, and both FAULT pins asserted. -/
def State.bootStop (s : State) (ev : Event) (cause : Nat) : State :=
  let s1 := s.log .BOOT_STOPPED 0xFF [s.hif.bootStage, ev.code]
  let s2 := { s1 with recovery := { s1.recovery with phase := .stopped }, hif := { s1.hif with stage := .STOPPED } }
  let s3 : State := [0, 1].foldl (fun s l => s.assertFault l cause) s2
  if (s3.slotRec 1).pending ∧ (s3.slotRec 1).attempts = 0 then s3.fallBack 1 else s3

/-- The answer of a step: the state, and whether the boot goes on. -/
abbrev BootStep := BootHw → State → State × Bool

/-- Step 1: power-goods and reference clocks. -/
def stepSupplies : BootStep := fun hw s => (s, !s.pgoodLow && hw.clocks)

/-- Step 2: the lanterns report RUNNING. -/
def stepLanterns : BootStep := fun _ s =>
  let silent := [0, 1].filter fun l => !(s.lantern l).works
  let s1 := silent.foldl (fun s l => s.log .LANTERN_ABSENT (4 + l) [l]) s
  if silent.length = 2 then (s1.bootStop .LANTERN_ABSENT causeBoot, false) else (s1, true)

/-- Slots of a kind that fail as they are read. -/
def badSlots (hw : BootHw) (kind : Nat) : Nat := (hw.refused.filter (· == kind)).length

/-- An activation of TDIES was under way when the reset came: the pending TDF is left alone (R486). -/
def State.tdiesCut (s : State) : Bool := s.scopeRuns 1

/-- Check images of kinds, one after the other. -/
def State.bootImages (s : State) (hw : BootHw) (h : Nat) (kinds : List Nat) : State × Bool :=
  kinds.foldl (fun (a : State × Bool) k => if a.2 then a.1.bootImage h k (badSlots hw k) (k == 3 && a.1.tdiesCut) else a) (s, true)

/-- Step 3: the hub ROM checks the MPF image. A boot begins to count here. -/
def stepMpf : BootStep := fun hw s =>
  let s0 := { s with mgt := { s.mgt with bootCount := s.mgt.bootCount + 1 } }
  let r := s0.bootImages hw (b2n s.pins.primarySampled) [1]
  if r.2 then ({ r.1 with mgt := { r.1.mgt with secBoot := 1 } }, true) else (r.1.bootStop .IMAGE_REFUSED causeBoot, false)

/-- The next sequence number after the highest in either flash (R471). -/
def State.ledgerNext (s : State) : Nat :=
  [0, 1].foldl (fun a h => (s.hubMgt h).flash.ring.foldl (fun a e => max a (e.1 + 1)) a) s.mgt.nextSeq

/-- The network settings as USER or FACTORY gives them (R487). -/
def State.netReset (s : State) (h : Nat) : State :=
  let user := (s.hubMgt h).flash.user
  let val (r : Nat) : Word := if s.mgt.userErased ∧ user = [] then Config.factoryNet r else (Config.userNet (user.flatMap fun e => [e.2]) r).getD (Config.factoryNet r)
  (s.setReg (ra .MGT_NET_IP h) (val 0)).setReg (ra .MGT_NET_CFG h) (maskReg (ra .MGT_NET_CFG h) (val 1))

/-- A processor takes the active role, and the dies take it for active. -/
def State.activate (s : State) (h : Nat) : State :=
  let s1 := s.modHubMgt h fun m => { m with role := .ACTIVE }
  { s1 with mgt := { s1.mgt with active := h, dieActive := [0, 1, 2, 3].foldl (fun t d => tblSet 0 t d h) s1.mgt.dieActive } }

/-- A hub's firmware runs: its next signature index is the end of its newer reservation (R490). -/
def State.hubStarts (s : State) (h : Nat) : State :=
  (s.modHubMgt h fun m =>
    let e := (m.xmssRecs.foldl (fun (a : Nat × Nat) r => if a.1 ≤ r.1 then r else a) (0, 0)).2
    { m with announced := true, startedAt := m.startedAt.orElse (fun _ => some s.now), xmssNext := e, xmssEnd := e, heardAt := some s.now }).netReset h

/-- Step 4: management firmware runs on both hubs, and the strap or PRIMARY_ABSENT has chosen the active one; the other images and the
FACTORY calibration are checked. -/
def stepFirmware : BootStep := fun hw s =>
  let s1 := hw.firmware.foldl (fun s h => if (s.hubMgt h).announced then s else s.hubStarts h) s
  let sel := b2n s.pins.primarySampled
  let chosen := [0, 1].find? fun h => (s1.hubMgt h).role == .ACTIVE
  let act := chosen.orElse fun _ => if (s1.hubMgt sel).announced then some sel else none
  match act with
  | none => (s1, false)
  | some h =>
    let s2 := s1.activate h
    let s3 := if (s2.hubMgt (1 - h)).announced then s2.modHubMgt (1 - h) fun m => { m with role := .STANDBY } else s2
    let s4 := { s3 with mgt := { s3.mgt with nextSeq := s3.ledgerNext } }
    if ¬ hw.calOk then ((s4.log .CAL_FACTORY_BAD 0xFF []).bootStop .CAL_FACTORY_BAD causeBoot, false)
    else
      let r := s4.bootImages hw h [4, 5, 6]
      if r.2 then r else (r.1.bootStop .IMAGE_REFUSED causeBoot, false)

/-- The links, one end of each, in the order of `BootHw.links`. -/
def allLinks : List (Nat × Nat) := [(0, 1), (2, 1), (0, 2), (1, 2), (4, 0), (4, 1), (5, 0), (5, 1)]

/-- The identity word of a die (R236). -/
def dieWord (d : Nat) : Word :=
  word ((if d < 4 then d * 0x1000000 else 0x10000000 + (d - 4) * 0x1000000) + 0x320000 + (Config.dieFuse d).toNat)

/-- The roles that the shipped table gives a link's modules (R226): bit m set for MEM. -/
def linkRoles (d p : Nat) : Nat := if modulesOf d p = 4 then 12 else 2

/-- Bring up one link: roles, identity and width words (R230, R232, R233). -/
def State.bringUp (s : State) (x : (Nat × Nat) × LinkHw) : State :=
  let d := x.1.1
  let p := x.1.2
  match portPeer d p with
  | none => s
  | some (d', p') =>
    let n := modulesOf d p
    let w := x.2.width &&& word (0x0FFFFF00 + 4 ^ n - 1)
    let base (peer : Nat) (y : PortState) : PortState := { y with
      st := 3, role := linkRoles d p, peerId := dieWord peer, width := w, peerWidth := w, fenced := false, tries := 0, sidebandFails := 0 }
    let s1 := (s.modPort d p (base d')).modPort d' p' (base d)
    if x.2.silent then ((s1.raise .D2D d 3 (p * 256)).fenceLink d p).log .D2D_SIDEBAND_TIMEOUT d [p]
    else if x.2.mismatch ∨ ¬ (s1.port d p).usable n then ((s1.raise .D2D d 2 (p * 256)).fenceLink d p).log .LINK_WIDTH_MISMATCH d [p]
    else if (List.range n).all (fun m => (s1.port d p).moduleWidth m == 3) then s1 else s1.log .D2D_WIDTH_REDUCED d [p]

/-- The findings of the links; a link that none is given for trains at full width. -/
def linkList (hw : BootHw) : List ((Nat × Nat) × LinkHw) :=
  allLinks.zip (hw.links ++ List.replicate 8 ({} : LinkHw))

/-- Step 5: die-to-die roles and training. -/
def stepTraining : BootStep := fun hw s =>
  match hw.roleBad with
  | some (d, p) => (((s.raise .D2D d 8 (p * 256)).log .D2D_ROLE_MISMATCH d [p]).bootStop .D2D_ROLE_MISMATCH causeBoot, false)
  | none => ((linkList hw).foldl State.bringUp s, true)

/-- Step 6: the die-class check, the feature level, the route tables and the opening of the links. The links of an odd die never open. -/
def stepClasses : BootStep := fun hw s =>
  match hw.oddDie with
  | some d =>
    let s1 := [0, 1, 2].foldl (fun s p => s.modLinkEnds d p fun x => { x with st := 1 }) s
    ((s1.log .DIE_CLASS_MISMATCH d [d]).bootStop .DIE_CLASS_MISMATCH causeBoot, false)
  | none => ({ s with net := { s.net with feature := hw.feature } }.setRoutes, true)

/-- Step 7: T-die firmware is loaded and checked. -/
def stepTdf : BootStep := fun hw s =>
  let r := s.bootImages hw s.mgt.active [3]
  if r.2 then r else (r.1.bootStop .IMAGE_REFUSED causeBoot, false)

/-! ### HBM training (R208, R209) -/

/-- The bits of sets in a mask. -/
def setMask (l : List Nat) : Nat := l.foldl (fun a b => a + 2 ^ b) 0

/-- A stack's whole range reads zero without poison. -/
def State.zeroStack (s : State) (d : Nat) : State :=
  let lo := d * stackBytes
  { s with
    mem := s.mem.filter fun e => e.1 < lo || lo + stackBytes ≤ e.1
    hbmPoison := clearKeys s.hbmPoison (lo / 32) (stackBytes / 32) }

/-- Sets with more than 64 retired blocks. -/
def McState.wornSets (m : McState) : List Nat :=
  (List.range 8).filter fun j => retiredPerSet < (m.retired.filter fun b => b / 0x80000 == j).length

/-- Train one stack: whether it serves. A failed one fences its die. -/
def State.trainStack (s : State) (d : Nat) (hw : StackHw) : State × Bool :=
  let bad := (List.range 8).filter fun j => (hw.badSets.map (·.val)).contains j || (s.mc d).wornSets.contains j
  if ¬ hw.ok ∨ bad.length = 8 then ((s.modMc d fun m => { m with run := 4 }).log .HBM_STACK_FAIL d [d], false)
  else
    let s1 := (s.zeroStack d).modMc d fun m =>
      { repairs := m.repairs, retired := m.retired, run := 3, setAvail := 255 - setMask bad, lostSets := bad, scrubbing := true
        trained := (List.range 16).foldl (fun a c => if bad.contains (c / 2) then a else a + 2 ^ c) 0
        laneRepairs := hw.laneRepairs, height := hw.height, present := true, lastCalibration := s.now }
    let s2 := bad.foldl (fun s j => s.log .HBM_SET_ABSENT d [j]) s1
    (hw.badRows.foldl (fun s r => s.rowLasting (d * stackBytes + r.1 % stackBytes) r.2) s2, true)

/-- A die boots without: its fence is in force from the start. -/
def State.bootFence (s : State) (d : Nat) : State := if h : d < 4 then (s.markFenced (.die ⟨d, h⟩)).fenceDieParts d else s

/-- Step 8: HBM training of every stack whose keeper does not serve; two failed stacks stop the boot. -/
def stepHbm : BootStep := fun hw s =>
  let r := [0, 1, 2, 3].foldl (fun (a : State × List Nat) d =>
    if (a.1.mc d).run = 3 then a
    else
      let t := a.1.trainStack d (nth {} hw.stackHw d)
      (t.1, if t.2 then a.2 else a.2 ++ [d])) (s, [])
  if 2 ≤ r.2.length then (r.1.bootStop .HBM_STACK_FAIL causeBoot, false)
  else ((r.2.foldl State.bootFence r.1).setRoutes, true)

/-- Step 9: SAFETY_BIST (R407). -/
def stepBist : BootStep := fun hw s =>
  match hw.bist with
  | none => ([0, 1].foldl (fun s l => s.modLantern l fun x => { x with bist := 0 }) s, true)
  | some id =>
    let s1 := [0, 1].foldl (fun s l => s.modLantern l fun x => { x with bist := id }) s
    ((s1.log .SAFETY_BIST_FAIL 0xFF [id]).bootStop .SAFETY_BIST_FAIL causeBist, false)

/-- Step 10: measurements for attestation. -/
def stepMeasure : BootStep := fun _ s => ({ s.measureAll with mgt := { s.measureAll.mgt with secBoot := 2 } }, true)

/-- The units of the package start: cores, catalogues, intakes and planners. -/
def State.startUnits (s : State) : State :=
  let cs := (List.range 32).filter fun c => !s.coreFenced c
  let s1 := cs.foldl (fun s c => s.modCore c fun k => { k with run := .IDLE }) s
  let s2 := s1.liveTdies.foldl (fun s d => s.setCache (s.cache.modCat d fun k => { k with run := 1 })) s1
  let s3 := [0, 1].foldl (fun s h => s.modIntake h fun x => { x with run := 1, arrivalBase := s.now }) s2
  [0, 1].foldl (fun s h => s.modPlanner h fun p => { p with run := .NO_MAP }) s3

/-- Step 11: host_ready on every attached link. -/
def stepReady : BootStep := fun _ s =>
  let s1 := s.startUnits.promoteAll
  let s2 := { s1 with
    recovery := { s1.recovery with phase := .running }
    hif := { s1.hif with stage := .READY, hostReady := true }
    mirror := { s1.mirror with roleAt := s1.now } }
  ((s2.summarise .LAN).ratingsCheck, true)

/-- The steps of R422; a warm restart runs those of R425 under the same numbers. -/
def coldSteps : List (Nat × BootStep) :=
  [(1, stepSupplies), (2, stepLanterns), (3, stepMpf), (4, stepFirmware), (5, stepTraining), (6, stepClasses), (7, stepTdf), (8, stepHbm),
   (9, stepBist), (10, stepMeasure), (11, stepReady)]
def warmSteps : List (Nat × BootStep) := coldSteps.filter fun x => x.1 != 2

/-- Run the steps from the one reached on; a step that waits is run again when the command comes again. -/
def runSteps (hw : BootHw) : List (Nat × BootStep) → State → State
  | [], s => s
  | (n, f) :: rest, s =>
    if n < s.hif.bootStage then runSteps hw rest s
    else
      let r := f hw { s with hif := { s.hif with bootStage := n } }
      if r.2 then runSteps hw rest r.1 else r.1

/-! ### Cold boot (R422) -/

/-- PORST_N has been released: the endpoints train, the boot count and the power cycles rise, and boot begins. -/
def State.bootBegin (s : State) (hw : BootHw) : State :=
  let s1 := [0, 1].foldl (fun s h => s.modLink h fun l => match nth none hw.pcie h with
    | some (r, w) => { l with up := !l.perst, rate := r, width := w }
    | none => l) s
  let s2 := { s1 with
    pins := { s1.pins with porst := true, primary := hw.primary, primarySampled := hw.primary }
    recovery := { s1.recovery with phase := .coldBoot }
    hif := { s1.hif with stage := .BOOT, bootStage := 1 }
    mgt := { s1.mgt with bootAt := s1.now }
    thermal := { s1.thermal with powerCycles := s1.thermal.powerCycles + 1 } }
  s2.lifeWrite

/-- PORST_RELEASE: the cold boot; a boot that waits at step 1 or 4 goes on when the command comes again. -/
def State.porstRelease (s : State) (hw : BootHw) : State :=
  if ¬ s.pins.porst then runSteps hw coldSteps (s.bootBegin hw)
  else if s.recovery.phase = .coldBoot then runSteps hw coldSteps s
  else s

/-! ### Warm package reset (R418, R424) -/

/-- WARM_RESET_REQUEST: 0, 1 a lantern, 2 the fault manager, 3 a host RESET message, 4 an activation of HUBS. -/
def State.warmRequest (s : State) (source : Nat) : State :=
  if source < 2 then (if (s.lantern source).works then s.lanternRequest source else s)
  else if s.managed then s.requestWarm source else s

/-- Registers that keep their values: the MSI-X table (R274), and those that count since the power-on reset. -/
def keptRegs : List Reg := [.MSIX_TABLE, .HIF_RESET_COUNT, .TDE_FOLD_COUNT]
def warmKeeps (key : Nat) : Bool := keptRegs.any fun r => r.ctorIdx == key / 2097152

/-- What a warm reset leaves of a hub's management processor. -/
def HubMgt.warm (m : HubMgt) : HubMgt := { flash := m.flash, xmssRecs := m.xmssRecs, attests := m.attests }

/-- What a warm reset leaves of the thermal controller: the supplies, the peaks and what counts since the power-on reset. -/
def ThermalState.warm (t : ThermalState) : ThermalState :=
  { rails := t.rails.foldl (fun r e => tblSet {} r e.1 { good := e.2.good, peak := e.2.peak }) []
    spots := t.spots.foldl (fun r e => tblSet {} r e.1 { seenA := e.2.seenA, seenB := e.2.seenB, a := e.2.a, b := e.2.b, badA := e.2.badA, badB := e.2.badB
                                                         value := e.2.value, status := e.2.status, peak := e.2.peak }) []
    energyMilli := t.energyMilli, upSince := t.upSince, trips := t.trips, tripLatch := t.tripLatch }

/-- The sequences of the shelf cache that a warm reset loses: those that are not bound (R421). -/
def ShelfCache.warm (c : ShelfCache) : ShelfCache :=
  { seqs := (c.seqs.filter fun e => e.2.st != .CLOSED && !e.2.bound).map fun e => (e.1, { e.2 with st := .LOST })
    cats := c.cats.foldl (fun t e => tblSet {} t e.1 { peak := e.2.peak }) [] }

/-- A link's configuration stays (R274), its rings do not, and its hub die is there again. -/
def LinkState.warm (l : LinkState) : LinkState := { l with lost := false, epoch := l.epoch + 1, restarted := false }

/-- A test unit keeps its coverage, which the lanterns count; a chunk that runs ends. -/
def TestUnit.warm (u : TestUnit) : TestUnit := { u with windowEnd := 0, running := false, rerun := false }

/-- The state under a warm package reset. -/
def State.warmState (s : State) : State :=
  let lans : Tbl Lantern := s.lan.lanterns.foldl (fun t e => tblSet {} t e.1 e.2.packageReset) []
  let w : State :=
    { pending := s.pending, now := s.now, free := s.free, outputs := s.outputs
      regs := s.regs.filter fun e => warmKeeps e.1
      mem := s.mem.filter fun e => e.1 < hbmEnd
      hbmPoison := s.hbmPoison
      cores := s.cores.foldl (fun t e => tblSet {} t e.1 { tests := e.2.tests }) []
      cache := s.cache.warm
      hbm := { mcs := s.hbm.mcs.foldl (fun t e => tblSet {} t e.1 e.2.keep) []
               rcs := s.hbm.rcs.foldl (fun t e => tblSet {} t e.1 { wayErrors := e.2.wayErrors, waysOff := e.2.waysOff }) [] }
      net := { ports := s.net.ports.foldl (fun t e => tblSet {} t e.1 { retrains := e.2.retrains, glints := e.2.glints }) [] }
      hif := { stage := .RESTARTING, links := s.hif.links.foldl (fun t e => tblSet {} t e.1 e.2.warm) [] }
      sin := s.sinPorts
      lan := { lanterns := lans, units := s.lan.units.foldl (fun t e => tblSet {} t e.1 e.2.warm) [], checked := s.lan.checked }
      recovery := { phase := .warmRestart, requester := s.recovery.requester, requestedAt := s.recovery.requestedAt, assertedAt := s.now
                    keepers := s.recovery.keepers, lanRestarts := s.recovery.lanRestarts }
      mirror := { ports := s.mirror.ports_ }
      thermal := s.thermal.warm.withLife s.storedLife s.now
      mgt := { hubs := s.mgt.hubs.foldl (fun t e => tblSet {} t e.1 e.2.warm) [], bootCount := s.mgt.bootCount
               nextSeq := s.mgt.nextSeq, takeovers := s.mgt.takeovers, key := s.mgt.key, counter := s.mgt.counter, otp := s.mgt.otp
               userErased := s.mgt.userErased, scopes := s.mgt.scopes
               slots := s.mgt.slots.foldl (fun t e => tblSet {} t e.1 { e.2 with writing := none }) []
               update := if s.activating then s.mgt.update else {} }
      pins := { s.pins with clockBad := [] } }
  w

/-- WARM_RESET_ASSERT: 1 ms after the request, held until the third DOWN frame has gone. -/
def State.warmAssert (s : State) : State :=
  if s.recovery.phase = .warmRequested ∧ s.recovery.requestedAt + 1000 ≤ s.now ∧ s.recovery.down = [] then s.warmState else s

/-! ### The restart record (R421) -/

/-- An empty catalogue: no entries, closed records, empty lists (R160, R162 … R164). -/
def State.emptyRegion (s : State) (base : Nat) : State :=
  let s1 := { s with
    mem := s.mem.filter fun e => e.1 < base || base + 0x2000000 ≤ e.1
    hbmPoison := clearKeys s.hbmPoison (base / 32) (0x2000000 / 32) }
  let records := (List.range 4096).flatMap fun q => ({} : SeqRec).encode q
  (s1.writeMem (base + 0x400000) records).writeMem (base + 0x440000) (List.replicate 524288 (({} : ShelfList).encodeHead)).flatten

/-- A die gets its catalogue region. -/
def State.setRegion (s : State) (d base : Nat) : State :=
  let s1 := (s.setReg (ra .CAT_REGION_BASE_LO d) (word (base / 0x2000000 % 128 * 0x2000000 + 1))).setReg (ra .CAT_REGION_BASE_HI d)
    (word (base / 0x100000000))
  let s2 := s1.emptyRegion base
  { s2 with cache := s2.cache.modCat d fun k => { k with run := 2 } }

/-- Restore one graph from the copy whose digest passes, copy 0 first. -/
def restoreGraph (s : State) (x : Nat × List Byte × List Byte) : State :=
  let p : Packet := { link := 0, sq := 0, header := List.replicate 16 0 ++ x.2.1, payload := [] }
  let ok (a : Nat) : Bool :=
    !s.rangePoison a (leAt p.header 40 8) && digestOk (s.image a) && (s.image a) 8 32 == x.2.2
  match (loadCopies p).find? ok with
  | none => s.log .GRAPH_DROPPED 0xFF [x.1]
  | some a =>
    let m := s.image a
    (installGraph s (p.newGraph m.bundle m) m).log .STATE_RESET 0xFF [x.1]

/-- Restore one pool, empty. -/
def restorePool (s : State) (x : Nat × List Nat) : State :=
  let a (i : Nat) : Nat := nth 0 x.2 i
  let p : Pool := { die := a 0, frames := a 1, base := a 2, shelfBytes := a 3, heads := a 4, d := a 5, fmt := a 6, boundOnly := true
                    altDie := a 7, archiveLink := a 8, archiveRing := a 9 }
  (s.setCache { s.cache with pools := tblSet {} s.cache.pools x.1 (s.markLost p) }).log .SHELF_POOL_RESET (a 0) [x.1]

/-- Bind one sequence again, empty. -/
def restoreSeq (s : State) (x : Nat × List Nat × List Nat) : State :=
  let o (i : Nat) : Nat := nth 0 x.2.1 i
  let need := ((o 3 + 255) / 256 + 2) * o 2
  let (c, n) := s.cache.stamp
  s.setCache ((c.modPool (o 0) fun p => { p with reserved := tblSet 0 p.reserved x.1 need }).modSeq x.1 fun _ =>
    { pool := o 0, st := .LIVE, priority := o 1, layers := o 2, window := o 3, admission := n, bound := true
      graph := nth 0 x.2.2 0, perFrame := nth 0 x.2.2 1 })

/-- RESTART_RECORD_RESTORE. -/
def State.restore (s : State) : State :=
  let lost := s.cache.seqs.foldl (fun s e => if e.2.st = .LOST then s.log .SEQ_LOST 0xFF [e.1] else s)
  match s.recordInForce with
  | none => lost s
  | some r =>
    let s1 := r.graphs.foldl restoreGraph s
    let s2 := r.regions.foldl (fun s x => if s.dieFenced x.1 then s else s.setRegion x.1 x.2) s1
    lost (r.seqs.foldl restoreSeq (r.pools.foldl restorePool s2))

/-! ### Warm restart (R425, R427, R456) -/

/-- R456: the thermal controller resumes by the thermal state word. -/
def State.resumeThermal (s : State) : State :=
  let loss := s.recovery.keepers.any fun e => e.2.loss
  let s1 := { s with thermal := { s.thermal with flowSt := if loss then 2 else 3 } }
  s1.setShade (if loss then 3 else 2) 6

/-- An activation that a warm reset has met: HUBS is done, any other is aborted (R486). -/
def State.updateResumes (s : State) : State :=
  if s.scopeRuns 3 then s.modUpdate fun u => { u with phase := .DONE } else s.abortUpdate

/-- The end of a warm restart: the error interrupt with restarted set, and the restart record. -/
def State.warmEnd (s : State) : State :=
  let s1 := [0, 1].foldl (fun s h => (s.modLink h fun l => { l with restarted := l.up }).satReg (ra .HIF_RESET_COUNT h)) s
  (((s1.errIrq).updateResumes).resumeThermal).restore

/-- WARM_RESTART: once every power-good is high. It waits at step 1, and at step 4 for an active processor. -/
def State.warmRestart (s : State) (hw : BootHw) : State :=
  if s.recovery.phase ≠ .warmRestart then s
  else
    let s1 := if s.hif.bootStage = 0 then
        { s with pins := { s.pins with primary := hw.primary, primarySampled := hw.primary }, mgt := { s.mgt with bootAt := s.now }
                 hif := { s.hif with bootStage := 1 } }
      else s
    let s2 := runSteps hw warmSteps s1
    if s2.recovery.phase = .running then s2.warmEnd else s2

/-- R427: 10 s. -/
def retryTime : Nat := 10000000

/-- RESTART_RETRY_EXPIRY: no usable frame of a safety-relevant graph within 10 s of a requested warm reset. -/
def State.restartRetry (s : State) (l : Nat) : State :=
  match (s.lantern l).warmWait with
  | some t => if (s.lantern l).works ∧ t + retryTime ≤ s.now ∧ (s.lantern l).pwrOff.isNone then s.lanternRequest l else s
  | none => s

/-- R425, R427: 1 s. -/
def pgoodWait : Nat := 1000000

/-- WARM_RESTART_PGOOD_TIMEOUT. -/
def State.pgoodTimeout (s : State) (l : Nat) : State :=
  if s.recovery.phase = .warmRestart ∧ s.hif.bootStage ≤ 1 ∧ s.recovery.assertedAt + pgoodWait ≤ s.now ∧ s.pgoodLow ∧
      (s.lantern l).works ∧ (s.lantern l).warmWait.isSome then s.powerOff l offPgood
  else s

/-! ### The commands -/

/-- PORST_ASSERT (R418). -/
def execPorstAssert (s : State) : Host.Outcome State Fault Refusal := .next s.porstAssert
/-- PORST_RELEASE (R422). -/
def execPorstRelease (hw : BootHw) (s : State) : Host.Outcome State Fault Refusal := .next (s.porstRelease hw)
/-- WARM_RESET_REQUEST (R424). -/
def execWarmResetRequest (source : Fin 5) (s : State) : Host.Outcome State Fault Refusal := .next (s.warmRequest source)
/-- WARM_RESET_ASSERT (R424). -/
def execWarmResetAssert (s : State) : Host.Outcome State Fault Refusal := .next s.warmAssert
/-- WARM_RESTART (R425). -/
def execWarmRestart (hw : BootHw) (s : State) : Host.Outcome State Fault Refusal := .next (s.warmRestart hw)
/-- RESTART_RETRY_EXPIRY (R427). -/
def execRestartRetryExpiry (lantern : Fin 2) (s : State) : Host.Outcome State Fault Refusal := .next (s.restartRetry lantern)
/-- WARM_RESTART_PGOOD_TIMEOUT (R427). -/
def execWarmRestartPgoodTimeout (lantern : Fin 2) (s : State) : Host.Outcome State Fault Refusal := .next (s.pgoodTimeout lantern)

end Sys2Proof.Machine
end

