-- ==== Sys2Proof/Machine/Links.lean ====
section
/-! DEFINITION. Events of the outside links: Function Level Reset and PERST_N (R239, R498), loss of a host link (R190, R257, R413), the
power states of an endpoint (R238), and the links of the sensor ports (R285, R309). -/

namespace Sys2Proof.Machine

/-! ### Rings of a link -/

/-- A submission ring after a Function Level Reset: empty, with head and tail 0; its set-up stands (R239). -/
def SqState.flr (q : SqState) : SqState := { run := if q.run = .DISABLED then .DISABLED else .IDLE }

/-- A completion ring after it: head and tail 0, and the completions of packets are gone; those that the device sends unasked stay. -/
def CqState.flr (q : CqState) : CqState :=
  { enabled := q.enabled, written := q.written, queue := (q.queue.filter fun c => c.sq == 0xFF).map fun c => { c with part := 0 } }

/-- Apply a change to the rings of one link. -/
def ringsOf {α : Type} [DecidableEq α] (d : α) (link : Nat) (f : α → α) (t : Tbl α) : Tbl α :=
  (t.map fun e => if e.1 / 64 = link then (e.1, f e.2) else e).filter fun e => e.2 ≠ d

/-- The open samples of the HOST streams of a hub end as LOST (R308). -/
def State.loseHostSamples (s : State) (h : Nat) : State :=
  ((List.range 12).filter fun u => s.streamOn h u && s.streamHost h u).foldl (fun s u =>
    match s.openSample h u with
    | some x => (s.endWait h x.id).place h x.id .LOST
    | none => s) s

/-- The packets of a link that nobody will complete any more: waiting frame requests go, and a new epoch begins. -/
def State.newEpoch (s : State) (l : Nat) : State :=
  let s1 := { s with graphs := { s.graphs with requests := s.graphs.requests.filter fun r => r.sq == 0xFF || r.link != l } }
  (s1.modLink l fun k => { k with epoch := k.epoch + 1 }).loseHostSamples l

/-- A Function Level Reset (R239, R308). -/
def State.flr (s : State) (l : Nat) : State :=
  let s1 := s.newEpoch l
  { s1 with hif := { s1.hif with sqs := ringsOf {} l SqState.flr s1.hif.sqs, cqs := ringsOf {} l CqState.flr s1.hif.cqs } }

/-- The MSI-X table and PBA of an endpoint at their reset values. -/
def State.msixReset (s : State) (l : Nat) : State :=
  let s1 := (List.range 64).foldl (fun s v => (List.range 4).foldl (fun s w =>
    s.setReg (ra .MSIX_TABLE l v w) (ra .MSIX_TABLE l v w).resetValue) s) s
  [0, 1].foldl (fun s w => s.setReg (ra .MSIX_PBA l 0 w) 0) s1

/-- PCIE_Hh_PERST_N: low resets the link and the configuration space, and the rings behave as after a Function Level Reset; after it
has gone high the link trains (R498; log 45). -/
def State.perst (s : State) (l : Nat) (low : Bool) (trained : Option (Nat × Nat)) : State :=
  if low then
    if (s.link l).perst then s
    else ((s.flr l).msixReset l).modLink l fun k => { k with perst := true, up := false, d3hot := false, rate := 0, width := 0 }
  else
    s.modLink l fun k => match trained with
      | some (r, w) => if s.pins.porst ∧ ¬ k.lost then { k with perst := false, up := true, rate := r, width := w } else { k with perst := false }
      | none => { k with perst := false }

/-- A host link goes down: its rings are lost (R190, R257, R413; log 46). -/
def State.linkLoss (s : State) (l : Nat) : State :=
  if ¬ (s.link l).up then s
  else
    let s1 := s.newEpoch l
    let s2 := { s1 with hif := { s1.hif with sqs := ringsOf {} l (fun _ => {}) s1.hif.sqs, cqs := ringsOf {} l (fun _ => {}) s1.hif.cqs } }
    let s3 := (List.range 64).foldl (fun s q =>
      (s.setField (ra .HIF_SQ_CFG l q) 31 31 0).setField (ra .HIF_CQ_CFG l q) 31 31 0) s2
    s3.modLink l fun k => { k with up := false, d3hot := false, rate := 0, width := 0 }

/-! ### The commands -/

/-- FLR (R239). -/
def execFlr (link : Fin 2) (s : State) : Host.Outcome State Fault Refusal :=
  .next (if (s.link link).up then s.flr link else s)
/-- PCIE_PERST (R498). -/
def execPciePerst (link : Fin 2) (low : Bool) (trained : Option (Nat × Nat)) (s : State) : Host.Outcome State Fault Refusal :=
  .next (s.perst link low trained)
/-- HOST_LINK_LOSS (R257). -/
def execHostLinkLoss (link : Fin 2) (s : State) : Host.Outcome State Fault Refusal := .next (s.linkLoss link)
/-- PCIE_POWER_STATE_CHANGE (R238). -/
def execPciePowerStateChange (link : Fin 2) (d3hot : Bool) (s : State) : Host.Outcome State Fault Refusal :=
  .next (if (s.link link).up then s.modLink link fun k => { k with d3hot := d3hot } else s)
/-- SENSOR_PORT_LINK_CHANGE (R309). -/
def execSensorPortLinkChange (hub : Fin 2) (port : Fin 8) (up : Bool) (s : State) : Host.Outcome State Fault Refusal :=
  .next (s.modSinPort hub port fun t => { t with up := up })
/-- CAN_ERROR_STATE_CHANGE (R285). -/
def execCanErrorStateChange (hub port : Fin 2) (passive busOff : Bool) (s : State) : Host.Outcome State Fault Refusal :=
  .next (s.modSinPort hub (6 + port) fun t => { t with passive := passive, busOff := busOff })

end Sys2Proof.Machine
end

