-- ==== Sys2Proof/Machine/Active.lean ====
section
/-! DEFINITION. Which management processor is active (R465 … R467), the ledger writer and its notices (R267, R470 … R472), and the
copies of the keeper stores (R466). -/

namespace Sys2Proof.Machine

/-! ### Heartbeats and takeover (R465 … R467) -/

/-- A message from one die reaches another: the route tables in force lead there, over live links (R222). -/
def State.reaches (s : State) (src dst : Nat) : Bool :=
  src == dst || (s.route src dst < 4 && (routeLinks s dst 5 src).all fun x => s.linkLive x.1 x.2)

/-- 100 ms, 5 ms. -/
def announceTime : Nat := 100000
def beatGap : Nat := 5000

/-- PRIMARY_ABSENT: the selected hub's firmware has not announced itself within 100 ms of the other's start (R465). -/
def State.primaryAbsent (s : State) : State :=
  let sel := b2n s.pins.primarySampled
  let o := 1 - sel
  let m := s.hubMgt o
  let boots : Bool := (s.recovery.phase == .coldBoot || s.recovery.phase == .warmRestart) && s.hif.bootStage == 4
  match m.startedAt with
  | some t =>
    if boots ∧ ¬ (s.hubMgt sel).announced ∧ m.announced ∧ m.role = .BOOT ∧ t + announceTime ≤ s.now then
      (s.activate o).log .PRIMARY_ABSENT (4 + o) [o]
    else s
  | none => s

/-- MP_HEARTBEAT_SEND: to its own lantern, and over the CTRL channel to every Talxon die, the standby processor and the other lantern.
Dies that take this processor for active acknowledge. -/
def State.beatSend (s : State) : State :=
  if ¬ s.managed then s
  else
    let h := s.mgt.active
    let ds := [0, 1, 2, 3].filter fun d => s.reaches (4 + h) d && tblGet 0 s.mgt.dieActive d == h
    let o := 1 - h
    let far := s.reaches (4 + h) (4 + o) && !(s.link o).lost
    let s1 := { s with mgt := { s.mgt with
      beats := (if far then [h, o] else [h]).foldl addNew s.mgt.beats
      dieHeard := ds.foldl (fun t d => tblSet 0 t d s.now) s.mgt.dieHeard } }
    let s2 := if ds = [] then s1 else s1.modHubMgt h fun m => { m with ackAt := some s.now }
    if far then s2.modHubMgt o fun m => { m with heardAt := some s.now } else s2

/-- The self-tests that were running are started again (R466). -/
def State.restartTests (s : State) : State :=
  { s with graphs := { s.graphs with tests := s.graphs.testing ++ s.graphs.tests, testing := [] } }

/-- Glint counts as the keeper store of the first live Talxon die holds them. -/
def State.glintCopy (s : State) : Tbl (List Nat) := match s.liveTdies with
  | d :: _ => (tblGet {} s.recovery.keepers d).glints
  | [] => []

/-- R456, R466: a takeover during a sudden flow loss resumes at the level of the thermal state word. -/
def State.resumeLevel (s : State) : State :=
  match s.liveTdies.map fun d => tblGet {} s.recovery.keepers d with
  | k :: _ =>
    if k.loss then
      let s1 := s.setShade k.shade 6
      if k.shade = s.thermal.shade then s1.log .SHADE_CHANGE 0xFF [k.shade, 6] else s1
    else s
  | [] => s

/-- An activation meets a takeover: the new active processor finishes the current unit and stops (R486). -/
def State.updateTaken (s : State) : State :=
  if s.mgt.update.phase = .PAUSED then s.abortUpdate
  else if s.activating then s.modUpdate fun u => { u with stopAfter := true } else s

/-- STANDBY_TAKEOVER: the standby has heard no heartbeat for 5 ms. It sends TAKEOVER, becomes active with the leading aligner and planner,
reads back what the dies hold, and sends TAKEOVER_DONE to the lanterns it reaches (R312, R342, R353, R442, R466). -/
def State.takeOver (s : State) : State :=
  let old := s.mgt.active
  let h := 1 - old
  let m := s.hubMgt h
  match m.heardAt with
  | some t =>
    if m.role = .STANDBY ∧ ¬ m.demoted ∧ ¬ (s.link h).lost ∧ s.recovery.phase = .running ∧ t + beatGap ≤ s.now then
      let s1 := s.modHubMgt h fun m => { m with role := .ACTIVE, ackAt := none }
      let far := s.reaches (4 + h) (4 + old) && !(s.link old).lost
      let s2 := { s1 with
        mgt := { s1.mgt with
          active := h, takeovers := min (s.mgt.takeovers + 1) 0xFFFFFFFF, takenOver := true, takeover := some s.now, accepted := []
          doneTo := (if far then [h, old] else [h]).foldl addNew s.mgt.doneTo }
        lan := { s1.lan with glints := s.glintCopy } }
      let s3 := s2.restartTests.updateTaken
      let s4 := if (s.link old).lost then s3.invalidateSets else s3
      (((s4.raise .MGT h 3).log .MGT_TAKEOVER (4 + h) [h]).resumeLevel)
    else s
  | none => s

/-- TAKEOVER_RX: a Talxon die accepts the new active processor if it too has heard no heartbeat for 5 ms. -/
def State.takeoverRx (s : State) (d : Nat) : State :=
  let h := s.mgt.active
  match s.mgt.takeover with
  | some _ =>
    if ¬ s.mgt.accepted.contains d ∧ s.reaches (4 + h) d ∧ tblGet 0 s.mgt.dieHeard d + beatGap ≤ s.now then
      { s with mgt := { s.mgt with accepted := s.mgt.accepted ++ [d], dieActive := tblSet 0 s.mgt.dieActive d h } }
    else s
  | none => s

/-- TAKEOVER_DONE_RX: a lantern learns of the takeover. -/
def State.takeoverDone (s : State) (l : Nat) : State :=
  if ¬ s.mgt.doneTo.contains l then s
  else
    let s1 := { s with mgt := { s.mgt with doneTo := s.mgt.doneTo.filter (· != l) } }
    if ¬ (s.lantern l).works then s1
    else (s1.modLantern l fun x => { x with mpHeard := some s.now, mpSilentAt := none }).lanCondition l 7 false

/-- MGT_DEMOTE: an active processor that has received a TAKEOVER, or no acknowledgement of any Talxon die for 5 ms, becomes standby
(R467). -/
def State.demote (s : State) (h : Nat) : State :=
  let m := s.hubMgt h
  let told := s.mgt.active != h && s.mgt.takeover.isSome && s.reaches (4 + s.mgt.active) (4 + h)
  let alone : Bool := match m.ackAt with
    | some t => t + beatGap ≤ s.now
    | none => false
  if m.role = .ACTIVE ∧ ¬ (s.link h).lost ∧ (told ∨ alone) then
    (s.modHubMgt h fun m => { m with role := .STANDBY, demoted := true, heardAt := some s.now }).log .MGT_DEMOTED (4 + h) [h]
  else s

/-- KEEPER_COPY_REFRESH: glint counts and drift runs go to the keeper store of each live Talxon die (R466). -/
def State.keeperRefresh (s : State) : State :=
  if ¬ s.managed then s
  else
    let drifts : Tbl Nat := (List.range 32).foldl (fun t c => (s.core c).slots.foldl (fun t e => tblSet 0 t (64 * c + e.1) e.2.drift) t) []
    (s.liveTdies.filter (s.reaches (4 + s.mgt.active))).foldl (fun s d => s.modKeeper d fun k => { k with glints := s.lan.glints, drifts := drifts }) s

/-! ### The ledger (R470 … R472) -/

/-- R472: entries of the ring, and of one of its sectors. -/
def ringEntries : Nat := 1048576
def sectorEntries : Nat := 1024

/-- Write the entry with a sequence number to a flash; at the start of a sector the sector's old entries leave together. -/
def FlashState.ledgerPut (f : FlashState) (seq : Nat) (bs : List Byte) : FlashState :=
  let oldest := if seq % sectorEntries = 0 then max f.oldest (seq + sectorEntries - ringEntries) else f.oldest
  { f with ring := tblSet [] (f.ring.filter fun e => oldest ≤ e.1) seq bs, oldest := oldest }

/-- Events that a notice carries whatever their severity (R267, R401, R406, R409, R451, R453, R460). -/
def Event.noticed (e : Event) : Bool :=
  [Event.SHADE_CHANGE, .FOLD_START, .FOLD_DONE, .STATE_RESET, .SEQ_LOST, .CALIB_DRIFT, .CONTRADICTION, .SELFTEST_STARVED, .TWIN_LOST,
   .LINK_DEGRADED, .SHADOW_DISAGREE, .PROMISE_CHANGE, .LIFE_MARK, .FLOW_LOSS].contains e

/-- A notice on one link: not written, and counted, when its CQ is full. -/
def State.notice (s : State) (l : Nat) (e : Event) (bs : List Byte) : State :=
  let v := s.reg (ra .HIF_NOTICE_RING l)
  let q := bits v 5 0
  if ¬ v.getLsbD 31 ∨ ¬ (s.cq l q).enabled ∨ (s.link l).lost ∨ (e.severity < bits v 10 8 ∧ ¬ e.noticed) then s
  else if s.cqRoom l q < 2 then s.satReg (ra .HIF_NOTICES_LOST l)
  else s.complete { kind := 0x82, link := l, cq := q, tag := 0xFFFFFFFF, status := 0, cmdType := 0, sq := 0xFF, payload := bs }

/-- LEDGER_WRITE: the oldest queued entry goes to both hubs' flashes and to the notices; a hub of `bad` fails to program or erase. Once
there is room again, one LEDGER_DROPPED entry records what was dropped. -/
def State.ledgerWrite (s : State) (bad : List Nat) : State :=
  match s.mgt.queue with
  | [] => s
  | x :: rest =>
    if ¬ s.managed then s
    else
      let seq := s.mgt.nextSeq
      let bs := entryBytes seq s.mgt.bootCount ((x.at_ - s.mgt.bootAt) % 2 ^ 48) x.ev x.die (2 * b2n s.mgt.takenOver) x.detail
      let s1 := { s with mgt := { s.mgt with queue := rest, nextSeq := seq + 1 } }
      let s2 : State := s1.liveHubs.foldl (fun s h =>
        if bad.contains h then s.raise .MGT h 0 else s.modHubMgt h fun m => { m with flash := m.flash.ledgerPut seq bs }) s1
      let n : Nat := s2.mgt.droppedPending
      let s3 : State := if n = 0 then s2 else { s2 with mgt := { s2.mgt with droppedPending := 0 } }.log .LEDGER_DROPPED 0xFF [n]
      (s3.notice 0 x.ev bs).notice 1 x.ev bs

/-! ### The commands -/

/-- PRIMARY_ABSENT (R465). -/
def execPrimaryAbsent (s : State) : Host.Outcome State Fault Refusal := .next s.primaryAbsent
/-- MP_HEARTBEAT_SEND (R466). -/
def execMpHeartbeatSend (s : State) : Host.Outcome State Fault Refusal := .next s.beatSend
/-- STANDBY_TAKEOVER (R466). -/
def execStandbyTakeover (s : State) : Host.Outcome State Fault Refusal := .next s.takeOver
/-- TAKEOVER_RX (R466). -/
def execTakeoverRx (die : Fin 4) (s : State) : Host.Outcome State Fault Refusal := .next (s.takeoverRx die)
/-- TAKEOVER_DONE_RX (R466). -/
def execTakeoverDoneRx (lantern : Fin 2) (s : State) : Host.Outcome State Fault Refusal := .next (s.takeoverDone lantern)
/-- MGT_DEMOTE (R467). -/
def execMgtDemote (hub : Fin 2) (s : State) : Host.Outcome State Fault Refusal := .next (s.demote hub)
/-- LEDGER_WRITE (R471). -/
def execLedgerWrite (bad : List (Fin 2)) (s : State) : Host.Outcome State Fault Refusal := .next (s.ledgerWrite (bad.map (·.val)))
/-- KEEPER_COPY_REFRESH (R466). -/
def execKeeperCopyRefresh (s : State) : Host.Outcome State Fault Refusal := .next s.keeperRefresh

end Sys2Proof.Machine
end

