-- ==== Sys2Proof/Machine/Vector.lean ====
section
/-! DEFINITION. The vector engine and its special functions: VE_ADD … VE_SFU (R51, R64, R81, R82, R102). -/

namespace Sys2Proof.Machine

/-! ### Shapes -/

/-- The format of a code of R100; `none` for a reserved code. -/
def fmtOf (c : Nat) : Fmt := (Fmt.ofCode c).getD .none

/-- R81: the elements of one unit of an element-wise op: 1,024 for INT8, 256 when any format is FP32, else 512. -/
def veUnit (fs : List Fmt) : Nat :=
  if fs.contains .int8 then 1024 else if fs.contains .fp32 then 256 else 512

/-- The output rows of a VE op as writes: each row starts on a line (R81). -/
def veWrites (c line : Nat) (f : Fmt) (n : Nat) (rows : List (List Nat × Bool)) : List (Nat × List Byte × Bool) :=
  (List.range rows.length).map fun r =>
    let row := nth ([], false) rows r
    (coreBase c + 128 * line + r * rowBytes f n, padTo (rowBytes f n) (packElems f.bits row.1), row.2)

/-- The first poisoned line of an operand, when a row of it is poisoned. -/
def operandUe (s : State) (c line lines : Nat) (rows : List InRow) : Option Nat :=
  if rows.any (·.poison) then firstPoison s c line lines else none

/-- Rows combined element by element, with their poison. -/
def veRows (rows n : Nat) (ops : List (List InRow)) (f : List Nat → Conv) : List (List Conv × Bool) :=
  (List.range rows).map fun r =>
    let rs := ops.map (fun o => nth { vals := [], poison := false } o r)
    ((List.range n).map (fun i => f (rs.map (fun x => nth 0 x.vals i))), rs.any (·.poison))

/-- Finish a VE op: its rows converted, written from line o, counted. -/
def veDone (s : State) (c : Nat) (w : IWord) (fo : Fmt) (n : Nat) (res : List (List Conv × Bool)) (ins : FitCounts)
    (ue : Option Nat) : OpRes :=
  .done s
    { core := s.core c
      writes := veWrites c w.o fo n (res.map fun r => (r.1.map (·.bits), r.2))
      fit := ins.add (sumCounts (res.flatMap fun r => r.1.map Conv.outCounts))
      ue := ue }

/-! ### Element-wise ops -/

/-- The element-wise operations of the op table (R102). -/
inductive VeOp where
  | add | sub | mul | max | min
  deriving DecidableEq, Repr

/-- One element in FP32 (R81). -/
def VeOp.onF32 (op : VeOp) (a b : F32) : F32 :=
  match op with
  | .add => fadd a b | .sub => fsub a b | .mul => fmul a b | .max => fmax a b | .min => fmin a b

/-- One element in INT32 (R81: INT8 operations). -/
def VeOp.onInt (op : VeOp) (a b : Int) : Int :=
  match op with
  | .add => a + b | .sub => a - b | .mul => a * b | .max => Max.max a b | .min => Min.min a b

/-- R81: one element of an element-wise op: INT8 in INT32, saturating; floating point in FP32, then converted. -/
def veElem (op : VeOp) (fa fb fo : Fmt) (a b : Nat) : Conv :=
  if fo = .int8 then convertInt 8 (.ofInt (op.onInt (signedOf 8 a) (signedOf 8 b)))
  else convert fo (op.onF32 (widen fa a) (widen fb b))

/-- An element-wise op on two operands: dim0 rows of dim1 units (R81). -/
def veBinary (op : VeOp) (s : State) (c : Nat) (w : IWord) : OpRes :=
  let fa := fmtOf w.fmtA
  let fb := fmtOf w.fmtB
  let fo := fmtOf w.fmtO
  let n := w.dim1 * veUnit [fa, fb, fo]
  let slots := s.rxSlots c
  let (ra, ca) := readRows s c slots w.a fa w.dim0 n
  let (rb, cb) := readRows s c slots w.b fb w.dim0 n
  let res := veRows w.dim0 n [ra, rb] fun xs => veElem op fa fb fo (nth 0 xs 0) (nth 0 xs 1)
  veDone s c w fo n res (ca.add cb)
    ((operandUe s c w.a (w.dim0 * rowBytes fa n / 128) ra).orElse fun _ =>
      operandUe s c w.b (w.dim0 * rowBytes fb n / 128) rb)

/-- VE_FMA: o = a × b + o, rounded once to the output format (R81, R102). -/
def veFma (s : State) (c : Nat) (w : IWord) : OpRes :=
  let fa := fmtOf w.fmtA
  let fb := fmtOf w.fmtB
  let fo := fmtOf w.fmtO
  let n := w.dim1 * veUnit [fa, fb, fo]
  let slots := s.rxSlots c
  let (ra, ca) := readRows s c slots w.a fa w.dim0 n
  let (rb, cb) := readRows s c slots w.b fb w.dim0 n
  let ro := plainRows s c w.o fo w.dim0 n
  let res := veRows w.dim0 n [ra, rb, ro] fun xs =>
    let exact := ((decodeElem fa (nth 0 xs 0)).mul (decodeElem fb (nth 0 xs 1))).add (decodeElem fo (nth 0 xs 2))
    if fo = .fp32 then convert .fp32 (roundF32 exact) else convertFloat fo exact
  veDone s c w fo n res (ca.add cb)
    ((operandUe s c w.a (w.dim0 * rowBytes fa n / 128) ra).orElse fun _ =>
      (operandUe s c w.b (w.dim0 * rowBytes fb n / 128) rb).orElse fun _ => operandUe s c w.o (w.dim0 * rowBytes fo n / 128) ro)

/-- VE_BCAST: each row of a times the one row at b. -/
def veBcast (s : State) (c : Nat) (w : IWord) : OpRes :=
  let fa := fmtOf w.fmtA
  let fb := fmtOf w.fmtB
  let fo := fmtOf w.fmtO
  let n := w.dim1 * veUnit [fa, fb, fo]
  let slots := s.rxSlots c
  let (ra, ca) := readRows s c slots w.a fa w.dim0 n
  let (rb, cb) := readRows s c slots w.b fb 1 n
  let b0 := nth { vals := [], poison := false } rb 0
  let res := veRows w.dim0 n [ra, List.replicate w.dim0 b0] fun xs =>
    convert fo (fmul (widen fa (nth 0 xs 0)) (widen fb (nth 0 xs 1)))
  veDone s c w fo n res (ca.add cb)
    ((operandUe s c w.a (w.dim0 * rowBytes fa n / 128) ra).orElse fun _ => operandUe s c w.b (rowBytes fb n / 128) rb)

/-- VE_SEL: a where b > 0, else the constant that the immediate selects: 0, or −∞ with imm[0] set (DEDUCED, log 19). -/
def veSel (s : State) (c : Nat) (w : IWord) : OpRes :=
  let fa := fmtOf w.fmtA
  let fb := fmtOf w.fmtB
  let fo := fmtOf w.fmtO
  let n := w.dim1 * veUnit [fa, fb, fo]
  let slots := s.rxSlots c
  let (ra, ca) := readRows s c slots w.a fa w.dim0 n
  let (rb, cb) := readRows s c slots w.b fb w.dim0 n
  let res := veRows w.dim0 n [ra, rb] fun xs =>
    if flt 0 (widen fb (nth 0 xs 1)) then convertFrom fa fo (nth 0 xs 0)
    else { bits := if bitN w.imm 0 then infBits fo true else 0 }
  veDone s c w fo n res (ca.add cb)
    ((operandUe s c w.a (w.dim0 * rowBytes fa n / 128) ra).orElse fun _ =>
      operandUe s c w.b (w.dim0 * rowBytes fb n / 128) rb)

/-! ### Conversion (R36, R64, R81) -/

/-- VE_CVT: convert by R36, or with imm[0] expand weights with the scale block at b (R64, R81). -/
def veCvt (s : State) (c : Nat) (w : IWord) : OpRes :=
  let fa := fmtOf w.fmtA
  let fo := fmtOf w.fmtO
  let n := w.dim1 * 256
  let slots := s.rxSlots c
  let (ra, ca) := readRows s c slots w.a fa w.dim0 n
  if bitN w.imm 0 then
    let sf := bitsN w.imm 2 1
    let gl := match bitsN w.imm 4 3 with | 1 => 32 | 2 => 64 | _ => 128
    let sb := scaleBytes sf
    let groups := (w.dim0 + gl - 1) / gl
    let (blk, sp) := s.readMem (coreBase c + 128 * w.b) (groups * n * sb)
    let res := (List.range w.dim0).map fun r =>
      let row := nth { vals := [], poison := false } ra r
      ((List.range n).map fun i =>
        convertFloat .bf16 (f32Val (fmul (widen fa (nth 0 row.vals i))
          (roundF32 (decodeScale sf (leAt blk ((r / gl * n + i) * sb) sb))))), row.poison || sp)
    veDone s c w .bf16 n res ca
      ((operandUe s c w.a (w.dim0 * rowBytes fa n / 128) ra).orElse fun _ =>
        if sp then firstPoison s c w.b ((groups * n * sb + 127) / 128) else none)
  else
    let res := veRows w.dim0 n [ra] fun xs => convertFrom fa fo (nth 0 xs 0)
    veDone s c w fo n res ca (operandUe s c w.a (w.dim0 * rowBytes fa n / 128) ra)

/-! ### Reductions (R51, R81) -/

/-- One level of the balanced tree: neighbours joined, a lane without a partner passes unchanged (R51). -/
def treeLevel (f : F32 → F32 → F32) : List F32 → List F32
  | a :: b :: r => f a b :: treeLevel f r
  | l => l

/-- The balanced tree over a block, level by level (R51). -/
def treeReduce (f : F32 → F32 → F32) : Nat → List F32 → F32
  | 0, l => nth 0 l 0
  | n + 1, l => match l with
    | [x] => x
    | _ => treeReduce f n (treeLevel f l)

/-- Cut a list into blocks. -/
def blocksOf {α : Type} (n : Nat) : Nat → List α → List (List α)
  | 0, _ => []
  | k + 1, l => match l with
    | [] => []
    | _ => l.take n :: blocksOf n k (l.drop n)

/-- R51: reduce a row: blocks of 256 FP32 or 512 BF16 lanes by the tree, block results in a chain. -/
def reduceRow (f : F32 → F32 → F32) (lanes : Nat) (xs : List F32) : F32 :=
  match (blocksOf lanes (xs.length / lanes + 1) xs).map (treeReduce f 10) with
  | [] => 0
  | b :: r => r.foldl f b

/-- VE_RSUM and VE_RMAX: the dim0 results packed from line o in fmt_o; keep adds or takes the maximum with the value
there (R81). -/
def veReduce (f : F32 → F32 → F32) (s : State) (c : Nat) (w : IWord) : OpRes :=
  let fa := fmtOf w.fmtA
  let fo := fmtOf w.fmtO
  let n := w.dim1 * 256
  let slots := s.rxSlots c
  let (ra, ca) := readRows s c slots w.a fa w.dim0 n
  let lanes := if fa = .fp32 then 256 else 512
  let bytes := (w.dim0 * fo.bits + 7) / 8
  let base := coreBase c + 128 * w.o
  let (old, op) := s.readMem base bytes
  let res := (List.range w.dim0).map fun r =>
    let row := nth { vals := [], poison := false } ra r
    let x := reduceRow f lanes (row.vals.map (widen fa))
    convert fo (if w.keep then f x (widen fo (elemAt old fo.bits r)) else x)
  .done s
    { core := s.core c
      writes := [(base, packElems fo.bits (res.map (·.bits)), ra.any (·.poison) || (w.keep && op))]
      fit := ca.add (sumCounts (res.map Conv.outCounts))
      ue := (operandUe s c w.a (w.dim0 * rowBytes fa n / 128) ra).orElse fun _ =>
        if w.keep && op then firstPoison s c w.o ((bytes + 127) / 128) else none }

/-! ### Special functions (R82) -/

/-- −9.1, 17.4 and the other bounds of R82, as FP32 patterns: the nearest values. -/
def f32Of (neg : Bool) (m : Nat) (e : Int) : F32 := roundF32 (.fin neg m e)

/-- The exact value `m` ÷ 10, for the bounds 9.1 and 17.4 of R82: a ≥ m ÷ 10 exactly. -/
def geTenths (a : F32) (m : Nat) : Bool := !((f32Val a).mul (.fin false 10 0)).lt (.fin false m 0)

/-- R82: one FP32 result. The special inputs and ranges give their stated results; the other results are the fixed
tables' (`Config.sfu`, log 6). -/
def sfu (fn : Nat) (x : F32) : F32 :=
  if fisNaN x then f32NaN
  else
    let neg := x.getLsbD 31
    let zero := flt x 0 = false && flt 0 x = false
    let inf := x = f32Inf false || x = f32Inf true
    match fn with
    | 0 => if !(f32Val x).lt (.fin false 128 0) then f32Inf false
           else if (f32Val x).lt (.fin true 150 0) then 0 else Config.sfu 0 x
    | 1 => if zero then f32Inf true else if neg then f32NaN else if inf then f32Inf false else Config.sfu 1 x
    | 2 => if zero then f32Inf neg else if inf then (if neg then 0x80000000#32 else 0) else Config.sfu 2 x
    | 3 => if zero then f32Inf neg else if neg then f32NaN else if inf then 0 else Config.sfu 3 x
    | 4 =>
      let mag := x &&& 0x7FFFFFFF#32
      if (f32Val mag).lt (.fin false 1 (-12)) then x
      else if geTenths mag 91 then (if neg then 0xBF800000#32 else f32One) else Config.sfu 4 x
    | _ => if geTenths x 174 && !neg then f32One
           else if (f32Val x).lt (.fin true 104 0) then 0 else Config.sfu 5 x

/-- VE_SFU: o = f(a), imm[2:0] names the function; units of 64 elements (R81, R82). -/
def veSfu (s : State) (c : Nat) (w : IWord) : OpRes :=
  let fa := fmtOf w.fmtA
  let fo := fmtOf w.fmtO
  let n := w.dim1 * 64
  let slots := s.rxSlots c
  let (ra, ca) := readRows s c slots w.a fa w.dim0 n
  let res := veRows w.dim0 n [ra] fun xs => convert fo (sfu (bitsN w.imm 2 0) (widen fa (nth 0 xs 0)))
  veDone s c w fo n res ca (operandUe s c w.a (w.dim0 * rowBytes fa n / 128) ra)

/-! ### The meanings -/

/-- VE_ADD (R102). -/
def execVeAdd (core : Fin 32) (hw : CoreHw) (s : State) : Host.Outcome State Fault Refusal :=
  .next (runOp s core 1 0x40 hw (veBinary .add))
/-- VE_SUB (R102). -/
def execVeSub (core : Fin 32) (hw : CoreHw) (s : State) : Host.Outcome State Fault Refusal :=
  .next (runOp s core 1 0x41 hw (veBinary .sub))
/-- VE_MUL (R102). -/
def execVeMul (core : Fin 32) (hw : CoreHw) (s : State) : Host.Outcome State Fault Refusal :=
  .next (runOp s core 1 0x42 hw (veBinary .mul))
/-- VE_FMA (R102). -/
def execVeFma (core : Fin 32) (hw : CoreHw) (s : State) : Host.Outcome State Fault Refusal :=
  .next (runOp s core 1 0x43 hw veFma)
/-- VE_MAX (R102). -/
def execVeMax (core : Fin 32) (hw : CoreHw) (s : State) : Host.Outcome State Fault Refusal :=
  .next (runOp s core 1 0x44 hw (veBinary .max))
/-- VE_MIN (R102). -/
def execVeMin (core : Fin 32) (hw : CoreHw) (s : State) : Host.Outcome State Fault Refusal :=
  .next (runOp s core 1 0x45 hw (veBinary .min))
/-- VE_CVT (R102). -/
def execVeCvt (core : Fin 32) (hw : CoreHw) (s : State) : Host.Outcome State Fault Refusal :=
  .next (runOp s core 1 0x46 hw veCvt)
/-- VE_BCAST (R102). -/
def execVeBcast (core : Fin 32) (hw : CoreHw) (s : State) : Host.Outcome State Fault Refusal :=
  .next (runOp s core 1 0x47 hw veBcast)
/-- VE_SEL (R102). -/
def execVeSel (core : Fin 32) (hw : CoreHw) (s : State) : Host.Outcome State Fault Refusal :=
  .next (runOp s core 1 0x48 hw veSel)
/-- VE_RSUM (R51, R102). -/
def execVeRsum (core : Fin 32) (hw : CoreHw) (s : State) : Host.Outcome State Fault Refusal :=
  .next (runOp s core 1 0x50 hw (veReduce fadd))
/-- VE_RMAX (R51, R102). -/
def execVeRmax (core : Fin 32) (hw : CoreHw) (s : State) : Host.Outcome State Fault Refusal :=
  .next (runOp s core 1 0x51 hw (veReduce fmax))
/-- VE_SFU (R82, R102). -/
def execVeSfu (core : Fin 32) (hw : CoreHw) (s : State) : Host.Outcome State Fault Refusal :=
  .next (runOp s core 1 0x58 hw veSfu)

end Sys2Proof.Machine
end

