-- ==== Sys2Proof/Machine/Attention.lean ====
section
/-! DEFINITION. The attention pipeline: AP_QLOAD, AP_PASS, AP_OUT (R83, R84, R176 … R178). -/

namespace Sys2Proof.Machine

/-- A sequence descriptor (R176). -/
structure ApDesc where
  seq : Nat
  layer : Nat
  head : Nat
  rows : Nat
  group : Nat
  causal : Bool
  cont : Bool
  qPos : Nat
  deriving DecidableEq, Repr

/-- Read a sequence descriptor (R176). -/
def apDesc (bs : List Byte) : ApDesc :=
  let fl := leAt bs 7 1
  { seq := leAt bs 0 2, layer := leAt bs 2 1, head := leAt bs 3 1, rows := leAt bs 4 2, group := max 1 (leAt bs 6 1)
    causal := bitN fl 0, cont := bitN fl 1, qPos := leAt bs 8 4 }

/-- AP_QLOAD: load dim0 query rows of dim1 elements into the row buffer (R83, R102). -/
def apQload (s : State) (c : Nat) (w : IWord) : OpRes :=
  let k := s.core c
  let f := fmtOf w.fmtA
  let rows := plainRows s c w.a f w.dim0 w.dim1
  .done s
    { core := { k with ap := { k.ap with
        fmt := w.fmtA, d := w.dim1, rows := rows.map (fun r => r.vals.map (widen f)), started := false
        poison := rows.any (·.poison) } }
      ue := operandUe s c w.a (w.dim0 * rowBytes f w.dim1 / 128) rows }

/-- The shelves of a layer with the position at which each starts, in ascending position. -/
def ShelfCache.segments (c : ShelfCache) (l : ShelfList) : List (Nat × Nat) :=
  (l.entries.foldl (fun (acc : Nat × List (Nat × Nat)) e => (acc.1 + (c.shelf e.2).tokens, acc.2 ++ [(acc.1, e.2)]))
    (l.start, [])).2

/-- The shelves that cover positions from `lo` on (R177). -/
def ShelfCache.visible (c : ShelfCache) (q layer lo : Nat) : List (Nat × Nat) :=
  (c.segments (c.list q layer)).filter (fun e => lo < e.1 + (c.shelf e.2).tokens)

/-- The key or value row (kv 0 or 1) of a head at a position: its elements, and poison (R155, R167). -/
def kvRow (s : State) (segs : List (Nat × Nat)) (p : Pool) (kv head pos : Nat) : List F32 × Bool :=
  match segs.findRev? (fun e => e.1 ≤ pos) with
  | none => ([], true)
  | some (start, h) =>
    let x := s.cache.shelf h
    let a := x.addr + ((kv * p.heads + head) * classTokens x.cls + (pos - start)) * p.rowBytes
    let (bs, po) := s.readMem a p.rowBytes
    ((List.range p.d).map (fun i => widen p.elemFmt (elemAt bs p.elemFmt.bits i)), po || x.st = .QUARANTINED)

/-- The state of one query row across blocks (R83): running maximum, running sum, value accumulators. -/
structure RowAcc where
  m : F32
  l : F32
  v : List F32
  deriving DecidableEq, Repr

/-- R52, R83, R84: take one block of key positions into a query row. Positions that causality hides contribute
nothing. The order of adding within a block is not stated (log 6). -/
def rowBlock (q : List F32) (keys vals : List (List F32)) (a : RowAcc) : RowAcc :=
  match keys with
  | [] => a
  | _ =>
    let sc := keys.map (Config.apScore q)
    let m := sc.foldl fmax a.m
    let r := sfu 0 (fsub a.m m)
    let ws := sc.map (fun x => sfu 0 (fsub x m))
    { m := m, l := fadd (fmul a.l r) (Config.apSum ws)
      v := (List.range a.v.length).map fun i =>
        fadd (fmul (nth 0 a.v i) r) (Config.apMix ws (vals.map (fun row => nth 0 row i))) }

/-- R178: take `n` blocks of 64 positions from `pos`, up to the last visible position. -/
def apBlocks (s : State) (segs : List (Nat × Nat)) (p : Pool) (d : ApDesc) (rows : List (List F32)) (last : Nat) :
    Nat → Nat → List RowAcc × Bool → List RowAcc × Bool
  | 0, _, acc => acc
  | n + 1, pos, acc =>
    let ps := (List.range 64).filterMap (fun i => if pos + i < last then some (pos + i) else none)
    let ks := ps.map fun x => (x, kvRow s segs p 0 d.head x, kvRow s segs p 1 d.head x)
    let po := ks.any (fun k => k.2.1.2 || k.2.2.2)
    let accs := (List.range rows.length).map fun r =>
      let vis := ks.filter (fun k => !d.causal || k.1 ≤ d.qPos + r / d.group)
      rowBlock (nth [] rows r) (vis.map (·.2.1.1)) (vis.map (·.2.2.1))
        (nth { m := f32Inf true, l := 0, v := List.replicate p.d 0 } acc.1 r)
    apBlocks s segs p d rows last n (pos + 64) (accs, acc.2 || po)

/-- AP_PASS: pin the shelves of the visible positions at the first pass, then stream dim0 blocks; a pass with the
continue flag goes on from the next block (R177, R178). -/
def apPass (s : State) (c : Nat) (w : IWord) : OpRes :=
  let k := s.core c
  let (line, lp) := s.readMem (coreBase c + 128 * w.b) 128
  let bs := (line.drop (16 * bitsN w.imm 2 0)).take 16
  let d := apDesc bs
  let q := s.cache.seq d.seq
  let p := s.cache.pool q.pool
  let first := !(d.cont && k.ap.started)
  let segs := if first then s.cache.visible d.seq d.layer q.basePos
    else (s.cache.segments (s.cache.list d.seq d.layer)).filter (fun e => k.ap.pins.contains e.2)
  if first && !(segs.all (fun e => (s.cache.shelf e.2).pinnable)) then .wait
  else
    let s1 := if first then s.setCache (segs.foldl (fun c e => c.pin e.2) (s.cache.unpinAll k.ap.pins)) else s
    let last := s1.cache.listEnd (s1.cache.list d.seq d.layer)
    let start := if first then q.basePos else k.ap.nextPos
    let acc0 : List RowAcc := if first then [] else
      (List.range k.ap.rows.length).map fun r =>
        { m := nth 0 k.ap.runMax r, l := nth 0 k.ap.runSum r, v := nth [] k.ap.val r }
    let (accs, po) := apBlocks s1 segs p d k.ap.rows last w.dim0 start (acc0, k.ap.poison || lp)
    .done s1
      { core := { s1.core c with ap := { k.ap with
          runMax := accs.map (·.m), runSum := accs.map (·.l), val := accs.map (·.v)
          nextPos := start + 64 * w.dim0, started := true
          pins := if first then segs.map (·.2) else k.ap.pins, poison := po } }
        ue := if lp then some w.b else none }

/-- AP_OUT: each row's value accumulators divided by its running sum, converted to fmt_o, from line o; the pass's pins
are released (R102, R177). -/
def apOut (s : State) (c : Nat) (w : IWord) : OpRes :=
  let k := s.core c
  let fo := fmtOf w.fmtO
  let res := (List.range k.ap.val.length).map fun r =>
    (nth [] k.ap.val r).map (fun x => convert fo (fdiv x (nth 0 k.ap.runSum r)))
  let s1 := s.unpin k.ap.pins
  .done s1
    { core := { s1.core c with ap := { k.ap with pins := [], started := false } }
      writes := veWrites c w.o fo k.ap.d (res.map (fun r => (r.map (·.bits), k.ap.poison)))
      fit := sumCounts (res.flatMap fun r => r.map Conv.outCounts) }

/-- AP_QLOAD (R83). -/
def execApQload (core : Fin 32) (hw : CoreHw) (s : State) : Host.Outcome State Fault Refusal :=
  .next (runOp s core 2 0x80 hw apQload)
/-- AP_PASS (R178). -/
def execApPass (core : Fin 32) (hw : CoreHw) (s : State) : Host.Outcome State Fault Refusal :=
  .next (runOp s core 2 0x81 hw apPass)
/-- AP_OUT (R102). -/
def execApOut (core : Fin 32) (hw : CoreHw) (s : State) : Host.Outcome State Fault Refusal :=
  .next (runOp s core 2 0x82 hw apOut)

end Sys2Proof.Machine
end

