-- ==== Sys2Proof/Machine/Ikisan.lean ====
section
/-! DEFINITION. The Ikisan management protocol (R476 … R480): its transports, its READ messages, and attestation (R489 … R491). -/

namespace Sys2Proof.Machine

/-! ### Messages (R477) -/

/-- The type of a message. -/
def IkMsg.type (m : IkMsg) : Nat := leAt m.bytes 3 1
/-- Its tagged flag. -/
def IkMsg.tagged (m : IkMsg) : Bool := bitN (leAt m.bytes 22 1) 1
/-- The bytes that its tag covers. -/
def IkMsg.covered (m : IkMsg) : List Byte := if m.tagged then m.bytes.take (m.bytes.length - 16) else m.bytes
/-- Its body. -/
def IkMsg.body (m : IkMsg) : List Byte := m.covered.drop 32
/-- Its counter. -/
def IkMsg.counter (m : IkMsg) : Nat := leAt m.bytes 8 8

/-- A request as R477 lays it out: magic, version, length, no status, no reply or fragment flag. -/
def requestOk (bs : List Byte) : Bool :=
  32 ≤ bs.length && leAt bs 0 2 == 0x4B49 && leAt bs 2 1 == 1 && leAt bs 4 4 == bs.length && leAt bs 20 2 == 0 &&
  (leAt bs 22 1 == 0 || (leAt bs 22 1 == 2 && 48 ≤ bs.length)) && leAt bs 23 1 == 0 && zeroFrom bs 24 8

/-- CONTROL messages (R479). -/
def controlType (t : Nat) : Bool := 0x10 ≤ t && t ≤ 0x1A
/-- A type that R479 lists. -/
def knownType (t : Nat) : Bool := (1 ≤ t && t ≤ 9) || controlType t

/-- The header of a reply (R477; log 49). -/
def replyHeader (m : IkMsg) (len status : Nat) (more : Bool) (fragment : Nat) : List Byte :=
  toLe 2 0x4B49 ++ toLe 1 1 ++ toLe 1 m.type ++ toLe 4 len ++ toLe 8 0 ++ toLe 4 (leAt m.bytes 16 4) ++ toLe 2 status ++
  toLe 1 (1 + 4 * b2n more) ++ toLe 1 fragment ++ toLe 8 0

/-- R476: the largest datagram, and the body that fits beside a header. -/
def datagramMax : Nat := 1472
def fragmentBody : Nat := datagramMax - 32

/-- The datagrams of a reply (R476). -/
def replyDatagrams (m : IkMsg) (status : Nat) (body : List Byte) : List (List Byte) :=
  let n := max 1 ((body.length + fragmentBody - 1) / fragmentBody)
  (List.range n).map fun i =>
    let part := (body.drop (i * fragmentBody)).take fragmentBody
    replyHeader m (32 + part.length) status (decide (i + 1 < n)) i ++ part

/-- A reply in one piece. -/
def replyBytes (m : IkMsg) (status : Nat) (body : List Byte) : List Byte := replyHeader m (32 + body.length) status false 0 ++ body

/-- Words of a list of bytes, zero-padded. -/
def toWords (bs : List Byte) : List Word := (List.range ((bs.length + 3) / 4)).map fun i => word (leAt bs (4 * i) 4)

/-- R480: bytes of the mailbox. -/
def mailboxBytes : Nat := 1024

/-- Put a reply into the mailbox of a hub. One that is too long for it is answered BAD_PACKET (log 50). -/
def State.mailboxReply (s : State) (h : Nat) (m : IkMsg) (status : Nat) (body : List Byte) : State :=
  let r := replyBytes m status body
  let bs := if mailboxBytes < r.length then replyBytes m Status.BAD_PACKET [] else r
  let ws := toWords bs
  let s1 := (List.range ws.length).foldl (fun s i => s.setReg (ra .MGT_MBX_DATA h 0 i) (nth 0 ws i)) s
  s1.setReg (ra .MGT_MBX_STATUS h) (word (0x80000000 + bs.length))

/-- Answer a message on the transport it came by. A MGMT packet's completion carries the reply and its status (R266, R476). -/
def State.answer (s : State) (m : IkMsg) (status : Nat) (body : List Byte := []) : State :=
  match m.via with
  | .ring p => s.finish p status [] (replyBytes m status body)
  | .port ip port => { s with outputs := s.outputs ++ (replyDatagrams m status body).map fun d => .datagram s.mgt.active ip port d }
  | .mailbox h => s.mailboxReply h m status body

/-! ### Transports (R266, R273, R476, R480) -/

/-- Put a message into the inbox of the active processor. -/
def State.intoInbox (s : State) (m : IkMsg) : State := { s with mgt := { s.mgt with inbox := s.mgt.inbox ++ [m] } }

/-- MGMT: the packet is taken, and its message waits. -/
def State.mgmtPacket (s : State) (p : Packet) : State :=
  let n := leAt p.header 16 4
  let bs := p.payload.take n
  if n = 0 then s.takeFinish p Status.ZERO_FIELD
  else if 65536 < n ∨ p.payload.length < n ∨ ¬ zeroFrom p.payload n p.payload.length ∨ ¬ zeroFrom p.header 20 44 ∨ ¬ requestOk bs then
    s.takeFinish p Status.BAD_PACKET
  else (s.take p).intoInbox { via := .ring p, bytes := bs }

/-- The management port of a hub answers: its processor is active, and the port is enabled. -/
def State.portServes (s : State) (h : Nat) : Bool := s.managed && s.mgt.active == h && (s.reg (ra .MGT_NET_CFG h)).getLsbD 31
/-- The port's address. -/
def State.netIp (s : State) (h : Nat) : Nat := (s.reg (ra .MGT_NET_IP h)).toNat

/-- MGMT_PORT_DATAGRAM. -/
def State.portReceive (s : State) (h : Nat) (d : MgmtDatagram) : State :=
  if ¬ s.portServes h then s
  else
    match d with
    | .arp sender target => if target = s.netIp h then s.emit (.arpReply h sender) else s
    | .echo src dst bs => if dst = s.netIp h then s.emit (.echoReply h src bs) else s
    | .udp src srcPort dst dstPort bs =>
      if dst = s.netIp h ∧ dstPort = s.field (ra .MGT_NET_CFG h) 15 0 ∧ bs.length ≤ datagramMax ∧ requestOk bs then
        s.intoInbox { via := .port src srcPort, bytes := bs }
      else s

/-- MAILBOX_SEND: a write to MGT_MBX_CTRL; go sends the message in the mailbox. -/
def State.mailboxSend (s : State) (h : Nat) (v : Word) : State :=
  if ¬ s.hif.hostReady then s
  else
    let s1 := s.putReg (ra .MGT_MBX_CTRL h) v
    let n := bits v 15 0
    if ¬ v.getLsbD 31 then s1
    else
      let bs := ((List.range 256).flatMap fun i => toLe 4 (s.reg (ra .MGT_MBX_DATA h 0 i)).toNat).take n
      let m : IkMsg := { via := .mailbox h, bytes := bs }
      let s2 := s1.setReg (ra .MGT_MBX_STATUS h) 0
      if n = 0 then s2.answer m Status.ZERO_FIELD
      else if mailboxBytes < n ∨ ¬ requestOk bs ∨ controlType m.type then s2.answer m Status.BAD_PACKET
      else s2.intoInbox m

/-- The oldest message that meets a condition, and the state without it. -/
def State.takeMsg (s : State) (ok : IkMsg → Bool) : Option (IkMsg × State) :=
  (takeFirst ok s.mgt.inbox).map fun (x : IkMsg × List IkMsg) => (x.1, { s with mgt := { s.mgt with inbox := x.2 } })

/-- Serve the oldest READ message of a type (R478). -/
def State.serve (s : State) (t : Nat) (f : State → IkMsg → State) : State :=
  if ¬ s.managed then s
  else match s.takeMsg fun m => m.type == t with
    | some (m, s1) => f s1 m
    | none => s

/-- A READ message without a body. -/
def State.serveEmpty (s : State) (t : Nat) (f : State → List Byte) : State :=
  s.serve t fun s m => if m.body = [] then s.answer m Status.OK (f s) else s.answer m Status.BAD_PACKET

/-- IKISAN_BAD_TYPE (R479). -/
def State.badIkisan (s : State) : State :=
  if ¬ s.managed then s
  else match s.takeMsg fun m => !knownType m.type with
    | some (m, s1) => s1.answer m Status.BAD_PACKET
    | none => s

/-! ### What the replies show -/

/-- HIF_STATUS.stage. -/
def Stage.code : Stage → Nat
  | .RESET => 0 | .BOOT => 1 | .READY => 2 | .RESTARTING => 3 | .STOPPED => 4

/-- HIF_STATUS of a hub (R275). -/
def State.hifStatus (s : State) (h : Nat) : Nat :=
  let l := s.link h
  l.width % 16 * 2 ^ 28 + l.rate % 16 * 2 ^ 24 + s.hif.bootStage % 256 * 2 ^ 16 + b2n (s.link (1 - h)).up * 2 ^ 10 +
  b2n (b2n s.pins.primarySampled == h) * 2 ^ 9 + b2n s.hif.locked * 2 ^ 8 + b2n s.hif.hostReady * 2 ^ 4 + s.hif.stage.code

/-- MGT_UPDATE.phase. -/
def UpdatePhase.code : UpdatePhase → Nat
  | .IDLE => 0 | .WRITING => 1 | .VERIFIED => 2 | .ACTIVATING => 3 | .PAUSED => 4 | .DONE => 5 | .ABORTED => 6

/-- MGT_UPDATE (R493). -/
def State.mgtUpdate (s : State) : Nat :=
  let u := s.mgt.update
  u.kind % 16 * 2 ^ 20 + u.unit % 16 * 2 ^ 16 + u.phase.code

/-- What runs of a kind. -/
def State.meas (s : State) (kind : Nat) : Measure := tblGet {} s.mgt.meas kind

/-- A die's 16 B unique ID. -/
def dieUid (d : Nat) : List Byte := padTo 16 (Config.uniqueId d)

/-- IDENTIFY. -/
def State.identify (s : State) : List Byte :=
  let slots := imageKinds.flatMap fun k =>
    [toLe 4 (s.meas k).version, toLe 1 (b2n (s.slotRec k).running), toLe 1 (s.meas k).rollback]
  Config.ikisanReply 1 ([toLe 1 s.mgt.otp.ordering, toLe 8 deviceId] ++ ([0, 1, 2, 3, 4, 5].map fun d => toLe 4 (dieWord d).toNat) ++
    ([0, 1, 2, 3, 4, 5].map dieUid) ++ slots)

/-- STATUS; the promise is that of the active hub's lantern (log 51). -/
def State.statusBody (s : State) : List Byte :=
  Config.ikisanReply 2 [toLe 4 s.health, toLe 4 (s.promise s.mgt.active), toLe 4 (s.hifStatus 0), toLe 4 (s.hifStatus 1), toLe 4 s.mgtUpdate]

/-- The flash that the active processor reads: its own, or the other hub's. -/
def State.readFlash (s : State) (ue : Bool) : FlashState := (s.hubMgt (if ue then 1 - s.mgt.active else s.mgt.active)).flash

/-- An uncorrectable read of the active hub's flash is reported (R475). -/
def State.flashRead (s : State) (ue : Bool) : State :=
  if ue then (s.modHubMgt s.mgt.active fun m => { m with flash := { m.flash with health := 1 } }).raise .MGT s.mgt.active 2 else s

/-- LEDGER_INFO. -/
def State.ledgerInfo (s : State) : List Byte :=
  Config.ikisanReply 3 [toLe 8 (s.readFlash false).oldest, toLe 8 s.mgt.nextSeq, toLe 4 (s.reg (ra .MGT_LEDGER_DROPPED s.mgt.active)).toNat]

/-- A field of a request (log 48). -/
def IkMsg.field (m : IkMsg) (f : Nat) : Nat := leAt m.body (Config.ikisanField m.type f).1 (Config.ikisanField m.type f).2
/-- Its data. -/
def IkMsg.data (m : IkMsg) : List Byte := m.body.drop (Config.ikisanData m.type)

/-- LEDGER_READ: entries from a seq, or from the oldest still present (R474). -/
def State.ledgerRead (s : State) (ue : Bool) : State :=
  s.serve 4 fun s m =>
    let n := m.field 1
    if n = 0 then s.answer m Status.ZERO_FIELD
    else if 1000 < n then s.answer m Status.BAD_PACKET
    else
      let f := s.readFlash ue
      let first := max (leAt m.body 0 8) f.oldest
      let es := (f.ring.filter fun e => first ≤ e.1 && e.1 < first + n).flatMap fun e => e.2
      (s.flashRead ue).answer m Status.OK (toLe 8 first ++ es)

/-- R473: bytes of the sticky region. -/
def stickyBytes : Nat := 0x100000

/-- STICKY_READ: the manual gives the places of the region's tables and no layout of them. -/
def State.stickyRead (s : State) (ue : Bool) : State :=
  s.serve 5 fun s m =>
    let o := m.field 0
    let n := m.field 1
    if n = 0 then s.answer m Status.ZERO_FIELD
    else if 65536 < n ∨ stickyBytes < o + n then s.answer m Status.BAD_PACKET
    else
      let h := if ue then 1 - s.mgt.active else s.mgt.active
      let bs := (List.range n).map fun i => Config.stickyByte h s.free (o + i)
      ({ s with free := s.free + 1 }.flashRead ue).answer m Status.OK bs

/-- One entry of the event table (R514). -/
def Event.entry (e : Event) : List Byte :=
  let fs := (Config.eventFields e.ctorIdx).take 8
  toLe 2 e.code ++ toLe 1 e.severity ++ toLe 1 fs.length ++ padTo 28 (asciiBytes e.name) ++
  padTo 32 (fs.flatMap fun (f : Nat × Nat × Nat) => toLe 1 f.1 ++ toLe 1 f.2.1 ++ toLe 1 f.2.2 ++ toLe 1 0)

/-- EVENT_NAMES: the defined events from a code on, in ascending code. -/
def State.eventNames (s : State) : State :=
  s.serve 6 fun s m =>
    let first := leAt m.body 0 2
    let n := leAt m.body 2 2
    if m.body.length ≠ 4 then s.answer m Status.BAD_PACKET
    else if n = 0 then s.answer m Status.ZERO_FIELD
    else if 1000 < n then s.answer m Status.BAD_PACKET
    else
      let es := (sortBy Event.code (Event.all.filter fun e => first ≤ e.code)).take n
      s.answer m Status.OK (toLe 8 first ++ es.flatMap Event.entry)

/-- R475: bytes of the FACTORY and the USER partition. -/
def factoryBytes : Nat := 0x100000
def userBytes : Nat := 0x400000
/-- R487: the host's data begins here. -/
def userData : Nat := 0x10000

/-- A byte of the USER partition. -/
def State.userByteAt (s : State) (f : FlashState) (o : Nat) : Byte :=
  if o < userData then Config.userByte s.free o else tblGet erasedByte f.user o

/-- CAL_READ. -/
def State.calRead (s : State) (ue : Bool) : State :=
  s.serve 8 fun s m =>
    let part := m.field 0
    let o := m.field 1
    let n := m.field 2
    if n = 0 then s.answer m Status.ZERO_FIELD
    else if 1 < part ∨ 65536 < n ∨ (if part = 0 then factoryBytes else userBytes) < o + n then s.answer m Status.BAD_PACKET
    else
      let f := s.readFlash ue
      let bs := (List.range n).map fun i => if part = 0 then Config.factoryByte (o + i) else s.userByteAt f (o + i)
      ({ s with free := s.free + 1 }.flashRead ue).answer m Status.OK bs

/-- DEBUG_CHALLENGE: a new 32 B nonce, which the next token must carry (R492). -/
def State.debugChallenge (s : State) : State :=
  s.serve 9 fun s m =>
    if m.body ≠ [] then s.answer m Status.BAD_PACKET
    else
      let n := [0, 1, 2, 3].flatMap fun i => toLe 8 (Config.freeValue (s.free + i)).toNat
      { s with free := s.free + 4, mgt := { s.mgt with nonce := some n } }.answer m Status.OK n

/-! ### Attestation (R489 … R491) -/

/-- Requests that may wait. -/
def attestMax : Nat := 16

/-- Nonce and report kind of a request. -/
def AttestFor.args : AttestFor → List Byte × Nat
  | .packet p => ((p.header.drop 16).take 32, leAt p.header 48 1)
  | .message m => (m.body.take 32, leAt m.body 32 1)

/-- Bytes 0 … 447 of a report. -/
def State.reportHead (s : State) (h index : Nat) (nonce : List Byte) : List Byte :=
  let p := s.promise h
  let kinds := imageKinds.flatMap fun k =>
    let x := s.meas k
    toLe 1 (b2n (s.slotRec k).running) ++ toLe 1 x.rollback ++ toLe 2 0 ++ toLe 4 x.version ++ toLe 8 0 ++ padTo 32 x.digest
  toLe 4 0x41545354 ++ toLe 1 s.mgt.otp.ordering ++ toLe 1 (b2n s.mgt.otp.debugged + 2 * b2n (!bitN p 31) + 4 * h) ++ toLe 2 p ++
  toLe 8 deviceId ++ [4, 5, 0, 1, 2, 3].flatMap dieUid ++ toLe 4 s.mgt.bootCount ++ toLe 4 s.life ++ padTo 32 nonce ++ kinds ++ toLe 8 index

/-- R490: indices that one reservation takes, and the bound of the index. -/
def reserveStep : Nat := 1024
def indexEnd : Nat := 2 ^ 40

/-- Write the older reservation record with an end 1,024 further and a higher counter. -/
def HubMgt.reserve (m : HubMgt) : HubMgt :=
  let a := nth (0, 0) m.xmssRecs 0
  let b := nth (0, 0) m.xmssRecs 1
  let x := (max a.1 b.1 + 1, m.xmssEnd + reserveStep)
  { m with xmssEnd := m.xmssEnd + reserveStep, xmssRecs := if a.1 ≤ b.1 then [x, b] else [a, x] }

/-- The next index of the active hub's key, reserved in flash before it is used; none when there is none left or the record does not
read back. -/
def State.nextIndex (s : State) (writeOk : Bool) : State × Option Nat :=
  let h := s.mgt.active
  let m := s.hubMgt h
  let use (s : State) : State × Option Nat := (s.modHubMgt h fun m => { m with xmssNext := m.xmssNext + 1, attests := min (m.attests + 1) 0xFFFFFFFF }, some m.xmssNext)
  if indexEnd ≤ m.xmssNext then ((s.raise .SEC h 3).log .XMSS_EXHAUSTED (4 + h) [h], none)
  else if m.xmssNext < m.xmssEnd then use s
  else if writeOk then use (s.modHubMgt h HubMgt.reserve)
  else ((s.raise .SEC h 2).log .XMSS_STATE_FAIL (4 + h) [h], none)

/-- Answer an attestation request. -/
def State.attestAnswer (s : State) (a : AttestFor) (status : Nat) (body : List Byte) : State :=
  match a with
  | .packet p => s.finish p status [] body
  | .message m => s.answer m status body

/-- Sign the oldest waiting request. -/
def State.signNext (s : State) (writeOk : Bool) : State :=
  match s.mgt.attestWait with
  | [] => s
  | a :: rest =>
    if ¬ s.managed then s
    else
      let h := s.mgt.active
      let r := { s with mgt := { s.mgt with attestWait := rest } }.nextIndex writeOk
      match r.2 with
      | none => r.1.attestAnswer a Status.NOT_READY []
      | some i =>
        let head := r.1.reportHead h i a.args.1
        let report := head ++ padTo 9893 (Config.xmssmtSign h i head)
        r.1.attestAnswer a Status.OK (report ++ if a.args.2 = 1 then Config.certificate h else [])

/-- A request waits to be signed. -/
def State.attestPush (s : State) (a : AttestFor) : State := { s with mgt := { s.mgt with attestWait := s.mgt.attestWait ++ [a] } }

/-- ATTEST: the packet waits; it holds its ring while 16 others wait. -/
def State.attestPacket (s : State) (p : Packet) : State :=
  if 1 < leAt p.header 48 1 ∨ ¬ zeroFrom p.header 49 15 ∨ p.payload ≠ [] then s.takeFinish p Status.BAD_PACKET
  else if attestMax ≤ s.mgt.attestWait.length then s.hold p
  else (s.take p).attestPush (.packet p)

/-- ATTEST_MESSAGE: the oldest one waits with the packets. -/
def State.attestMessage (s : State) : State :=
  if attestMax ≤ s.mgt.attestWait.length then s
  else s.serve 7 fun s m =>
    if m.body.length < 33 ∨ 48 < m.body.length ∨ 1 < leAt m.body 32 1 ∨ ¬ zeroFrom m.body 33 15 then s.answer m Status.BAD_PACKET
    else s.attestPush (.message m)

/-! ### The commands -/

/-- MGMT (R266, R476). -/
def execMgmt (link : Fin 2) (sq : Fin 64) (s : State) : Host.Outcome State Fault Refusal :=
  .next (match s.packet link sq 0x0D with
    | some p => s.mgmtPacket p
    | none => s)
/-- ATTEST (R491): `sign` has the engine sign the oldest waiting request; else the ring's packet is taken. -/
def execAttest (link : Fin 2) (sq : Fin 64) (sign writeOk : Bool) (s : State) : Host.Outcome State Fault Refusal :=
  .next (if sign then s.signNext writeOk
    else match s.front link sq with
      | some p => if p.type = 0x0E then s.attestPacket p else s
      | none => s)
/-- MGMT_PORT_DATAGRAM (R476). -/
def execMgmtPortDatagram (hub : Fin 2) (datagram : MgmtDatagram) (s : State) : Host.Outcome State Fault Refusal :=
  .next (s.portReceive hub datagram)
/-- MAILBOX_SEND (R480). -/
def execMailboxSend (hub : Fin 2) (value : BitVec 32) (s : State) : Host.Outcome State Fault Refusal := .next (s.mailboxSend hub value)
/-- IKISAN_BAD_TYPE (R479). -/
def execIkisanBadType (s : State) : Host.Outcome State Fault Refusal := .next s.badIkisan
/-- IDENTIFY (R479). -/
def execIdentify (s : State) : Host.Outcome State Fault Refusal := .next (s.serveEmpty 1 State.identify)
/-- STATUS (R479). -/
def execStatus (s : State) : Host.Outcome State Fault Refusal := .next (s.serveEmpty 2 State.statusBody)
/-- LEDGER_INFO (R479). -/
def execLedgerInfo (s : State) : Host.Outcome State Fault Refusal := .next (s.serveEmpty 3 State.ledgerInfo)
/-- LEDGER_READ (R474). -/
def execLedgerRead (ue : Bool) (s : State) : Host.Outcome State Fault Refusal := .next (s.ledgerRead ue)
/-- STICKY_READ (R479). -/
def execStickyRead (ue : Bool) (s : State) : Host.Outcome State Fault Refusal := .next (s.stickyRead ue)
/-- EVENT_NAMES (R514). -/
def execEventNames (s : State) : Host.Outcome State Fault Refusal := .next s.eventNames
/-- ATTEST_MESSAGE (R491). -/
def execAttestMessage (sign writeOk : Bool) (s : State) : Host.Outcome State Fault Refusal :=
  .next (if sign then s.signNext writeOk else s.attestMessage)
/-- CAL_READ (R479). -/
def execCalRead (ue : Bool) (s : State) : Host.Outcome State Fault Refusal := .next (s.calRead ue)
/-- DEBUG_CHALLENGE (R492). -/
def execDebugChallenge (s : State) : Host.Outcome State Fault Refusal := .next s.debugChallenge

end Sys2Proof.Machine
end

