-- ==== Sys2Proof/Machine/Control.lean ====
section
/-! DEFINITION. The CONTROL messages of Ikisan (R478, R479): key, calibration (R487, R488), update (R482 … R486), resets (R431), and the debug
unlock (R492). -/

namespace Sys2Proof.Machine

/-! ### Authentication (R478) -/

/-- A CONTROL message is accepted: with a key, only with a valid tag and a rising counter; without one, only untagged over host rings. -/
def State.authentic (s : State) (m : IkMsg) : Bool :=
  match s.mgt.key with
  | some k => m.tagged && kmac k m.covered == m.bytes.drop (m.bytes.length - 16) && s.mgt.counter < m.counter
  | none => match m.via with
    | .ring _ => !m.tagged
    | _ => false

/-- A refusal by R478. -/
def State.authFail (s : State) (m : IkMsg) : State :=
  ((s.raise .MGT s.mgt.active 4).log .MGMT_AUTH_FAIL (4 + s.mgt.active) []).answer m Status.AUTH_FAIL

/-- PLANNED_STOP and RESET, which an activation does not hold up. -/
def stopTypes : List Nat := [0x18, 0x19]

/-- Serve the oldest CONTROL message when it is of a type: it is authenticated, its counter is stored, and an activation turns it away
(log 52). -/
def State.control (s : State) (t : Nat) (mine : IkMsg → Bool) (f : State → IkMsg → State) : State :=
  if ¬ s.managed then s
  else match s.takeMsg fun m => controlType m.type with
    | some (m, s1) =>
      if m.type ≠ t ∨ ¬ mine m then s
      else if ¬ s1.authentic m then s1.authFail m
      else
        let s2 := { s1 with mgt := { s1.mgt with counter := max s1.mgt.counter m.counter } }
        if s2.activating ∧ ¬ stopTypes.contains t then s2.answer m Status.NOT_READY else f s2 m
    | none => s

/-- Every message of a type. -/
def anyMsg : IkMsg → Bool := fun _ => true

/-! ### Key and calibration (R479, R487, R488) -/

/-- KEY_SET. -/
def State.keySet (s : State) : State :=
  s.control 0x10 anyMsg fun s m =>
    if m.body.length ≠ 32 then s.answer m Status.BAD_PACKET
    else { s with mgt := { s.mgt with key := some m.body } }.answer m Status.OK

/-- Change the USER partition of every flash. -/
def State.modUser (s : State) (f : Tbl Byte → Tbl Byte) : State :=
  s.liveHubs.foldl (fun s h => s.modHubMgt h fun x => { x with flash := { x.flash with user := f x.flash.user } }) s

/-- CAL_WRITE. -/
def State.calWrite (s : State) : State :=
  s.control 0x11 anyMsg fun s m =>
    let o := m.field 0
    let bs := m.data
    if bs = [] then s.answer m Status.ZERO_FIELD
    else if o < userData ∨ userBytes < o + bs.length then s.answer m Status.BAD_PACKET
    else (s.modUser fun t => tblSetList erasedByte t o bs).answer m Status.OK

/-- RESTORE_FACTORY erases the USER partition and keeps the counter. -/
def State.restoreFactory (s : State) : State :=
  s.control 0x12 anyMsg fun s m =>
    if m.body ≠ [] then s.answer m Status.BAD_PACKET
    else
      let s1 := s.modUser fun _ => []
      ({ s1 with mgt := { s1.mgt with key := none, userErased := true } }.log .RESTORE_FACTORY 0xFF []).answer m Status.OK

/-! ### Writing a slot (R482, R485) -/

/-- A kind of R481. -/
def kindOk (k : Nat) : Bool := 1 ≤ k && k ≤ 6

/-- UPDATE_BEGIN erases the inactive slot; a pending mark of it goes with its contents. -/
def State.updateBegin (s : State) : State :=
  s.control 0x13 anyMsg fun s m =>
    let k := m.field 0
    let n := m.field 1
    if n = 0 then s.answer m Status.ZERO_FIELD
    else if ¬ kindOk k ∨ n < 4096 ∨ slotSize k < n then s.answer m Status.BAD_PACKET
    else
      let s1 := s.slotChange k (!(s.slotRec k).activeB) fun _ => []
      let s2 := s1.modSlot k fun r => { r with pending := false, attempts := 0, writing := some (0, n) }
      (s2.modUpdate fun u => { u with phase := .WRITING, kind := k }).answer m Status.OK

/-- UPDATE_DATA writes the slot in ascending offset. -/
def State.updateData (s : State) : State :=
  s.control 0x14 anyMsg fun s m =>
    let k := m.field 0
    let o := m.field 1
    let bs := m.data
    if bs = [] then s.answer m Status.ZERO_FIELD
    else if ¬ kindOk k then s.answer m Status.BAD_PACKET
    else
      match (s.slotRec k).writing with
      | none => s.answer m Status.NOT_READY
      | some (done, len) =>
        if o < done ∨ len < o + bs.length then s.answer m Status.BAD_PACKET
        else
          let s1 := s.slotChange k (!(s.slotRec k).activeB) fun t => tblSetList erasedByte t o bs
          (s1.modSlot k fun r => { r with writing := some (o + bs.length, len) }).answer m Status.OK

/-- UPDATE_VERIFY checks the slot and marks it pending. An image that is refused is answered AUTH_FAIL (log 53). -/
def State.updateVerify (s : State) : State :=
  s.control 0x15 anyMsg fun s m =>
    let k := m.field 0
    let h := if k = 2 then 0 else s.mgt.active
    if ¬ kindOk k then s.answer m Status.BAD_PACKET
    else if (s.slotRec k).writing.isNone then s.answer m Status.NOT_READY
    else
      match s.imageFault h k (!(s.slotRec k).activeB) with
      | some why => (s.refuseImage s.mgt.active k why).answer m Status.AUTH_FAIL
      | none =>
        let s1 := s.modSlot k fun r => { r with pending := true, attempts := 1, writing := none }
        (s1.modUpdate fun u => { u with phase := .VERIFIED, kind := k }).answer m Status.OK

/-! ### Activations (R485) -/

/-- The scope of an UPDATE_ACTIVATE. -/
def IkMsg.scope (m : IkMsg) : Nat := m.field 0

/-- An activation of a scope starts. -/
def State.beginActivation (s : State) (scope kind : Nat) : State :=
  s.modUpdate fun _ => { phase := .ACTIVATING, kind := kind, scope := scope, since := s.now }

/-- A graph would be unplaceable with one more die fenced. -/
def State.unplaceableWithout (s : State) (d : Nat) : Bool :=
  if h : d < 4 then (s.markFenced (.die ⟨d, h⟩)).foldPlan.any fun x => !x.2.2 else false

/-- TDIES is refused: TDF not pending, a fold or a return home runs, or a graph would be unplaceable. -/
def State.tdiesRefused (s : State) : Bool :=
  !(s.slotRec 3).pending || s.graphs.folding || s.graphs.graphs.any (fun gr => gr.state == .paused || gr.unplaceable) ||
  s.liveTdies.any s.unplaceableWithout

/-- UPDATE_ACTIVATE of TDIES; a scope that R479 does not list is BAD_PACKET. -/
def State.activateTdies (s : State) : State :=
  s.control 0x16 (fun m => m.scope != 2 && m.scope != 3) fun s m =>
    if m.scope ≠ 1 then s.answer m Status.BAD_PACKET
    else if s.tdiesRefused then s.answer m Status.NOT_READY
    else (((s.beginActivation 1 3).modSlot 3 fun r => { r with attempts := 0 }).nextTdie 0).answer m Status.OK

/-- UPDATE_ACTIVATE of LANTERNS. -/
def State.activateLanterns (s : State) : State :=
  s.control 0x16 (fun m => m.scope == 2) fun s m =>
    if ¬ (s.slotRec 2).pending ∨ (s.lantern 1).run ≠ .RUNNING then s.answer m Status.NOT_READY
    else (((s.beginActivation 2 2).modSlot 2 fun r => { r with attempts := 0 }).startLantern 0).answer m Status.OK

/-- A planned stop of every lantern that works: DOWN with cause PLANNED, and FAULT (R431). -/
def State.plannedDown (s : State) : State :=
  s.workingLanterns.foldl (fun s l => (s.startDown l causePlanned).assertFault l causePlanned) s

/-- UPDATE_ACTIVATE of HUBS: the twin is ALIVE, or force is set. -/
def State.activateHubs (s : State) : State :=
  s.control 0x16 (fun m => m.scope == 3) fun s m =>
    if s.mirror.twin ≠ .ALIVE ∧ m.field 1 = 0 then s.answer m Status.NOT_READY
    else (((s.answer m Status.OK).beginActivation 3 1).plannedDown).requestWarm 4

/-- UPDATE_COMMIT raises the floor of a kind; for the MPF it also revokes key slots (R484). -/
def State.updateCommit (s : State) : State :=
  s.control 0x17 anyMsg fun s m =>
    let k := m.field 0
    if ¬ kindOk k then s.answer m Status.BAD_PACKET
    else if (s.slotRec k).pending then s.answer m Status.NOT_READY
    else
      let hd := s.slotRead (if k = 2 then 0 else s.mgt.active) k (s.slotRec k).activeB 0 4096
      let floor := max (tblGet 0 s.mgt.otp.floors k) (min 128 (leAt hd 12 1))
      let gone := if k = 1 then [0, 1, 2, 3].filter (bitN (leAt hd 6 1)) else []
      let otp := { s.mgt.otp with floors := tblSet 0 s.mgt.otp.floors k floor, revoked := gone.foldl addNew s.mgt.otp.revoked }
      { s with mgt := { s.mgt with otp := otp } }.answer m Status.OK (Config.ikisanReply 0x17 [toLe 1 floor])

/-! ### Stops and debug (R424, R431, R492) -/

/-- RESET: the reply, then the request. -/
def State.resetMessage (s : State) : State :=
  s.control 0x18 anyMsg fun s m =>
    if m.body ≠ [] then s.answer m Status.BAD_PACKET else (s.answer m Status.OK).requestWarm 3

/-- PLANNED_STOP: the reply, then DOWN. -/
def State.plannedStop (s : State) : State :=
  s.control 0x19 anyMsg fun s m =>
    if m.body ≠ [] then s.answer m Status.BAD_PACKET else (s.answer m Status.OK).plannedDown

/-- Bytes of a debug token. -/
def tokenBytes : Nat := 2932

/-- The checks of a token (R492). -/
def State.tokenOk (s : State) (t : List Byte) : Bool :=
  let key := leAt t 72 1
  t.length == tokenBytes && leAt t 0 4 == 0x44424755 && leAt t 4 4 < 8 && (t.drop 8).take 32 == dieUid 4 ++ dieUid 5 &&
  s.mgt.nonce == some ((t.drop 40).take 32) && key < 4 && Config.vendorKey key != [] && !s.mgt.otp.revoked.contains key &&
  zeroFrom t 73 39 && Config.xmssVerify (Config.vendorKey key) (t.take 112) (t.drop 112)

/-- The debugged fuse is blown, and scopes open. -/
def State.openDebug (s : State) (scopes : Nat) : State :=
  ({ s with mgt := { s.mgt with
      otp := { s.mgt.otp with debugged := true }, scopes := Nat.lor s.mgt.scopes scopes } }.log .DEBUG_UNLOCKED 0xFF [scopes]).promiseCheck

/-- DEBUG_UNLOCK: by a token on AE32-AQ; on AE32-EV no token is needed. A nonce serves once (log 54). -/
def State.debugUnlock (s : State) : State :=
  s.control 0x1A anyMsg fun s m =>
    let ok := s.tokenOk m.body
    let s1 := { s with mgt := { s.mgt with nonce := none } }
    if s.mgt.otp.ordering ≠ 1 then (s.openDebug (if ok then leAt m.body 4 4 else 0)).answer m Status.OK
    else if ok then (s1.openDebug (leAt m.body 4 4)).answer m Status.OK
    else ((s1.raise .SEC s.mgt.active 4).log .DEBUG_REFUSED 0xFF []).answer m Status.AUTH_FAIL

/-! ### The commands -/

/-- KEY_SET (R479). -/
def execKeySet (s : State) : Host.Outcome State Fault Refusal := .next s.keySet
/-- CAL_WRITE (R479). -/
def execCalWrite (s : State) : Host.Outcome State Fault Refusal := .next s.calWrite
/-- RESTORE_FACTORY (R488). -/
def execRestoreFactory (s : State) : Host.Outcome State Fault Refusal := .next s.restoreFactory
/-- UPDATE_BEGIN (R485). -/
def execUpdateBegin (s : State) : Host.Outcome State Fault Refusal := .next s.updateBegin
/-- UPDATE_DATA (R485). -/
def execUpdateData (s : State) : Host.Outcome State Fault Refusal := .next s.updateData
/-- UPDATE_VERIFY (R482). -/
def execUpdateVerify (s : State) : Host.Outcome State Fault Refusal := .next s.updateVerify
/-- UPDATE_ACTIVATE_TDIES (R485). -/
def execUpdateActivateTdies (s : State) : Host.Outcome State Fault Refusal := .next s.activateTdies
/-- UPDATE_ACTIVATE_LANTERNS (R485). -/
def execUpdateActivateLanterns (s : State) : Host.Outcome State Fault Refusal := .next s.activateLanterns
/-- UPDATE_ACTIVATE_HUBS (R485). -/
def execUpdateActivateHubs (s : State) : Host.Outcome State Fault Refusal := .next s.activateHubs
/-- UPDATE_COMMIT (R484). -/
def execUpdateCommit (s : State) : Host.Outcome State Fault Refusal := .next s.updateCommit
/-- RESET (R479). -/
def execReset (s : State) : Host.Outcome State Fault Refusal := .next s.resetMessage
/-- PLANNED_STOP (R431). -/
def execPlannedStop (s : State) : Host.Outcome State Fault Refusal := .next s.plannedStop
/-- DEBUG_UNLOCK (R492). -/
def execDebugUnlock (s : State) : Host.Outcome State Fault Refusal := .next s.debugUnlock

end Sys2Proof.Machine
end

