-- ==== Sys2Proof/Machine/RegWrites.lean ====
section
/-! DEFINITION. Register writes over BAR0 and by management (R9 … R12, R241 … R243), package-wide registers (R313), the catalogue region (R160),
and the read of HIF_ERR_SUMMARY (R270, R275). A register with a row of its own has that row's effect here. -/

namespace Sys2Proof.Machine

/-! ### Registers with an effect of their own -/

/-- CAT_REGION_ENABLE: a write to CAT_REGION_BASE_LO (R160, R420). An address that is not on the die's stack is not enabled, and an enabled
region with pools stays where it is (log 55). -/
def State.writeRegion (s : State) (hub d : Nat) (v : Word) : State :=
  let a := ra .CAT_REGION_BASE_LO d
  s.rwl hub a fun s =>
    let hi := s.field (ra .CAT_REGION_BASE_HI d) 15 0
    let base := bits v 31 25 * 0x2000000 + hi * 0x100000000
    let used := s.cache.pools.any fun e => e.2.exists_ && e.2.die == d
    if (s.catRegion d).isSome ∧ used then s
    else if ¬ v.getLsbD 0 then ((s.putReg a v).setCache (s.cache.modCat d fun k => { k with run := 1 })).writeRecord
    else if stackOf base ≠ d then s.putReg a (v &&& 0xFFFFFFFE)
    else (s.setRegion d base).writeRecord

/-- A write to MIR_CFG (R433, R434): a port that is enabled starts its 30 ms, and the configured role has 100 ms to settle. -/
def State.writeMirror (s : State) (h : Nat) (v : Word) : State :=
  let a := ra .MIR_CFG h
  s.rwl h a fun s =>
    let starts := v.getLsbD 31 && !(s.mirCfg h).getLsbD 31
    let s1 := (s.putReg a v).modMirPort h fun p => if starts then { p with enAt := s.now } else p
    { s1 with mirror := { s1.mirror with roleSettled := s1.mirror.lead, roleAt := s.now } }

/-- A write to the MSI-X table: a vector that is unmasked while it is pending goes out (R243; log 56). -/
def State.writeMsix (s : State) (a : RegAddr) (v : Word) : State :=
  let s1 := s.putReg a v
  let p := ra .MSIX_PBA a.inst 0 (a.unit / 32)
  if a.word = 3 ∧ ¬ v.getLsbD 0 ∧ (s1.reg p).getLsbD (a.unit % 32) then
    (s1.setReg p (s1.reg p &&& ~~~ word (2 ^ (a.unit % 32)))).msix a.inst a.unit
  else s1

/-- A write to CORE_FIT_CLEAR (R109): bit 0 clears CORE_FIT_WIDEN, bit 1 CORE_FIT_SKIPPED, of the slot that the side has selected. -/
def State.writeFitClear (s : State) (c : Nat) (mgmt : Bool) (v : Word) : State :=
  s.modCore c fun k => { k with slots := tblMod {} k.slots (s.fitSel c mgmt) fun x =>
    { x with widenTotal := if v.getLsbD 0 then 0 else x.widenTotal, skippedTotal := if v.getLsbD 1 then 0 else x.skippedTotal } }

/-- The registers that both hubs share (R313). -/
def packageRegs : List Reg :=
  [.ALN_EGO_YAW_ID, .ALN_EGO_YAW_FMT, .ALN_EGO_YAW_SCALE, .ALN_EGO_SPEED_ID, .ALN_EGO_SPEED_FMT, .ALN_EGO_SPEED_SCALE, .ALN_G_CFG,
   .ALN_G_MEMBERS, .ALN_G_REF_ORDER, .ALN_G_WAIT, .ALN_G_PERIOD, .ALN_G_REC_LO, .ALN_G_REC_HI, .ALN_G_CONTRA_LIMIT, .PLN_CFG,
   .PLN_SLICES, .PLN_CHECK, .PLN_WF, .PLN_SEARCH, .PLN_OUT, .PLN_WINDOW]

/-- A write to a package-wide register sets it in both hubs' blocks. -/
def State.writePackage (s : State) (h : Nat) (a : RegAddr) (v : Word) : State :=
  if a.reg = .ALN_G_CFG then s.writeGroup h a.unit v
  else if a.reg = .PLN_CFG then s.writePlanner h v
  else s.rwl h a fun s => s.setBoth a.reg a.unit (maskReg a v) a.word

/-! ### Writes by access type (R11) -/

/-- The select registers, of which the host and the management processor each have a copy. -/
def selectRegs : List Reg :=
  [.GFE_GRAPH_SEL, .CORE_FIT_SEL, .TDE_GRAPH_SEL, .CAT_POOL_SEL, .CAT_SEQ_SEL, .MC_PC_SEL, .MC_RETIRED_SEL, .D2D_PORT_SEL, .ALN_C_SEL,
   .THM_HS_SEL, .THM_CYC_SEL, .PWR_RAIL_SEL, .SEC_ROLLBACK_SEL, .SEC_MEAS_SEL]

/-- The copy that a side writes: management's is unit 1. -/
def sideOf (a : RegAddr) (mgmt : Bool) : RegAddr := if mgmt ∧ selectRegs.contains a.reg then { a with unit := 1 } else a

/-- A write by a register's access type; the summary of its block is formed anew. -/
def State.writeByType (s : State) (h : Nat) (mgmt : Bool) (a : RegAddr) (v : Word) : State :=
  match (regRow a.reg).access with
  | .RO | .WO => s
  | .RW | .RWS => s.putReg (sideOf a mgmt) v
  | .RWL => s.rwl h a fun s => (s.putReg a v).summarise (regBlock a.reg)
  | .W1C => s.w1c a v

/-- A write to a register. -/
def State.writeReg (s : State) (h : Nat) (mgmt : Bool) (a : RegAddr) (v : Word) : State :=
  if packageRegs.contains a.reg then s.writePackage h a v
  else
    match a.reg with
    | .HIF_SETUP_LOCK => s.setupLock v
    | .HIF_NOTICE_RING => s.writeNoticeRing h v
    | .HIF_SQ_CFG => s.writeSqCfg h a.unit v
    | .HIF_CQ_CFG => s.writeCqCfg h a.unit v
    | .HIF_SQ_BASE_LO | .HIF_SQ_BASE_HI => s.writeRingAddr h a ((s.sq h a.unit).run != .DISABLED) v
    | .HIF_CQ_BASE_LO | .HIF_CQ_BASE_HI | .HIF_CQ_STAT_LO | .HIF_CQ_STAT_HI => s.writeRingAddr h a (s.cq h a.unit).enabled v
    | .HIF_SQ_RESTART => s.sqRestart h a.unit v
    | .MSIX_TABLE => s.writeMsix a v
    | .CORE_FIT_CLEAR => s.writeFitClear a.inst mgmt v
    | .CAT_REGION_BASE_LO => s.writeRegion h a.inst v
    | .RC_CTRL => s.rcCtrl h a.inst v
    | .SIN_S_CFG => s.writeStream h a.unit v
    | .SIN_B_CFG => s.writeBinding h a.unit v
    | .PRM_C_CFG => s.writeCamera h a.unit v
    | .PRM_L_CFG => s.writePoints h a.unit v
    | .PRM_CFG => s.writeBev h v
    | .MIR_CFG => s.writeMirror h v
    | .MGT_MBX_CTRL => s.mailboxSend h v
    | _ => s.writeByType h mgmt a v

/-- REGISTER_WRITE at a BAR0 offset of hub `h`: a write through the other hub's view, or to a reserved offset, is discarded, and so is every
write of the host before host_ready (R241, R242, R274). -/
def State.registerWrite (s : State) (mgmt : Bool) (h o : Nat) (v : Word) : State :=
  if o % 4 ≠ 0 then s.log .REG_ACCESS_BAD (4 + h) [o, 4, 1]
  else if ¬ mgmt ∧ ¬ s.hif.hostReady then s
  else match decodeBar0 h o with
    | .reg a => s.writeReg h mgmt a v
    | .otherView _ => s.raise .HIF h 7
    | .reserved => s

/-- An access that R243 accepts in the MSI-X table and PBA: aligned, of 4 or 8 B. -/
def msixAccess (o width : Nat) : Bool := 0x8000 ≤ o && o < 0x9008 && (width == 4 || width == 8) && o % width == 0

/-- REG_ACCESS_BAD: an access of another width or alignment than R9 and R243 allow has no effect and is logged. -/
def State.badAccess (s : State) (h o width : Nat) (write : Bool) : State :=
  if (width = 4 ∧ o % 4 = 0) ∨ msixAccess o width then s else s.log .REG_ACCESS_BAD (4 + h) [o, width, b2n write]

/-- HIF_ERR_SUMMARY as it reads. -/
def State.errSummary (s : State) (h : Nat) : Word := BitVec.ofBool (s.link h).restarted ++ 0#13 ++ BitVec.ofNat 18 s.hif.summary

/-- HIF_ERR_SUMMARY_READ: the value goes to the reader, and restarted is cleared. -/
def State.summaryRead (s : State) (h : Nat) : State :=
  { s with hif := { s.hif with readReturn := s.errSummary h } }.modLink h fun l => { l with restarted := false }

/-- PACKAGE_REG_WRITE: a write through a hub's own BAR0 to a package-wide register. -/
def State.packageWrite (s : State) (h o : Nat) (v : Word) : State :=
  match decodeBar0 h o with
  | .reg a => if packageRegs.contains a.reg then s.writePackage h a v else s
  | _ => s

/-! ### The commands -/

/-- REGISTER_WRITE (R11). -/
def execRegisterWrite (mgmt : Bool) (hub : Fin 2) (offset : Nat) (value : BitVec 32) (s : State) : Host.Outcome State Fault Refusal :=
  .next (s.registerWrite mgmt hub offset value)
/-- REG_ACCESS_BAD (R9). -/
def execRegAccessBad (hub : Fin 2) (offset width : Nat) (write : Bool) (s : State) : Host.Outcome State Fault Refusal :=
  .next (s.badAccess hub offset width write)
/-- HIF_ERR_SUMMARY_READ (R275). -/
def execHifErrSummaryRead (hub : Fin 2) (s : State) : Host.Outcome State Fault Refusal := .next (s.summaryRead hub)
/-- PACKAGE_REG_WRITE (R313). -/
def execPackageRegWrite (hub : Fin 2) (offset : Nat) (value : BitVec 32) (s : State) : Host.Outcome State Fault Refusal :=
  .next (s.packageWrite hub offset value)
/-- CAT_REGION_ENABLE (R160). -/
def execCatRegionEnable (hub : Fin 2) (die : Fin 4) (value : BitVec 32) (s : State) : Host.Outcome State Fault Refusal :=
  .next (s.writeRegion hub die value)

end Sys2Proof.Machine
end

