-- ==== Sys2Proof/Machine/Dispatch.lean ====
section
/-! DEFINITION. The dispatch: one arm per command, each a direct call of its meaning. -/

namespace Sys2Proof.Machine

def exec (i : Instr) (s : State) : Host.Outcome State Fault Refusal :=
  match i with
  | .registerWrite mgmt hub offset value => Sys2Proof.Machine.execRegisterWrite mgmt hub offset value s
  | .regAccessBad hub offset width write => Sys2Proof.Machine.execRegAccessBad hub offset width write s
  | .hifErrSummaryRead hub => Sys2Proof.Machine.execHifErrSummaryRead hub s
  | .hifSetupLock hub value => Sys2Proof.Machine.execHifSetupLock hub value s
  | .teWload core hw => Sys2Proof.Machine.execTeWload core hw s
  | .teXload core hw => Sys2Proof.Machine.execTeXload core hw s
  | .teMma core hw => Sys2Proof.Machine.execTeMma core hw s
  | .teTma core hw => Sys2Proof.Machine.execTeTma core hw s
  | .teOut core hw => Sys2Proof.Machine.execTeOut core hw s
  | .teAclr core hw => Sys2Proof.Machine.execTeAclr core hw s
  | .veAdd core hw => Sys2Proof.Machine.execVeAdd core hw s
  | .veSub core hw => Sys2Proof.Machine.execVeSub core hw s
  | .veMul core hw => Sys2Proof.Machine.execVeMul core hw s
  | .veFma core hw => Sys2Proof.Machine.execVeFma core hw s
  | .veMax core hw => Sys2Proof.Machine.execVeMax core hw s
  | .veMin core hw => Sys2Proof.Machine.execVeMin core hw s
  | .veCvt core hw => Sys2Proof.Machine.execVeCvt core hw s
  | .veBcast core hw => Sys2Proof.Machine.execVeBcast core hw s
  | .veSel core hw => Sys2Proof.Machine.execVeSel core hw s
  | .veRsum core hw => Sys2Proof.Machine.execVeRsum core hw s
  | .veRmax core hw => Sys2Proof.Machine.execVeRmax core hw s
  | .veSfu core hw => Sys2Proof.Machine.execVeSfu core hw s
  | .apQload core hw => Sys2Proof.Machine.execApQload core hw s
  | .apPass core hw => Sys2Proof.Machine.execApPass core hw s
  | .apOut core hw => Sys2Proof.Machine.execApOut core hw s
  | .dmCopy core hw => Sys2Proof.Machine.execDmCopy core hw s
  | .dmFill core hw => Sys2Proof.Machine.execDmFill core hw s
  | .dmSend core hw => Sys2Proof.Machine.execDmSend core hw s
  | .dmRecv core hw => Sys2Proof.Machine.execDmRecv core hw s
  | .dmRead core hw => Sys2Proof.Machine.execDmRead core hw s
  | .dmWrite core hw => Sys2Proof.Machine.execDmWrite core hw s
  | .dmGather core hw => Sys2Proof.Machine.execDmGather core hw s
  | .dmTranspose core hw => Sys2Proof.Machine.execDmTranspose core hw s
  | .seqNop core hw => Sys2Proof.Machine.execSeqNop core hw s
  | .seqTokenWait core hw => Sys2Proof.Machine.execSeqTokenWait core hw s
  | .seqTokenSend core hw => Sys2Proof.Machine.execSeqTokenSend core hw s
  | .seqLoop core hw => Sys2Proof.Machine.execSeqLoop core hw s
  | .seqBarrier core hw => Sys2Proof.Machine.execSeqBarrier core hw s
  | .seqFitCheck core hw => Sys2Proof.Machine.execSeqFitCheck core hw s
  | .seqEnd core hw => Sys2Proof.Machine.execSeqEnd core hw s
  | .illegalOp core hw => Sys2Proof.Machine.execIllegalOp core hw s
  | .widenDecision graph frame group copy => Sys2Proof.Machine.execWidenDecision graph frame group copy s
  | .coreCeStorm core bank => Sys2Proof.Machine.execCoreCeStorm core bank s
  | .coreScrub core cluster hw => Sys2Proof.Machine.execCoreScrub core cluster hw s
  | .coreReset core => Sys2Proof.Machine.execCoreReset core s
  | .coreFitClearWiden core mgmt => Sys2Proof.Machine.execCoreFitClearWiden core mgmt s
  | .coreFitClearSkipped core mgmt => Sys2Proof.Machine.execCoreFitClearSkipped core mgmt s
  | .graphLoad link sq => Sys2Proof.Machine.execGraphLoad link sq s
  | .graphUnload link sq => Sys2Proof.Machine.execGraphUnload link sq s
  | .graphUnloadDone graph => Sys2Proof.Machine.execGraphUnloadDone graph s
  | .graphRun link sq => Sys2Proof.Machine.execGraphRun link sq s
  | .frameAdmit graph => Sys2Proof.Machine.execFrameAdmit graph s
  | .stationFire graph frame station copy attn parity => Sys2Proof.Machine.execStationFire graph frame station copy attn parity s
  | .tileArrive graph edge copy header => Sys2Proof.Machine.execTileArrive graph edge copy header s
  | .creditReturn graph edge copy => Sys2Proof.Machine.execCreditReturn graph edge copy s
  | .tokenArrive graph edge copy => Sys2Proof.Machine.execTokenArrive graph edge copy s
  | .versionUpdate graph buffer die => Sys2Proof.Machine.execVersionUpdate graph buffer die s
  | .versionAck graph buffer die => Sys2Proof.Machine.execVersionAck graph buffer die s
  | .versionTimeout graph buffer die => Sys2Proof.Machine.execVersionTimeout graph buffer die s
  | .frameTimeout graph frame => Sys2Proof.Machine.execFrameTimeout graph frame s
  | .frameRelease graph => Sys2Proof.Machine.execFrameRelease graph s
  | .fenceSet unit => Sys2Proof.Machine.execFenceSet unit s
  | .foldDone => Sys2Proof.Machine.execFoldDone s
  | .fenceLift unit => Sys2Proof.Machine.execFenceLift unit s
  | .stallReport link sq => Sys2Proof.Machine.execStallReport link sq s
  | .passTimeout core => Sys2Proof.Machine.execPassTimeout core s
  | .targetedSelftest unit => Sys2Proof.Machine.execTargetedSelftest unit s
  | .selftestDone unit failed => Sys2Proof.Machine.execSelftestDone unit failed s
  | .returnHome link sq => Sys2Proof.Machine.execReturnHome link sq s
  | .returnHomeResume graph => Sys2Proof.Machine.execReturnHomeResume graph s
  | .seqStep link sq => Sys2Proof.Machine.execSeqStep link sq s
  | .poolCreate link sq pool die base frames shelfBytes heads d fmt boundOnly altDie archiveLink archiveRing => Sys2Proof.Machine.execPoolCreate link sq pool die base frames shelfBytes heads d fmt boundOnly altDie archiveLink archiveRing s
  | .poolDestroy link sq pool => Sys2Proof.Machine.execPoolDestroy link sq pool s
  | .open_ link sq seq pool priority layers window => Sys2Proof.Machine.execOpen_ link sq seq pool priority layers window s
  | .fork link sq seq parent pos => Sys2Proof.Machine.execFork link sq seq parent pos s
  | .bind link sq seq graph perFrame => Sys2Proof.Machine.execBind link sq seq graph perFrame s
  | .seal link sq seq => Sys2Proof.Machine.execSeal link sq seq s
  | .close link sq seq => Sys2Proof.Machine.execClose link sq seq s
  | .setPriority link sq seq priority => Sys2Proof.Machine.execSetPriority link sq seq priority s
  | .archive link sq seq => Sys2Proof.Machine.execArchive link sq seq s
  | .query link sq seq => Sys2Proof.Machine.execQuery link sq seq s
  | .cowCopyDone seq layer index => Sys2Proof.Machine.execCowCopyDone seq layer index s
  | .archiveChunkWrite seq => Sys2Proof.Machine.execArchiveChunkWrite seq s
  | .cacheTimeout graph frame => Sys2Proof.Machine.execCacheTimeout graph frame s
  | .archiveIn link sq => Sys2Proof.Machine.execArchiveIn link sq s
  | .hbmRead addr hw => Sys2Proof.Machine.execHbmRead addr hw s
  | .hbmWriteAccept addr data poison => Sys2Proof.Machine.execHbmWriteAccept addr data poison s
  | .memReadTimeout die x y tag => Sys2Proof.Machine.execMemReadTimeout die x y tag s
  | .rowTest stack => Sys2Proof.Machine.execRowTest stack s
  | .rowTestDone stack passed spare => Sys2Proof.Machine.execRowTestDone stack passed spare s
  | .caParityAlert stack pc drawn => Sys2Proof.Machine.execCaParityAlert stack pc drawn s
  | .pcFence stack pc => Sys2Proof.Machine.execPcFence stack pc s
  | .hbmRefresh stack pc => Sys2Proof.Machine.execHbmRefresh stack pc s
  | .refreshRateDown stack => Sys2Proof.Machine.execRefreshRateDown stack s
  | .patrolScrub stack hw overtaken => Sys2Proof.Machine.execPatrolScrub stack hw overtaken s
  | .phyCalibration stack => Sys2Proof.Machine.execPhyCalibration stack s
  | .rcLookup die addr hw => Sys2Proof.Machine.execRcLookup die addr hw s
  | .rcFill die addr => Sys2Proof.Machine.execRcFill die addr s
  | .rcCtrlWrite hub die value => Sys2Proof.Machine.execRcCtrlWrite hub die value s
  | .meshRoute die x y msg parity => Sys2Proof.Machine.execMeshRoute die x y msg parity s
  | .meshTest die passed => Sys2Proof.Machine.execMeshTest die passed s
  | .d2dFlitCrcFail die port sameFlit => Sys2Proof.Machine.execD2dFlitCrcFail die port sameFlit s
  | .d2dLinkDown die port cause => Sys2Proof.Machine.execD2dLinkDown die port cause s
  | .d2dLinkMarginal die port => Sys2Proof.Machine.execD2dLinkMarginal die port s
  | .d2dLinkFence die port => Sys2Proof.Machine.execD2dLinkFence die port s
  | .d2dLoopbackTest die port passed => Sys2Proof.Machine.execD2dLoopbackTest die port passed s
  | .d2dTestNearEnd die port => Sys2Proof.Machine.execD2dTestNearEnd die port s
  | .d2dTestFarEnd die port => Sys2Proof.Machine.execD2dTestFarEnd die port s
  | .d2dTestDone die flitErrors lanesOk => Sys2Proof.Machine.execD2dTestDone die flitErrors lanesOk s
  | .widthWordExchange die port own peer => Sys2Proof.Machine.execWidthWordExchange die port own peer s
  | .sidebandTimeout die port => Sys2Proof.Machine.execSidebandTimeout die port s
  | .sqEnable link sq value => Sys2Proof.Machine.execSqEnable link sq value s
  | .cqEnable link cq value => Sys2Proof.Machine.execCqEnable link cq value s
  | .sqDoorbell link sq value => Sys2Proof.Machine.execSqDoorbell link sq value s
  | .cqDoorbell link cq value => Sys2Proof.Machine.execCqDoorbell link cq value s
  | .sqFetch link sq header payload hw => Sys2Proof.Machine.execSqFetch link sq header payload hw s
  | .sqTailTimeout link sq => Sys2Proof.Machine.execSqTailTimeout link sq s
  | .hifSqRestart link sq value => Sys2Proof.Machine.execHifSqRestart link sq value s
  | .badPacketType link sq => Sys2Proof.Machine.execBadPacketType link sq s
  | .completionWrite link cq window => Sys2Proof.Machine.execCompletionWrite link cq window s
  | .cqIrqTimer link cq => Sys2Proof.Machine.execCqIrqTimer link cq s
  | .cqFullTimeout link cq => Sys2Proof.Machine.execCqFullTimeout link cq s
  | .flr link => Sys2Proof.Machine.execFlr link s
  | .pciePerst link low trained => Sys2Proof.Machine.execPciePerst link low trained s
  | .tensorPutMemory link sq => Sys2Proof.Machine.execTensorPutMemory link sq s
  | .tensorPutSample link sq late => Sys2Proof.Machine.execTensorPutSample link sq late s
  | .tensorGet link sq => Sys2Proof.Machine.execTensorGet link sq s
  | .mapEditionDelta link sq => Sys2Proof.Machine.execMapEditionDelta link sq s
  | .mapEditionRoadmap link sq => Sys2Proof.Machine.execMapEditionRoadmap link sq s
  | .planReq link sq => Sys2Proof.Machine.execPlanReq link sq s
  | .fitRatio link sq => Sys2Proof.Machine.execFitRatio link sq s
  | .powerCap link sq => Sys2Proof.Machine.execPowerCap link sq s
  | .setWait link sq => Sys2Proof.Machine.execSetWait link sq s
  | .refOrder link sq => Sys2Proof.Machine.execRefOrder link sq s
  | .selftestPeriod link sq => Sys2Proof.Machine.execSelftestPeriod link sq s
  | .contradictionLimit link sq => Sys2Proof.Machine.execContradictionLimit link sq s
  | .nop link sq => Sys2Proof.Machine.execNop link sq s
  | .mgmt link sq => Sys2Proof.Machine.execMgmt link sq s
  | .attest link sq sign writeOk => Sys2Proof.Machine.execAttest link sq sign writeOk s
  | .csi2FrameStart hub port vc ecc late => Sys2Proof.Machine.execCsi2FrameStart hub port vc ecc late s
  | .csi2LongPacket hub port vc dataType payload ecc crcOk => Sys2Proof.Machine.execCsi2LongPacket hub port vc dataType payload ecc crcOk s
  | .csi2FrameEnd hub port vc ecc => Sys2Proof.Machine.execCsi2FrameEnd hub port vc ecc s
  | .sensorEthFrame hub port frame late => Sys2Proof.Machine.execSensorEthFrame hub port frame late s
  | .sensorCanFrame hub port id ext fd brs esi payload => Sys2Proof.Machine.execSensorCanFrame hub port id ext fd brs esi payload s
  | .canBusOffRecovery hub port => Sys2Proof.Machine.execCanBusOffRecovery hub port s
  | .decodeStart hub => Sys2Proof.Machine.execDecodeStart hub s
  | .decodeDone hub decoder cycles => Sys2Proof.Machine.execDecodeDone hub decoder cycles s
  | .decodeBudgetExpiry hub decoder => Sys2Proof.Machine.execDecodeBudgetExpiry hub decoder s
  | .pixelPipeline hub stream hw => Sys2Proof.Machine.execPixelPipeline hub stream hw s
  | .reorderRelease hub stream => Sys2Proof.Machine.execReorderRelease hub stream s
  | .streamSilence hub stream => Sys2Proof.Machine.execStreamSilence hub stream s
  | .streamEnable hub stream value => Sys2Proof.Machine.execStreamEnable hub stream value s
  | .streamDisable hub stream value => Sys2Proof.Machine.execStreamDisable hub stream value s
  | .bindingEnable hub binding value => Sys2Proof.Machine.execBindingEnable hub binding value s
  | .sampleBeginReport hub hw => Sys2Proof.Machine.execSampleBeginReport hub hw s
  | .sampleCompleteReport hub hw => Sys2Proof.Machine.execSampleCompleteReport hub hw s
  | .setWaitExpiry group hw => Sys2Proof.Machine.execSetWaitExpiry group hw s
  | .groupEnable hub group value => Sys2Proof.Machine.execGroupEnable hub group value s
  | .packageRegWrite hub offset value => Sys2Proof.Machine.execPackageRegWrite hub offset value s
  | .prismStreamEnable hub unit value => Sys2Proof.Machine.execPrismStreamEnable hub unit value s
  | .mergeRun hub frame => Sys2Proof.Machine.execMergeRun hub frame s
  | .mergeDigestRx frame digest => Sys2Proof.Machine.execMergeDigestRx frame digest s
  | .plannerEnable hub value => Sys2Proof.Machine.execPlannerEnable hub value s
  | .editionToken frame => Sys2Proof.Machine.execEditionToken frame s
  | .editionOrder hub => Sys2Proof.Machine.execEditionOrder hub s
  | .editionStageDone hub => Sys2Proof.Machine.execEditionStageDone hub s
  | .roundStart hub => Sys2Proof.Machine.execRoundStart hub s
  | .checkRoundEnd hub ecc => Sys2Proof.Machine.execCheckRoundEnd hub ecc s
  | .roundCut hub => Sys2Proof.Machine.execRoundCut hub s
  | .recheckEnd hub ecc => Sys2Proof.Machine.execRecheckEnd hub ecc s
  | .wavefrontDone hub ecc => Sys2Proof.Machine.execWavefrontDone hub ecc s
  | .searchEnd hub ecc => Sys2Proof.Machine.execSearchEnd hub ecc s
  | .roundLimit hub expansions => Sys2Proof.Machine.execRoundLimit hub expansions s
  | .outputHandover hub ecc => Sys2Proof.Machine.execOutputHandover hub ecc s
  | .planDigestRx => Sys2Proof.Machine.execPlanDigestRx s
  | .lanternResetRelease lantern config => Sys2Proof.Machine.execLanternResetRelease lantern config s
  | .lockstepMismatch lantern kind => Sys2Proof.Machine.execLockstepMismatch lantern kind s
  | .lanternHbToggle lantern => Sys2Proof.Machine.execLanternHbToggle lantern s
  | .peerHbEdge lantern periodNs => Sys2Proof.Machine.execPeerHbEdge lantern periodNs s
  | .peerHbTimeout lantern => Sys2Proof.Machine.execPeerHbTimeout lantern s
  | .lanternClockWindow lantern ppm => Sys2Proof.Machine.execLanternClockWindow lantern ppm s
  | .mpHeartbeatRx lantern => Sys2Proof.Machine.execMpHeartbeatRx lantern s
  | .mpHeartbeatTimeout lantern => Sys2Proof.Machine.execMpHeartbeatTimeout lantern s
  | .mpTakeoverTimeout lantern => Sys2Proof.Machine.execMpTakeoverTimeout lantern s
  | .lanternFrameStart lantern graph frame ok => Sys2Proof.Machine.execLanternFrameStart lantern graph frame ok s
  | .lanternHandoverRx lantern graph frame ok => Sys2Proof.Machine.execLanternHandoverRx lantern graph frame ok s
  | .deadlineExpiry lantern graph frame => Sys2Proof.Machine.execDeadlineExpiry lantern graph frame s
  | .verdictRx lantern graph frame => Sys2Proof.Machine.execVerdictRx lantern graph frame s
  | .verdictTimeout lantern graph frame => Sys2Proof.Machine.execVerdictTimeout lantern graph frame s
  | .signatureRx lantern => Sys2Proof.Machine.execSignatureRx lantern s
  | .envelopeCompare hub graph frame entry => Sys2Proof.Machine.execEnvelopeCompare hub graph frame entry s
  | .envelopeResultRx lantern => Sys2Proof.Machine.execEnvelopeResultRx lantern s
  | .windowGrant lantern unit us => Sys2Proof.Machine.execWindowGrant lantern unit us s
  | .chunkStart unit => Sys2Proof.Machine.execChunkStart unit s
  | .chunkDone unit passed => Sys2Proof.Machine.execChunkDone unit passed s
  | .chunkAbort unit => Sys2Proof.Machine.execChunkAbort unit s
  | .coveragePeriodEnd lantern => Sys2Proof.Machine.execCoveragePeriodEnd lantern s
  | .faultGapExpiry lantern graph => Sys2Proof.Machine.execFaultGapExpiry lantern graph s
  | .outageExpiry lantern graph => Sys2Proof.Machine.execOutageExpiry lantern graph s
  | .safeStateEntry source => Sys2Proof.Machine.execSafeStateEntry source s
  | .statusEmit lantern => Sys2Proof.Machine.execStatusEmit lantern s
  | .trajHeadEmit lantern => Sys2Proof.Machine.execTrajHeadEmit lantern s
  | .recReq lantern data => Sys2Proof.Machine.execRecReq lantern data s
  | .porstAssert => Sys2Proof.Machine.execPorstAssert s
  | .porstRelease hw => Sys2Proof.Machine.execPorstRelease hw s
  | .warmResetRequest source => Sys2Proof.Machine.execWarmResetRequest source s
  | .warmResetAssert => Sys2Proof.Machine.execWarmResetAssert s
  | .warmRestart hw => Sys2Proof.Machine.execWarmRestart hw s
  | .restartRetryExpiry lantern => Sys2Proof.Machine.execRestartRetryExpiry lantern s
  | .dieReset die => Sys2Proof.Machine.execDieReset die s
  | .dieRejoin die digestOk bistOk => Sys2Proof.Machine.execDieRejoin die digestOk bistOk s
  | .dieRejoinTimeout die => Sys2Proof.Machine.execDieRejoinTimeout die s
  | .lanternRestart lantern config => Sys2Proof.Machine.execLanternRestart lantern config s
  | .lanternRestartTimeout lantern => Sys2Proof.Machine.execLanternRestartTimeout lantern s
  | .downFrameSend lantern => Sys2Proof.Machine.execDownFrameSend lantern s
  | .mirHeartbeatSend hub => Sys2Proof.Machine.execMirHeartbeatSend hub s
  | .mirHeartbeatRx hub frame fcsOk => Sys2Proof.Machine.execMirHeartbeatRx hub frame fcsOk s
  | .mirExchangeRx hub frame fcsOk => Sys2Proof.Machine.execMirExchangeRx hub frame fcsOk s
  | .mirDownRx hub frame fcsOk => Sys2Proof.Machine.execMirDownRx hub frame fcsOk s
  | .twinSilence => Sys2Proof.Machine.execTwinSilence s
  | .roleHearTimeout => Sys2Proof.Machine.execRoleHearTimeout s
  | .pgoodFall rail => Sys2Proof.Machine.execPgoodFall rail s
  | .avsTelemetryPoll rail telemetry => Sys2Proof.Machine.execAvsTelemetryPoll rail telemetry s
  | .avsRequest rail ack retryAck => Sys2Proof.Machine.execAvsRequest rail ack retryAck s
  | .hotspotSample spot a b => Sys2Proof.Machine.execHotspotSample spot a b s
  | .hbmDiodeSample stack value => Sys2Proof.Machine.execHbmDiodeSample stack value s
  | .hbmTempReadout stack value => Sys2Proof.Machine.execHbmTempReadout stack value s
  | .trayRead reading => Sys2Proof.Machine.execTrayRead reading s
  | .flowLowClear => Sys2Proof.Machine.execFlowLowClear s
  | .flowLossExpiry lantern => Sys2Proof.Machine.execFlowLossExpiry lantern s
  | .junctionSlopeFit => Sys2Proof.Machine.execJunctionSlopeFit s
  | .thermalResistanceUpdate => Sys2Proof.Machine.execThermalResistanceUpdate s
  | .forecastRefresh => Sys2Proof.Machine.execForecastRefresh s
  | .dvfsStepDone cluster => Sys2Proof.Machine.execDvfsStepDone cluster s
  | .powerOverLimit => Sys2Proof.Machine.execPowerOverLimit s
  | .thermalTrip spot => Sys2Proof.Machine.execThermalTrip spot s
  | .pwrOffReqRelease => Sys2Proof.Machine.execPwrOffReqRelease s
  | .lifeCounterWrite => Sys2Proof.Machine.execLifeCounterWrite s
  | .thermalCycleSample => Sys2Proof.Machine.execThermalCycleSample s
  | .primaryAbsent => Sys2Proof.Machine.execPrimaryAbsent s
  | .mpHeartbeatSend => Sys2Proof.Machine.execMpHeartbeatSend s
  | .standbyTakeover => Sys2Proof.Machine.execStandbyTakeover s
  | .takeoverRx die => Sys2Proof.Machine.execTakeoverRx die s
  | .takeoverDoneRx lantern => Sys2Proof.Machine.execTakeoverDoneRx lantern s
  | .mgtDemote hub => Sys2Proof.Machine.execMgtDemote hub s
  | .ledgerWrite bad => Sys2Proof.Machine.execLedgerWrite bad s
  | .mgmtPortDatagram hub datagram => Sys2Proof.Machine.execMgmtPortDatagram hub datagram s
  | .mailboxSend hub value => Sys2Proof.Machine.execMailboxSend hub value s
  | .ikisanBadType => Sys2Proof.Machine.execIkisanBadType s
  | .identify => Sys2Proof.Machine.execIdentify s
  | .status => Sys2Proof.Machine.execStatus s
  | .ledgerInfo => Sys2Proof.Machine.execLedgerInfo s
  | .ledgerRead ue => Sys2Proof.Machine.execLedgerRead ue s
  | .stickyRead ue => Sys2Proof.Machine.execStickyRead ue s
  | .eventNames => Sys2Proof.Machine.execEventNames s
  | .attestMessage sign writeOk => Sys2Proof.Machine.execAttestMessage sign writeOk s
  | .calRead ue => Sys2Proof.Machine.execCalRead ue s
  | .debugChallenge => Sys2Proof.Machine.execDebugChallenge s
  | .keySet => Sys2Proof.Machine.execKeySet s
  | .calWrite => Sys2Proof.Machine.execCalWrite s
  | .restoreFactory => Sys2Proof.Machine.execRestoreFactory s
  | .updateBegin => Sys2Proof.Machine.execUpdateBegin s
  | .updateData => Sys2Proof.Machine.execUpdateData s
  | .updateVerify => Sys2Proof.Machine.execUpdateVerify s
  | .updateActivateTdies => Sys2Proof.Machine.execUpdateActivateTdies s
  | .updateActivateLanterns => Sys2Proof.Machine.execUpdateActivateLanterns s
  | .updateActivateHubs => Sys2Proof.Machine.execUpdateActivateHubs s
  | .updateCommit => Sys2Proof.Machine.execUpdateCommit s
  | .reset => Sys2Proof.Machine.execReset s
  | .plannedStop => Sys2Proof.Machine.execPlannedStop s
  | .debugUnlock => Sys2Proof.Machine.execDebugUnlock s
  | .lanRstAssert lantern => Sys2Proof.Machine.execLanRstAssert lantern s
  | .pgoodRise rail => Sys2Proof.Machine.execPgoodRise rail s
  | .dieClockFault die pll => Sys2Proof.Machine.execDieClockFault die pll s
  | .hostLinkLoss link => Sys2Proof.Machine.execHostLinkLoss link s
  | .pciePowerStateChange link d3hot => Sys2Proof.Machine.execPciePowerStateChange link d3hot s
  | .mirPortLinkChange hub up => Sys2Proof.Machine.execMirPortLinkChange hub up s
  | .sensorPortLinkChange hub port up => Sys2Proof.Machine.execSensorPortLinkChange hub port up s
  | .canErrorStateChange hub port passive busOff => Sys2Proof.Machine.execCanErrorStateChange hub port passive busOff s
  | .catRegionEnable hub die value => Sys2Proof.Machine.execCatRegionEnable hub die value s
  | .hifNoticeRingWrite link value => Sys2Proof.Machine.execHifNoticeRingWrite link value s
  | .warmRestartPgoodTimeout lantern => Sys2Proof.Machine.execWarmRestartPgoodTimeout lantern s
  | .lanErrHoldExpiry lantern bit => Sys2Proof.Machine.execLanErrHoldExpiry lantern bit s
  | .ratingsHoldExpiry lantern => Sys2Proof.Machine.execRatingsHoldExpiry lantern s
  | .keeperCopyRefresh => Sys2Proof.Machine.execKeeperCopyRefresh s
  | .lanternCompareTest lantern => Sys2Proof.Machine.execLanternCompareTest lantern s
  | .lanternUpdateSettle => Sys2Proof.Machine.execLanternUpdateSettle s

end Sys2Proof.Machine
end

