-- ==== Sys2Proof/Machine/Views.lean ====
section
/-! DEFINITION. What each register reads as (R10, R11, R109, R153, R195, R213, R236, R275, R276, R309, R344, R345, R381, R417, R438, R463,
R464, R493): a register that shows the state of the logic behind it is computed from that state; every other register reads the value
it holds. Where the manual leaves the picture open, log 57. -/

namespace Sys2Proof.Machine

/-- An integer in 32 bits, two's complement. -/
def int32 (v : Int) : Nat := (v % 4294967296).toNat
/-- An integer in 16 bits. -/
def int16 (v : Int) : Nat := (v % 65536).toNat
/-- A count that saturates at `m`. -/
def satTo (m v : Nat) : Nat := min m v
/-- A set of numbers as bits. -/
def bitMask (l : List Nat) : Nat := l.foldl (fun a i => a ||| 2 ^ i) 0
/-- Bits [31:0] and [63:32]. -/
def lo32 (v : Nat) : Nat := v % 4294967296
def hi32 (v : Nat) : Nat := v / 4294967296 % 4294967296

/-- The value of a select register on the side that reads. -/
def State.sel (s : State) (r : Reg) (inst : Nat) (mgmt : Bool) : Nat := (s.reg (ra r inst (b2n mgmt))).toNat

/-! ### Host link and front end (R275, R276) -/

/-- HIF_SQ_STATUS.state. -/
def SqRun.code : SqRun → Nat
  | .DISABLED => 0 | .IDLE => 1 | .FETCHING => 2 | .HELD => 3 | .ERROR => 4

/-- HIF_CQ_STATUS: full, archive ring of a pool, notice ring. -/
def State.cqStatus (s : State) (h q : Nat) : Nat :=
  let r := s.cq h q
  b2n r.fullSince.isSome +
    2 * b2n (s.cache.pools.any fun e => e.2.exists_ && e.2.archiveLink == h && e.2.archiveRing == q) +
    4 * b2n ((s.reg (ra .HIF_NOTICE_RING h)).getLsbD 31 && s.field (ra .HIF_NOTICE_RING h) 5 0 == q)

/-- The read-only HIF_ registers. -/
def State.viewHif (s : State) (h : Nat) (a : RegAddr) : Option Nat :=
  match a.reg with
  | .HIF_ID => some (0x10000000 + h * 0x1000000 + bits (dieWord (4 + h)) 3 0)
  | .HIF_STATUS => some (s.hifStatus h)
  | .HIF_ERR_SUMMARY => some (s.errSummary h).toNat
  | .HIF_SQ_HEAD => some (s.sq h a.unit).head
  | .HIF_SQ_TAIL => some (s.sq h a.unit).tail
  | .HIF_SQ_STATUS =>
    let q := s.sq h a.unit
    some ((if q.run = .HELD then q.heldType % 256 * 256 else 0) + q.run.code)
  | .HIF_CQ_HEAD => some (s.cq h a.unit).head
  | .HIF_CQ_TAIL => some (s.cq h a.unit).tail
  | .HIF_CQ_STATUS => some (s.cqStatus h a.unit)
  | _ => none

/-- The rings of a link that wait for the admission of a frame. -/
def State.heldRings (s : State) (h : Nat) : List Nat :=
  (List.range 64).filter fun q => (s.sq h q).run == .HELD && ((s.sq h q).heldType == 0x02 || (s.sq h q).heldType == 0x07)

/-- A loaded graph's numbers as bits (R276). -/
def State.graphMask (s : State) (p : Graph → Bool) : Nat := bitMask ((s.graphs.graphs.filter p).map (·.num))

/-- The read-only GFE_ registers. -/
def State.viewGfe (s : State) (h : Nat) (mgmt : Bool) (a : RegAddr) : Option Nat :=
  let g := s.sel .GFE_GRAPH_SEL h mgmt
  match a.reg with
  | .GFE_GRAPHS_LO => some (lo32 (s.graphMask fun _ => true))
  | .GFE_GRAPHS_HI => some (hi32 (s.graphMask fun _ => true))
  | .GFE_HELD => some (lo32 (bitMask (s.heldRings h)))
  | .GFE_HELD_HI => some (hi32 (bitMask (s.heldRings h)))
  | .GFE_GRAPH_CFG => some (match s.graph? g with
    | some gr =>
      let x := gr.bundle.header
      gr.out2 % 256 * 2 ^ 24 + gr.out % 256 * 2 ^ 16 + x.inFlight % 8 * 2 ^ 13 + x.policy % 2 * 2 ^ 12 + x.checking % 4 * 2 ^ 10 +
        x.safety % 2 * 2 ^ 9 + x.trigger % 2 * 2 ^ 8 + 1
    | none => 0)
  | .GFE_GRAPH_NEXT => some (match s.graph? g with
    | some gr => match gr.frames.find? fun f => !f.released with
      | some f => lo32 f.num
      | none => lo32 gr.nextFrame
    | none => 0)
  | .GFE_GRAPH_DELIVERED => some (match s.graph? g with
    | some gr => satTo 0xFFFFFFFF gr.delivered
    | none => 0)
  | _ => none

/-! ### Cores (R109) -/

/-- CORE_STATE.run. -/
def CoreRun.code : CoreRun → Nat
  | .RESET => 0 | .IDLE => 1 | .RUNNING => 2 | .HALTED => 3 | .SELFTEST => 4 | .DVFS => 5

/-- The read-only CORE_ registers. -/
def State.viewCore (s : State) (mgmt : Bool) (a : RegAddr) : Option Nat :=
  let c := a.inst
  let k := s.core c
  let x := tblGet ({} : Slot) k.slots (s.fitSel c mgmt)
  match a.reg with
  | .CORE_ID => some (c / 4 * 2 ^ 16 + c / 8 * 2 ^ 8 + c)
  | .CORE_STATE => some ((if k.run = .RUNNING then k.slot % 16 * 2 ^ 8 else 0) + b2n (s.coreFenced c) * 2 ^ 4 + k.run.code)
  | .CORE_SEQ_PC => some k.pc
  | .CORE_SLOTS => some (bitMask ((k.slots.filter (·.2.valid)).map (·.1)))
  | .CORE_CLK => some (s.coreMHz c)
  | .CORE_SELFTEST => some (satTo 0xFFFF k.tests * 2 ^ 16 + k.failedUnit % 256 * 2 ^ 8 + k.testResult % 4)
  | .CORE_FIT_CFG => some (x.widenGroup % 4096 * 2 ^ 20 + x.fitMode % 4 * 2 ^ 18 + b2n x.valid * 2 ^ 17 + x.station % 65536)
  | .CORE_FIT_RATIO => some x.ratio
  | .CORE_FIT_SAT => some x.last.sat
  | .CORE_FIT_OOR => some x.last.oor
  | .CORE_FIT_WRAP => some x.last.wrap
  | .CORE_FIT_NAN => some x.last.nan
  | .CORE_FIT_WIDEN => some x.widenTotal
  | .CORE_FIT_SKIPPED => some x.skippedTotal
  | .CORE_FIT_DRIFT => some (satTo 63 x.drift)
  | _ => none

/-! ### Dependence engines and catalogues (R153, R195) -/

/-- TDE_GRAPH_STATUS.state. -/
def GraphRun.code : GraphRun → Nat
  | .notLoaded => 0 | .loading => 1 | .running => 2 | .unloading => 3 | .paused => 4

/-- Any station off its home core. -/
def Graph.folded (gr : Graph) : Bool := gr.placed.any fun x => x.1.core != x.2.core

/-- The cards of a graph on a die. -/
def Graph.cardsOn (gr : Graph) (d : Nat) : Nat := (gr.placed.filter fun x => x.2.placed && x.2.core / 8 == d).length

/-- TDE_STATE.run: LOADING while a graph loads, RUNNING while one runs, IDLE without one; RESET while the die's cores are in reset. -/
def State.tdeRun (s : State) (d : Nat) : Nat :=
  if (s.core (8 * d)).run = .RESET then 0
  else if s.graphs.graphs.any fun gr => gr.state == .loading then 3
  else if s.graphs.graphs.any fun gr => gr.cardsOn d != 0 then 2
  else 1

/-- The read-only TDE_ registers. -/
def State.viewTde (s : State) (mgmt : Bool) (a : RegAddr) : Option Nat :=
  let d := a.inst
  let of (f : Graph → Nat) : Option Nat := some (((s.graph? (s.sel .TDE_GRAPH_SEL d mgmt)).map f).getD 0)
  match a.reg with
  | .TDE_ID => some (bits (dieWord d) 15 8 * 256 + d)
  | .TDE_STATE => some (b2n s.graphs.folding * 2 ^ 7 + b2n (s.dieFenced d) * 2 ^ 6 + s.tdeRun d)
  | .TDE_GRAPHS_LO => some (lo32 (s.graphMask fun gr => gr.cardsOn d != 0))
  | .TDE_GRAPHS_HI => some (hi32 (s.graphMask fun gr => gr.cardsOn d != 0))
  | .TDE_CARDS => some ((s.graphs.graphs.map fun gr => gr.cardsOn d).foldl (· + ·) 0)
  | .TDE_GRAPH_STATUS => of fun gr =>
    b2n gr.unplaceable * 2 ^ 11 + b2n gr.stateReset * 2 ^ 10 + b2n gr.folded * 2 ^ 9 + satTo 4 gr.frames.length * 2 ^ 6 + gr.state.code
  | .TDE_GRAPH_OPENED => of fun gr => lo32 (gr.nextFrame - 1)
  | .TDE_GRAPH_DONE => of fun gr => lo32 gr.lastDone
  | .TDE_GRAPH_WITHHELD => of fun gr => satTo 0xFFFFFFFF gr.withheld
  | .TDE_GRAPH_PLACEMENT => of fun gr => lo32 gr.placement
  | _ => none

/-- The codes of a record's state field (R163). -/
def SeqSt.view : SeqSt → Nat
  | .CLOSED => 0 | .LIVE => 1 | .IN_STEP => 2 | .ARCHIVING => 3 | .ARCHIVED => 4 | .RESTORING => 5 | .LOST => 6

/-- The size code of a shelf (R155): 64 KiB is 0. -/
def shelfSize (bytes : Nat) : Nat := ((List.range 6).find? fun k => 65536 * 2 ^ k == bytes).getD 0

/-- CAT_POOL_CFG of a pool on a die. -/
def State.poolCfg (s : State) (d n : Nat) : Nat :=
  let p := s.cache.pool n
  if p.exists_ ∧ p.die = d then
    2 ^ 31 + b2n p.boundOnly * 2 ^ 30 + (p.fmt - 5) % 4 * 2 ^ 28 + shelfSize p.shelfBytes * 2 ^ 25 + (p.heads - 1) % 64 * 2 ^ 16 +
      (p.d / 32 - 1) % 8 * 2 ^ 8 + p.archiveLink % 2 * 2 ^ 7 + p.archiveRing % 64
  else 0

/-- The sequences with records on a die that are not CLOSED. -/
def State.liveSeqs (s : State) (d : Nat) : Nat :=
  (s.cache.seqs.filter fun e => e.2.st != .CLOSED && (s.cache.pool e.2.pool).die == d).length

/-- The read-only CAT_ registers. -/
def State.viewCat (s : State) (mgmt : Bool) (a : RegAddr) : Option Nat :=
  let d := a.inst
  let k := s.cache.cat d
  let n := s.sel .CAT_POOL_SEL d mgmt
  let p := s.cache.pool n
  let here := p.exists_ && p.die == d
  let q := s.sel .CAT_SEQ_SEL d mgmt
  let r := s.cache.seq q
  let mine := (s.cache.pool r.pool).die == d
  match a.reg with
  | .CAT_ID => some d
  | .CAT_STATE => some (bitMask ((s.cache.pools.filter fun e => e.2.exists_ && e.2.die == d).map (·.1)) * 2 ^ 16 + k.run % 4)
  | .CAT_ENTRIES_USED => some (k.shelves.filter fun e => e.2.st != .UNUSED).length
  | .CAT_ENTRIES_PEAK => some k.peak
  | .CAT_RUNS_FREE => some (catRuns - k.usedRuns.length)
  | .CAT_SEQ_LIVE => some (s.liveSeqs d)
  | .CAT_ALLOC_FULL => some (lo32 k.allocFull)
  | .CAT_ALLOC_SHORT => some (lo32 k.allocShort)
  | .CAT_COW => some (lo32 k.cow)
  | .CAT_PREEMPT => some (satTo 0xFFFFFFFF k.preempt)
  | .CAT_ARCHIVE_OUT => some (lo32 k.archiveOut)
  | .CAT_ARCHIVE_IN => some (lo32 k.archiveIn)
  | .CAT_EXHAUSTED => some (satTo 0xFFFFFFFF k.exhausted)
  | .CAT_STALL_US => some (satTo 0xFFFFFFFF k.stallUs)
  | .CAT_POOL_CFG => some (s.poolCfg d n)
  | .CAT_POOL_FREE => some (if here then p.freeCount else 0)
  | .CAT_POOL_FRAMES => some (if here then p.frames else 0)
  | .CAT_POOL_SPLIT => some (if here then (p.use.filter fun e => match e.2 with
      | .split _ => true
      | _ => false).length else 0)
  | .CAT_POOL_WAITERS => some (if here then (s.cache.stalls.filter fun t => (s.cache.seq t.seq).pool == n).length else 0)
  | .CAT_SEQ_STATE => some (if mine then
      r.graph % 256 * 2 ^ 24 + b2n r.bound * 2 ^ 23 + b2n r.sealed_ * 2 ^ 22 + r.priority % 8 * 2 ^ 16 + (r.layers - 1) % 128 * 2 ^ 8 +
        r.pool % 16 * 2 ^ 4 + r.st.view
    else 0)
  | .CAT_SEQ_LENGTH => some (if mine then lo32 r.length else 0)
  | .CAT_SEQ_SHELVES => some (if mine then ((List.range r.layers).map fun l => (s.cache.list q l).entries.length).foldl (· + ·) 0 else 0)
  | _ => none

/-! ### HBM and remote caches (R213) -/

/-- The interleave sets that read as available: none while the die is fenced (R145). -/
def State.setsAvail (s : State) (n : Nat) : Nat := if s.dieFenced n then 0 else (s.mc n).setAvail

/-- The read-only MC_ registers. -/
def State.viewMc (s : State) (mgmt : Bool) (a : RegAddr) : Option Nat :=
  let n := a.inst
  let m := s.mc n
  let pc := tblGet ({} : PcState) m.pcs (s.sel .MC_PC_SEL n mgmt)
  match a.reg with
  | .MC_ID => some (m.height % 16 * 2 ^ 12 + b2n m.present * 2 ^ 8 + n)
  | .MC_STATE => some (m.refresh % 4 * 2 ^ 4 + b2n m.scrubbing * 2 ^ 3 + m.run % 8)
  | .MC_SET_AVAIL => some (s.setsAvail n)
  | .MC_CAPACITY => some (2048 * ((List.range 8).filter (bitN (s.setsAvail n))).length)
  | .MC_TEMP => some ((m.temp % 256).toNat)
  | .MC_TRAIN_STATUS => some (m.laneRepairs % 256 * 2 ^ 16 + m.trained % 65536)
  | .MC_ROW_GLINTS => some (satTo 0xFFFFFFFF m.glintCount)
  | .MC_ROW_REPAIRS => some m.repairs.length
  | .MC_RETIRED_COUNT => some m.retired.length
  | .MC_RETIRED_ADDR => some (match m.retired[s.sel .MC_RETIRED_SEL n mgmt]? with
    | some b => 2 ^ 31 + b % 2 ^ 22
    | none => 0)
  | .MC_SCRUB_POS => some (m.scrubPos / 65536 % 2 ^ 18)
  | .MC_SCRUB_PASSES => some (lo32 m.scrubPasses)
  | .MC_PC_STATUS => some (pc.st % 4 * 2 ^ 8 + pc.replays % 8)
  | .MC_PC_CE => some (satTo 0xFFFFFFFF pc.ce)
  | .MC_PC_UE => some (satTo 0xFFFFFFFF pc.ue)
  | _ => none

/-- The read-only RC_ registers. -/
def State.viewRc (s : State) (a : RegAddr) : Option Nat :=
  let r := tblGet ({} : RcState) s.hbm.rcs a.inst
  match a.reg with
  | .RC_ID => some a.inst
  | .RC_STATE => some (b2n (r.waysOff == 0xFFFF || !(s.reg (ra .RC_CTRL a.inst)).getLsbD 0) * 2 ^ 16 + r.ranges.length)
  | .RC_WAYS_OFF => some r.waysOff
  | _ => none

/-! ### Die-to-die ports (R236) -/

/-- D2D_PORT_STATUS of a port; a port that is not bonded reads ABSENT. -/
def State.portStatus (s : State) (d p : Nat) : Nat :=
  if (portPeer d p).isNone then 0
  else
    let x := s.port d p
    let ms := List.range (modulesOf d p)
    bitMask (ms.filter fun m => x.moduleWidth m != 0) * 2 ^ 8 +
      bitMask (ms.filter fun m => x.moduleWidth m == 1 || x.moduleWidth m == 2) * 2 ^ 4 +
      (if x.fenced then 5 else x.st % 8)

/-- The read-only D2D_ registers; D2D_TEST reads 0 in the host view. -/
def State.viewD2d (s : State) (mgmt : Bool) (a : RegAddr) : Option Nat :=
  let d := a.inst
  let p := s.sel .D2D_PORT_SEL d mgmt
  let x := s.port d p
  match a.reg with
  | .D2D_ID => some (dieWord d).toNat
  | .D2D_FEATURE => some (s.net.feature % 16)
  | .D2D_ROUTE => some (tblGet 0 s.net.routes d % 2 ^ 18)
  | .D2D_ROLE => some (((List.range 4).map fun p => (s.port d p).role % 16 * 2 ^ (4 * p)).foldl (· + ·) 0)
  | .D2D_TEST => some (if mgmt then (match s.net.portTests.find? fun t => t.1 == d with
      | some t => t.2.1 % 4 * 2 ^ 4 + t.2.2.1 % 4
      | none => 0) else 0)
  | .D2D_PORT_STATUS => some (s.portStatus d p)
  | .D2D_PORT_WIDTH => some x.width.toNat
  | .D2D_PORT_PEER_WIDTH => some x.peerWidth.toNat
  | .D2D_PORT_PEER_ID => some x.peerId.toNat
  | .D2D_PORT_RETRAINS => some (satTo 0xFFFFFFFF x.retrains)
  | .D2D_PORT_CRC_ERR => some (satTo 0xFFFFFFFF x.crcErr)
  | .D2D_PORT_REPLAYS => some (satTo 0xFFFFFFFF x.replays)
  | .D2D_PORT_TX_FLITS => some (lo32 x.txFlits)
  | .D2D_PORT_RX_FLITS => some (lo32 x.rxFlits)
  | .D2D_PORT_GLINTS => some (satTo 3 x.glints)
  | _ => none

/-! ### Intake (R309) -/

/-- SIN_S_STATUS of a stream. -/
def State.streamStatus (s : State) (h u : Nat) : Nat :=
  let t := s.stream h u
  let held := ((s.samplesOf h u).filter (·.entry)).length
  t.lastKind % 16 * 2 ^ 28 + satTo 16 held * 2 ^ 16 + satTo 4095 t.gaps * 2 ^ 4 +
    (if ¬ s.streamOn h u then 0 else if t.silent then 3 else if (s.openSample h u).isSome then 2 else 1)

/-- The arithmetic mean of the decode times of a stream's last samples, in µs (R295). -/
def State.meanUs (s : State) (h u : Nat) : Nat :=
  let t := (s.stream h u).times
  if t = [] then 0 else t.foldl (· + ·) 0 / (800 * t.length) % 2 ^ 24

/-- The read-only SIN_ registers. -/
def State.viewSin (s : State) (h : Nat) (a : RegAddr) : Option Nat :=
  let x := s.intake h
  match a.reg with
  | .SIN_ID => some (h * 2 ^ 24)
  | .SIN_STATE => some (bitMask ((x.ports.filter (·.2.up)).map (·.1)) * 2 ^ 8 + b2n (s.intakeRuns h))
  | .SIN_ARRIVAL_LO => some (if s.intakeRuns h then lo32 (s.arrival h) else 0)
  | .SIN_ARRIVAL_HI => some (if s.intakeRuns h then hi32 (s.arrival h) else 0)
  | .SIN_DEC_BUSY => some (bitMask (x.samples.filterMap (·.decoder)))
  | .SIN_ROB_USED => some (x.samples.filter (·.entry)).length
  | .SIN_BUF_USED => some ((x.samples.map fun y => (y.held + 65535) / 65536).foldl (· + ·) 0)
  | .SIN_P_STATUS =>
    let p := tblGet ({} : PortSt) x.ports a.unit
    some (b2n p.passive * 4 + b2n p.busOff * 2 + b2n p.up)
  | .SIN_S_MEAN => some (s.meanUs h a.unit)
  | .SIN_S_INDEX_LO => some (lo32 (s.stream h a.unit).next)
  | .SIN_S_INDEX_HI => some (hi32 (s.stream h a.unit).next)
  | .SIN_S_STATUS => some (s.streamStatus h a.unit)
  | _ => none

/-! ### Alignment, prism and planner (R344, R345, R381) -/

/-- ALN_S_STATE.state. -/
def AlignSt.code : AlignSt → Nat
  | .OFF => 0 | .ACQUIRING => 1 | .ADMITTED => 2 | .ADRIFT => 3 | .REFERENCE => 4

/-- ALN_G_STATUS in a hub's block. -/
def State.groupStatus (s : State) (h g : Nat) : Nat :=
  let x := s.group g
  let on := s.groupOn g
  (if on then x.ref % 32 else 0x1F) * 2 ^ 24 + satTo 8 (s.pendingSets g).length * 2 ^ 16 + b2n x.noRef * 4 +
    (if ¬ on then 0 else if h = s.mgt.active then 1 else 2)

/-- ALN_S_RATE: the rate of a fit of 8 or more pairs less 1, in parts per 10^9; 0 for a shorter fit, which maps with rate 1. -/
def State.fitPpb (s : State) (ps : Nat) : Int :=
  let ps := s.fitInUse ps
  if ps.length < 8 then 0
  else sat32 ((r64 (((fitRate ps).rate.add (.fin true 1 0)).mul (.fin false 1000000000 0))).toIntRNE)

/-- The read-only ALN_ registers. -/
def State.viewAln (s : State) (h : Nat) (mgmt : Bool) (a : RegAddr) : Option Nat :=
  let ps := 12 * h + a.unit
  let x := s.aln? ps
  match a.reg with
  | .ALN_ID => some (h * 2 ^ 24)
  | .ALN_STATE => some (bitMask ((List.range 8).filter s.groupOn) * 2 ^ 8 + b2n (h == s.mgt.active))
  | .ALN_C_VALUE =>
    let v := s.sel .ALN_C_SEL h mgmt
    some (lo32 (tblGet ({} : ContraSt) (tblGet ({} : MergeSt) s.aln.merges h).counters (counterKey (bitsN v 12 8) (bitsN v 5 0))).value)
  | .ALN_G_STATUS => some (s.groupStatus h a.unit)
  | .ALN_G_PERIOD_FIT => some (if s.groupOn a.unit then lo32 ((s.period a.unit).1.toNat / (s.period a.unit).2 / 1000) else 0)
  | .ALN_S_STATE => some (x.cause % 16 * 2 ^ 28 + satTo 16 x.run * 2 ^ 16 + satTo 64 (s.fitInUse ps).length * 2 ^ 8 + x.st.code)
  | .ALN_S_RATE => some (int32 (s.fitPpb ps))
  | .ALN_S_DEPART => some (int32 (sat32 (usOf x.depart)))
  | _ => none

/-- The read-only PRM_ registers: a projection is one step of the model, so that `busy` reads 0 between commands. -/
def State.viewPrm (s : State) (h : Nat) (a : RegAddr) : Option Nat :=
  match a.reg with
  | .PRM_ID => some (h * 2 ^ 24)
  | .PRM_STATE =>
    let pts := ((s.aln.store.filter (·.hub == h)).map (·.points.length)).foldl (· + ·) 0
    some (satTo 255 (pts * 256 / 524288) * 2 ^ 8)
  | _ => none

/-- PLN_STATE.run and phase. -/
def PlanRun.code : PlanRun → Nat
  | .RESET => 0 | .NO_MAP => 1 | .READY => 2 | .MAP_LOST => 3
def PlannerState.phase (p : PlannerState) : Nat :=
  match p.round with
  | none => if p.staging = [] then 0 else 1
  | some r => match r.phase with
    | .check => 3
    | .recheck => 4
    | .wavefront => 5
    | .search => 6
    | .output => 7

/-- The read-only PLN_ registers. -/
def State.viewPln (s : State) (h : Nat) (a : RegAddr) : Option Nat :=
  let p := tblGet ({} : PlannerState) s.pln.pl h
  match a.reg with
  | .PLN_ID => some (h * 2 ^ 24)
  | .PLN_STATE => some (p.phase * 2 ^ 20 + b2n (s.planLeader == h) * 2 ^ 8 + p.run.code)
  | .PLN_MAP_ID => some (lo32 p.map.id)
  | .PLN_MAP_NODES => some (p.map.nodes % 2 ^ 17)
  | .PLN_MAP_EDGES => some (p.map.edges % 2 ^ 19)
  | .PLN_EDITION => some (lo32 p.newest)
  | .PLN_EDITION_ROUND => some (lo32 p.lastRound)
  | .PLN_WINDOW_EDGES => some (p.windowEdges % 2 ^ 14)
  | .PLN_REQ_QUEUE => some (satTo 15 p.requests.length)
  | _ => none

/-! ### Lanterns (R417) -/

/-- LAN_STATE.run. -/
def LanRun.code : LanRun → Nat
  | .RESET => 0 | .BOOT => 1 | .RUNNING => 2 | .SAFE => 3 | .FAILED => 4 | .UPDATING => 5

/-- LAN_STATE. -/
def Lantern.state (x : Lantern) : Nat := x.peerCode * 2 ^ 10 + b2n x.active * 2 ^ 9 + b2n x.fault * 2 ^ 8 + x.run.code

/-- LAN_ID [15:8]: slot [7] and version [6:0] of the LNF image; the manual gives the two no bits (log 57). -/
def State.lanImage (s : State) (l : Nat) : Nat := (s.lantern l).slot % 2 * 128 + (s.meas 2).version % 128

/-- The LAN_ registers of a lantern that is neither in RESET nor FAILED. -/
def State.viewLantern (s : State) (l : Nat) (r : Reg) : Nat :=
  let x := s.lantern l
  match r with
  | .LAN_ID => l * 2 ^ 24 + s.lanImage l * 2 ^ 8 + l
  | .LAN_CAUSE => x.causeGraph % 65536 * 2 ^ 16 + x.cause % 256
  | .LAN_PROMISE => s.promise l
  | .LAN_CLOCK => int32 x.clockDev
  | .LAN_SUPPLY => bitMask ((List.range 13).filter s.railGood)
  | .LAN_ERR_STATUS => x.errStatus
  | .LAN_ERR_ENABLE => lanErrMask
  | .LAN_ERR_FIRST => x.errFirst
  | .LAN_VERDICTS => lo32 x.verdicts
  | .LAN_LATE => satTo 0xFFFFFFFF x.late
  | .LAN_MISMATCH => satTo 0xFFFFFFFF x.mismatch
  | .LAN_LAST_LAT => lo32 x.lastLat
  | .LAN_SHADOW_DISAGREE => satTo 0xFFFFFFFF x.shadowDisagree
  | .LAN_COVERAGE => x.periods % 65536 * 65536 + x.coveredUnits % 65536
  | .LAN_CHUNKS => lo32 x.chunks
  | .LAN_ABORTS => satTo 0xFFFFFFFF x.aborts
  | .LAN_PERIOD => x.periodMs
  | .LAN_LIMITS => x.config.outageMs % 65536 * 65536 + x.config.gapMs % 65536
  | .LAN_FB_FRAME => if x.stored = [] then 0 else lo32 x.storedFrame
  | .LAN_FB_AGE => if x.stored = [] then 0 else satTo 0xFFFFFFFF ((s.now - x.storedAt) / 1000)
  | .LAN_RECORD_NEXT => lo32 x.recordNext
  | .LAN_BIST => x.bist
  | _ => 0

/-- The LAN_ registers: a lantern in FAILED or RESET reads 0 in every register but LAN_STATE. -/
def State.viewLan (s : State) (h : Nat) (a : RegAddr) : Option Nat :=
  let x := s.lantern h
  if a.reg = .LAN_STATE then some x.state
  else if x.run = .RESET ∨ x.run = .FAILED then some 0
  else some (s.viewLantern h a.reg)

/-! ### Mirror, thermal and supplies (R438, R463, R464) -/

/-- MIR_STATE.twin. -/
def TwinSt.code : TwinSt → Nat
  | .UNKNOWN => 0 | .ALIVE => 1 | .DEGRADED => 2 | .LOST => 3 | .HUNG => 4

/-- The read-only MIR_ registers. -/
def State.viewMir (s : State) (h : Nat) (a : RegAddr) : Option Nat :=
  match a.reg with
  | .MIR_ID => some (h * 2 ^ 24)
  | .MIR_STATE => some (s.mirror.twin.code * 2 ^ 24 + satTo 255 s.mirror.misses * 2 ^ 16 + b2n s.mirror.lead * 4 +
      b2n (s.mirSends (1 - h)) * 2 + b2n (s.mirPort h).up)
  | .MIR_HB_AGE => some (match (s.mirPort 0).hbAt, (s.mirPort 1).hbAt with
    | none, none => 0
    | some t, none | none, some t => satTo 0xFFFFFFFF (s.now - t)
    | some t, some u => satTo 0xFFFFFFFF (s.now - max t u))
  | _ => none

/-- A reading with its valid bit. -/
def readingOf (ok : Bool) (v : Nat) : Nat := if ok then 2 ^ 31 + v % 65536 else v % 65536

/-- The hottest forecast of a range of spots at the current level, in 0.125 °C, with its spot. -/
def State.hotForecast (s : State) (lo hi : Nat) : Int × Nat :=
  let l := (s.thermal.spots.filter fun e => lo ≤ e.1 && e.1 < hi && e.2.forecast != []).map fun e =>
    (Int.tdiv (nth 0 e.2.forecast s.thermal.shade) 125000, e.1)
  match l with
  | [] => (0, lo)
  | x :: r => r.foldl (fun a e => if a.1 < e.1 then e else a) x

/-- The fraction of life that limits it (R460). -/
def State.lifeLimit (s : State) : Nat := (findIdx? (fun v => v == s.life) s.lifeFractions).getD 0

/-- The junction slope in mK/s that R453 judges: the mean of the slopes kept. -/
def State.slope (s : State) : Int :=
  match s.thermal.slopes with
  | [] => 0
  | x :: _ => x

/-- The read-only THM_ registers. -/
def State.viewThm (s : State) (h : Nat) (mgmt : Bool) (a : RegAddr) : Option Nat :=
  let t := s.thermal
  let x := tblGet ({} : SpotState) t.spots (s.sel .THM_HS_SEL 0 mgmt)
  match a.reg with
  | .THM_ID => some (h * 2 ^ 24)
  | .THM_STATE => some (b2n (s.lantern s.mgt.active).withinRatings * 2 ^ 31 + t.cause % 16 * 2 ^ 24 + b2n t.trayOk * 2 ^ 15 +
      t.flowSt % 4 * 2 ^ 10 + t.shade % 4)
  | .THM_LIMIT => some (s.pInlet / 10 % 512 * 2 ^ 16 + s.pLim / 10 % 512)
  | .THM_FORECAST => some ((s.hotForecast 0 22).2 * 2 ^ 16 + int16 (s.hotForecast 0 22).1)
  | .THM_HBM_FORECAST => some (((s.hotForecast 22 26).2 - 22) * 2 ^ 16 + int16 (s.hotForecast 22 26).1)
  | .THM_R_EST => some (t.rEst % 65536)
  | .THM_SLOPE => some (int32 s.slope)
  | .THM_INLET => some (readingOf t.trayOk (int16 (Int.tdiv (t.inlet * 8) 100)))
  | .THM_OUTLET => some (readingOf t.trayOk (int16 (Int.tdiv (t.outlet * 8) 100)))
  | .THM_FLOW => some (readingOf t.trayOk t.flow)
  | .THM_HS_TEMP => some (x.status % 4 * 2 ^ 16 + int16 x.value)
  | .THM_HS_RAW => some (int16 x.b * 65536 + int16 x.a)
  | .THM_HS_PEAK => some (int16 x.peak)
  | .THM_LIFE => some (s.lifeLimit * 2 ^ 16 + satTo 65535 s.life)
  | .THM_HOURS => some (s.poweredUs / 3600000000)
  | .THM_PCYCLES => some (lo32 t.powerCycles)
  | .THM_CYC_COUNT =>
    let v := s.sel .THM_CYC_SEL 0 mgmt
    some (satTo 0xFFFFFFFF (nth 0 (s.halves (bitsN v 2 0)) (bitsN v 5 4) / 2))
  | _ => none

/-- The read-only PWR_ registers; the AVS rail address is the rail's index (log 57). -/
def State.viewPwr (s : State) (h : Nat) (mgmt : Bool) (a : RegAddr) : Option Nat :=
  let r := s.sel .PWR_RAIL_SEL 0 mgmt
  let x := s.rail r
  match a.reg with
  | .PWR_ID => some (h * 2 ^ 24 + b2n (h == s.mgt.active) * 2 ^ 8)
  | .PWR_STATE => some (bitMask ((s.thermal.rails.filter (·.2.held)).map (·.1)))
  | .PWR_PGOOD => some (bitMask ((List.range 13).filter s.railGood))
  | .PWR_CAP => some (s.thermal.cap % 512)
  | .PWR_PKG => some (satTo 65535 s.thermal.pkg100 * 65536 + satTo 65535 s.thermal.pkg10)
  | .PWR_ENERGY => some (lo32 (s.thermal.energyMilli / 1000))
  | .PWR_RAIL_V => some (if r < 6 then x.measured % 65536 * 65536 + x.requested % 65536 else 0)
  | .PWR_RAIL_I => some (x.peak % 65536 * 65536 + x.current % 65536)
  | .PWR_RAIL_P => some (b2n (r < 6) * 2 ^ 31 + s.railPower r % 65536)
  | .PWR_RAIL_AVS => some (satTo 255 x.nacks * 256 + r % 32)
  | _ => none

/-! ### Management and trust (R493) -/

/-- MGT_STATE.role. -/
def MgtRole.code : MgtRole → Nat
  | .BOOT => 0 | .ACTIVE => 1 | .STANDBY => 2

/-- MGT_SLOTS: four bits for each kind. -/
def State.slotsView (s : State) : Nat :=
  (([1, 2, 3, 4, 5, 6].map fun k =>
    let r := s.slotRec k
    (b2n r.activeB + 2 * b2n r.pending + r.attempts % 4 * 4) * 2 ^ (4 * k - 4)).foldl (· + ·) 0)

/-- The read-only MGT_ registers. -/
def State.viewMgt (s : State) (h : Nat) (a : RegAddr) : Option Nat :=
  let m := s.hubMgt h
  match a.reg with
  | .MGT_ID => some (h * 2 ^ 24)
  | .MGT_STATE => some (m.flash.health % 16 * 2 ^ 4 + b2n m.demoted * 2 ^ 3 + m.role.code)
  | .MGT_BOOT_COUNT => some (lo32 s.mgt.bootCount)
  | .MGT_TIME_LO => some (lo32 s.mgtTime)
  | .MGT_TIME_HI => some (hi32 s.mgtTime % 65536)
  | .MGT_LEDGER_NEXT_LO => some (lo32 s.mgt.nextSeq)
  | .MGT_LEDGER_NEXT_HI => some (hi32 s.mgt.nextSeq)
  | .MGT_LEDGER_OLDEST_LO => some (lo32 m.flash.oldest)
  | .MGT_LEDGER_OLDEST_HI => some (hi32 m.flash.oldest)
  | .MGT_UPDATE => some s.mgtUpdate
  | .MGT_SLOTS => some s.slotsView
  | .MGT_TAKEOVERS => some (satTo 0xFFFFFFFF s.mgt.takeovers)
  | _ => none

/-- SEC_KEY_SLOTS: slots programmed and revoked, and the slot of the active MPF. -/
def State.keySlots (s : State) : Nat :=
  leAt (s.slotRead s.mgt.active 1 (s.slotRec 1).running 0 4096) 5 1 % 4 * 2 ^ 8 + bitMask (s.mgt.otp.revoked.filter (· < 4)) * 2 ^ 4 +
    bitMask ((List.range 4).filter fun k => Config.vendorKey k != [])

/-- The read-only SEC_ registers. -/
def State.viewSec (s : State) (h : Nat) (mgmt : Bool) (a : RegAddr) : Option Nat :=
  let m := s.hubMgt h
  let k := s.sel .SEC_ROLLBACK_SEL h mgmt
  match a.reg with
  | .SEC_ID => some (s.mgt.otp.ordering % 16)
  | .SEC_STATE => some (s.mgt.scopes % 8 * 2 ^ 5 + b2n s.mgt.otp.debugged * 2 ^ 4 + s.mgt.secBoot % 4)
  | .SEC_KEY_SLOTS => some s.keySlots
  | .SEC_ROLLBACK => some ((s.meas k).rollback % 256 * 256 + tblGet 0 s.mgt.otp.floors k % 256)
  | .SEC_XMSS_NEXT_LO => some (lo32 m.xmssNext)
  | .SEC_XMSS_NEXT_HI => some (hi32 m.xmssNext % 256)
  | .SEC_XMSS_RESERVED_LO => some (lo32 m.xmssEnd)
  | .SEC_XMSS_RESERVED_HI => some (hi32 m.xmssEnd % 256)
  | .SEC_ATTESTS => some (satTo 0xFFFFFFFF m.attests)
  | .SEC_DEVICE_ID_LO => some (lo32 deviceId)
  | .SEC_DEVICE_ID_HI => some (hi32 deviceId)
  | .SEC_MEAS_VERSION => some (lo32 (s.meas (s.sel .SEC_MEAS_SEL h mgmt)).version)
  | .SEC_MEAS_DIGEST => some (leAt (s.meas (s.sel .SEC_MEAS_SEL h mgmt)).digest (4 * a.word) 4)
  | _ => none

/-! ### Reading a register -/

/-- What a block shows of its state; none for a register that holds its own value. -/
def State.view (s : State) (h : Nat) (mgmt : Bool) (a : RegAddr) : Option Nat :=
  match regBlock a.reg with
  | .HIF => s.viewHif h a
  | .GFE => s.viewGfe h mgmt a
  | .CORE => s.viewCore mgmt a
  | .TDE => s.viewTde mgmt a
  | .CAT => s.viewCat mgmt a
  | .MC => s.viewMc mgmt a
  | .RC => s.viewRc a
  | .D2D => s.viewD2d mgmt a
  | .SIN => s.viewSin h a
  | .ALN => s.viewAln h mgmt a
  | .PRM => s.viewPrm h a
  | .PLN => s.viewPln h a
  | .LAN => s.viewLan h a
  | .MIR => s.viewMir h a
  | .THM => s.viewThm h mgmt a
  | .PWR => s.viewPwr h mgmt a
  | .MGT => s.viewMgt h a
  | .SEC => s.viewSec h mgmt a

/-- What a register in the blocks of hub `h` reads as: a write-only register reads 0. -/
def State.readReg (s : State) (h : Nat) (mgmt : Bool) (a : RegAddr) : Word :=
  match (regRow a.reg).access, s.view h mgmt a with
  | .WO, _ => 0
  | _, some v => word v
  | _, none => s.reg (sideOf a mgmt)

/-- What a read at a BAR0 offset of hub `h` returns (R9, R10, R241, R242): 0 at a reserved or unaligned offset, and through the view of a
hub die that is lost. -/
def State.readBar0 (s : State) (mgmt : Bool) (h o : Nat) : Word :=
  if o % 4 ≠ 0 then 0
  else match decodeBar0 h o with
    | .reg a => s.readReg h mgmt a
    | .otherView (some a) => if (s.link (1 - h)).lost then 0 else s.readReg (1 - h) mgmt a
    | .otherView none => 0
    | .reserved => 0

end Sys2Proof.Machine
end

