-- ==== Sys2Proof/Safety.lean ====
section
/-! DEFINITION. What claims say of a run: which parts of the state a command leaves alone, what is fused for good, and when a
command may stop. -/

namespace Sys2Proof.Machine

/-- The queue and the clock of the model are as before. -/
def State.sameQueue (s t : State) : Prop := t.pending = s.pending ∧ t.now = s.now

/-- Device memory, with its poison marks, is as before: every byte of it. -/
def State.sameData (s t : State) : Prop := t.mem = s.mem ∧ t.storePoison = s.storePoison ∧ t.hbmPoison = s.hbmPoison

/-- Cores, graphs, shelf cache, HBM controllers, remote caches and the network are as before. -/
def State.sameCompute (s t : State) : Prop :=
  t.cores = s.cores ∧ t.graphs = s.graphs ∧ t.cache = s.cache ∧ t.hbm = s.hbm ∧ t.net = s.net

/-- Intakes, aligner, prism, merge and planners are as before. -/
def State.sameSensing (s t : State) : Prop := t.sin = s.sin ∧ t.aln = s.aln ∧ t.pln = s.pln

/-- Lanterns and self-tests, resets, the mirror twin, supplies, temperatures and the pins are as before. -/
def State.sameSafety (s t : State) : Prop :=
  t.lan = s.lan ∧ t.recovery = s.recovery ∧ t.mirror = s.mirror ∧ t.thermal = s.thermal ∧ t.pins = s.pins

/-- Management, its flash, keys and updates are as before. -/
def State.sameManagement (s t : State) : Prop := t.mgt = s.mgt

/-- The host links and their rings are as before. -/
def State.sameHost (s t : State) : Prop := t.hif = s.hif

/-- No plain register has changed and nothing has been sent outside. -/
def State.sameRegs (s t : State) : Prop := t.regs = s.regs
def State.sentNothing (s t : State) : Prop := t.outputs = s.outputs

/-- OTP bits only go one way (R3, R482, R484): the ordering code stands, a blown debugged fuse stays blown, a revoked key slot stays
revoked, and no rollback floor falls. -/
def State.otpKept (s t : State) : Prop :=
  t.mgt.otp.ordering = s.mgt.otp.ordering ∧ (s.mgt.otp.debugged = true → t.mgt.otp.debugged = true) ∧
  (∀ k ∈ s.mgt.otp.revoked, k ∈ t.mgt.otp.revoked) ∧ ∀ k, tblGet 0 s.mgt.otp.floors k ≤ tblGet 0 t.mgt.otp.floors k

/-- The ledger queue has room for one more entry (R471). -/
def State.ledgerRoom (s : State) : Prop := s.mgt.queue.length < ledgerQueueMax

/-- An event has been appended to the ledger queue with this die code and these details, at the model's present time. -/
def State.logged (s t : State) (e : Event) (die : Nat) (detail : List Nat) : Prop :=
  t.mgt.queue = s.mgt.queue ++ [{ ev := e, die := die, detail := detail, at_ := s.now }]

/-- Register writes of the host take effect: from host_ready until SETUP_LOCK (R11, R274). -/
def State.setupOpen (s : State) : Prop := s.hif.hostReady = true ∧ s.hif.locked = false

/-! ### Cores (R97, R98, R105) -/

/-- R97, R98: the first instruction of an engine's queue is `w` with op code `op`, and it may start: the core runs, its sequencer has not
been stopped, the flag it waits on is not 0. -/
def State.starts (s : State) (c e op : Nat) (w : IWord) : Prop :=
  (s.core c).run = .RUNNING ∧ ((s.core c).queue e).head? = some w ∧ w.op = op ∧ (s.core c).waitOk w = true ∧
  (s.core c).stopped = false

/-- R98: the instruction's post takes no flag above 255. -/
def State.postOk (s : State) (c : Nat) (w : IWord) : Prop := (((s.core c).takeFlag w).post w).isSome = true

/-- R98: a flag after an instruction that waited on a flag and posted one. -/
def flagAfter (fl : Tbl Nat) (w : IWord) (i : Nat) : Nat :=
  tblGet 0 fl i - (if w.waitEn = true ∧ i = w.waitFlag then 1 else 0) + (if w.postEn = true ∧ i = w.postFlag then 1 else 0)

/-- What every instruction of an engine that has run leaves: it is off its queue (words dispatched since follow), its flags have moved, the
pass runs on; no other core and nothing outside the cores and the cache has changed, but for what an uncorrectable error reports. -/
def State.engineDone (s t : State) (c e : Nat) (w : IWord) : Prop :=
  (∃ more, (t.core c).queue e = ((s.core c).queue e).tail ++ more) ∧
  (∀ i, tblGet 0 (t.core c).flags i = flagAfter (s.core c).flags w i) ∧
  (t.core c).run = .RUNNING ∧ (∀ j : Nat, j ≠ c → t.core j = s.core j) ∧
  s.sameQueue t ∧ s.sameSensing t ∧ s.sameSafety t ∧ t.net = s.net

/-- Without poison an instruction reports nothing and counts only its cycles (R90, R109). -/
def State.engineQuiet (s t : State) (c e : Nat) : Prop :=
  s.sameManagement t ∧ s.sameHost t ∧ s.sentNothing t ∧
  ∀ a : RegAddr, a.key ≠ (ra (busyReg e) c).key → a.key ≠ (ra .CORE_STORE_STALL c).key → t.reg a = s.reg a

/-- Write a list of pieces: address, bytes, poison. -/
def State.storeAll (s : State) (l : List (Nat × List Byte × Bool)) : State := l.foldl (fun s x => s.writeMem x.1 x.2.1 x.2.2) s

/-- R76: the accumulators of the other elements stay. -/
def accOutside (bank row rows key : Nat) : Prop := key < accKey bank row 0 ∨ accKey bank row 0 + 128 * rows ≤ key

/-- The engine instructions with their engine (a mover's as the first mover, 3) and op code (R102). -/
def engineOps : List (Nat × Nat × (Fin 32 → CoreHw → Instr)) :=
  [(0, 0x01, .teWload), (0, 0x02, .teXload), (0, 0x03, .teMma), (0, 0x04, .teTma), (0, 0x05, .teOut), (0, 0x06, .teAclr)] ++
  [(1, 0x40, .veAdd), (1, 0x41, .veSub), (1, 0x42, .veMul), (1, 0x43, .veFma), (1, 0x44, .veMax), (1, 0x45, .veMin)] ++
  [(1, 0x46, .veCvt), (1, 0x47, .veBcast), (1, 0x48, .veSel), (1, 0x50, .veRsum), (1, 0x51, .veRmax), (1, 0x58, .veSfu)] ++
  [(2, 0x80, .apQload), (2, 0x81, .apPass), (2, 0x82, .apOut)] ++
  [(3, 0xC0, .dmCopy), (3, 0xC1, .dmFill), (3, 0xC2, .dmSend), (3, 0xC3, .dmRecv), (3, 0xC4, .dmRead), (3, 0xC5, .dmWrite)] ++
  [(3, 0xC6, .dmGather), (3, 0xC7, .dmTranspose)]

/-- R106, R148: the running pass of a core has been aborted: the core is halted with its queues and flags cleared, waits for a targeted
self-test, and the error stands in CORE_ERR_STATUS. -/
def State.passLost (s t : State) (c kind : Nat) : Prop :=
  (t.core c).run = .HALTED ∧ (t.core c).testHold = true ∧ (t.core c).stopped = true ∧ (t.core c).queuesEmpty = true ∧
  (t.core c).flags = [] ∧ (t.core c).pc = (s.core c).pc ∧
  t.graphs.tests = s.graphs.tests ++ [{ unit := c, cause := 1, at_ := s.now }] ∧
  (t.reg (ra .CORE_ERR_STATUS c)).getLsbD kind = true ∧
  s.sameQueue t ∧ s.sameSensing t ∧ s.sameSafety t ∧ t.net = s.net ∧ t.hbm = s.hbm

/-- The sequencer's ops with their op codes (R102). -/
def sequencerOps : List (Nat × (Fin 32 → CoreHw → Instr)) :=
  [(0xF0, .seqNop), (0xF1, .seqTokenWait), (0xF2, .seqTokenSend), (0xF3, .seqLoop), (0xF4, .seqBarrier), (0xF5, .seqFitCheck),
   (0xF6, .seqEnd)]

/-- R97, R98: the word at the sequencer's PC is `w` with op code `op`, and it may start. -/
def State.seqStarts (s : State) (c op : Nat) (w : IWord) : Prop :=
  (s.core c).run = .RUNNING ∧ (s.core c).stopped = false ∧ (s.core c).waitDecision = false ∧ (s.core c).wordAtPc = w ∧ w.op = op ∧
  (s.core c).waitOk w = true

/-- A mover's instruction starts on mover `e` (3 or 4): on mover 0, or on mover 1 when mover 0 has no such instruction first (R86). -/
def State.moverStarts (s : State) (c e op : Nat) (w : IWord) : Prop :=
  s.starts c e op w ∧ (e = 3 ∨ (e = 4 ∧ ∀ x, ((s.core c).queue 3).head? = some x → x.op ≠ op))

/-- An operand as the input stage delivers it (R80). -/
def State.operand (s : State) (c line : Nat) (f : Fmt) (rows n : Nat) : List InRow := (readRows s c (s.rxSlots c) line f rows n).1

/-- R81: the elements of a row of an element-wise op. -/
def veCols (w : IWord) : Nat := w.dim1 * veUnit [fmtOf w.fmtA, fmtOf w.fmtB, fmtOf w.fmtO]

/-- The rows of an element-wise result, formed element by element from the operands' rows. -/
def rowsBy (rows n : Nat) (ops : List (List InRow)) (f : List Nat → Conv) : List (List Nat × Bool) :=
  (veRows rows n ops f).map fun r => (r.1.map (·.bits), r.2)

/-- Memory after a VE op: the rows of its result from line o on (R81). -/
def State.veStored (s : State) (c : Nat) (w : IWord) (fo : Fmt) (n : Nat) (rows : List (List Nat × Bool)) : State :=
  s.storeAll (veWrites c w.o fo n rows)

/-- Memory after an op on the elements of a and b, row by row (R81). -/
def State.veBoth (s : State) (c : Nat) (w : IWord) (f : Nat → Nat → Conv) : State :=
  s.veStored c w (fmtOf w.fmtO) (veCols w) (rowsBy w.dim0 (veCols w)
    [s.operand c w.a (fmtOf w.fmtA) w.dim0 (veCols w), s.operand c w.b (fmtOf w.fmtB) w.dim0 (veCols w)]
    fun xs => f (nth 0 xs 0) (nth 0 xs 1))

/-- Memory after an op on the elements of a in units of `u`, written in format `fo` (R81). -/
def State.veOne (s : State) (c : Nat) (w : IWord) (fo : Fmt) (u : Nat) (f : Nat → Conv) : State :=
  s.veStored c w fo (w.dim1 * u) (rowsBy w.dim0 (w.dim1 * u) [s.operand c w.a (fmtOf w.fmtA) w.dim0 (w.dim1 * u)] fun xs => f (nth 0 xs 0))

/-- R64, R81: the rows of VE_CVT with imm[0]: each element times the scale of its group and column, rounded to FP32, then BF16. -/
def State.veExpanded (s : State) (c : Nat) (w : IWord) (n r : Nat) : List Nat × Bool :=
  let sf := bitsN w.imm 2 1
  let gl := match bitsN w.imm 4 3 with | 1 => 32 | 2 => 64 | _ => 128
  let bytes := (w.dim0 + gl - 1) / gl * n * scaleBytes sf
  let blk := memRead s.mem (coreBase c + 128 * w.b) bytes
  let row := nth { vals := [], poison := false } (s.operand c w.a (fmtOf w.fmtA) w.dim0 n) r
  ((List.range n).map fun i => (convertFloat .bf16 (f32Val (fmul (widen (fmtOf w.fmtA) (nth 0 row.vals i))
     (roundF32 (decodeScale sf (leAt blk ((r / gl * n + i) * scaleBytes sf) (scaleBytes sf))))))).bits,
   row.poison || s.rangePoison (coreBase c + 128 * w.b) bytes)

/-- R51, R81: the element r of a reduction of a by `f`. -/
def State.veReduced (s : State) (c : Nat) (w : IWord) (f : F32 → F32 → F32) (r : Nat) : Nat :=
  let fo := fmtOf w.fmtO
  let row := nth { vals := [], poison := false } (s.operand c w.a (fmtOf w.fmtA) w.dim0 (w.dim1 * 256)) r
  let x := reduceRow f (if fmtOf w.fmtA = .fp32 then 256 else 512) (row.vals.map (widen (fmtOf w.fmtA)))
  let old := memRead s.mem (coreBase c + 128 * w.o) ((w.dim0 * fo.bits + 7) / 8)
  (convert fo (if w.keep then f x (widen fo (elemAt old fo.bits r)) else x)).bits

/-- The sequence descriptor that AP_PASS reads (R176). -/
def State.apDescAt (s : State) (c : Nat) (w : IWord) : ApDesc :=
  apDesc (((memRead s.mem (coreBase c + 128 * w.b) 128).drop (16 * bitsN w.imm 2 0)).take 16)

/-- R177: the shelves that the first AP_PASS of a descriptor pins: those of its layer that cover positions from the sequence's base on. -/
def State.apVisible (s : State) (d : ApDesc) : List (Nat × Nat) := s.cache.visible d.seq d.layer (s.cache.seq d.seq).basePos

/-- Lines of 128 B as they are read, in order, from an address, and whether each is poisoned. -/
def State.lines (s : State) (a n : Nat) : List (List Byte × Bool) := (List.range n).map fun i => s.readMem (a + 128 * i) 128

/-- R102: the indices of DM_GATHER. -/
def State.gatherIndex (s : State) (c : Nat) (w : IWord) : List Int :=
  (List.range w.dim0).map fun r => sbits (leAt (memRead s.mem (coreBase c + 128 * w.b) (4 * w.dim0)) (4 * r) 4) 32

/-- R102: an index is not negative and its row ends in the store. -/
def gatherOk (w : IWord) (i : Int) : Prop := 0 ≤ i ∧ (w.a : Int) + i * w.dim1 + w.dim1 ≤ storeLines

/-- R79: the scale and the bias that TE_OUT applies to column n, from the block at line b, and whether that block is poisoned. -/
def State.outScale (s : State) (c : Nat) (w : IWord) (n : Nat) : Option F32 :=
  if bitN w.imm 1 then some (BitVec.ofNat 32 (leAt (memRead s.mem (coreBase c + 128 * w.b) (if bitN w.imm 2 then 1024 else 512)) (4 * n) 4))
  else none
def State.outBias (s : State) (c : Nat) (w : IWord) (n : Nat) : Option F32 :=
  if bitN w.imm 2 then
    some (BitVec.ofNat 32 (leAt (memRead s.mem (coreBase c + 128 * w.b) (if bitN w.imm 1 then 1024 else 512))
      ((if bitN w.imm 1 then 512 else 0) + 4 * n) 4))
  else none
def State.outPoison (s : State) (c : Nat) (w : IWord) : Bool :=
  s.rangePoison (coreBase c + 128 * w.b)
    (if bitN w.imm 1 = true ∧ bitN w.imm 2 = true then 1024 else if bitN w.imm 1 = true ∨ bitN w.imm 2 = true then 512 else 0)

/-- R50, R79: row r of TE_OUT as it is written: 128 elements of bank imm[0], through the output stage. -/
def State.outRow (s : State) (c : Nat) (w : IWord) (r : Nat) : Nat × List Byte × Bool :=
  let fo := fmtOf w.fmtO
  let es := (List.range 128).map fun n => tblGet {} (s.core c).acc (accKey (w.imm % 2) (w.a + r) n)
  (coreBase c + 128 * w.o + r * rowBytes fo 128,
   padTo (rowBytes fo 128) (packElems fo.bits ((List.range 128).map fun n =>
     (outElem fo (s.outScale c w n) (s.outBias c w n) (nth {} es n)).1.bits)),
   es.any (·.poison) || s.outPoison c w)

/-- R76, R77, R48, R49: the element (r, n) of a bank after TE_MMA or TE_TMA with weight set `x`. -/
def State.maccElem (s : State) (table : Bool) (c : Nat) (w : IWord) (x : WSet) (r n : Nat) : Acc :=
  let h := recHdr x.record
  let fa := fmtOf w.fmtA
  let kk := if table then 256 else 128
  let slots := s.rxSlots c
  let slot := findSlot slots w.a
  let row := nth { vals := [], poison := false } (readRows s c slots w.a fa w.dim0 kk).1 r
  let integer := fa = .int8 && (if table then h.cbFormat = .int8 else fmtOf w.fmtB = .int8)
  let unscaled := (x.expand || h.scaleFmt = 0) && (match slot with | none => true | some t => t.tile.groupLen = 0)
  let isInt := integer && unscaled
  let a0 : Acc := if w.keep then (tblGet {} (s.core c).acc (accKey (w.imm % 2) (w.o + r) n)).toPath isInt else { isInt := isInt }
  let a1 := accumulate integer unscaled kk h.groupLen (fun i => decodeElem fa (nth 0 row.vals i)) (fun i => setWeight x i n)
    (fun g => combinedScale (setScale x g n)
      (actScale s c slot w.a (rowBytes (storedFmt slots w.a fa) kk) r (g * h.groupLen))) a0
  { a1 with poison := a0.poison || row.poison || x.poison }

/-! ### Samples (R286, R290, R292) -/

/-- R286, R290: the samples of a hub have identities of their own, below the next one. -/
def State.sampleIds (s : State) (h : Nat) : Prop :=
  ((s.intake h).samples.map (·.id)).Nodup ∧ ∀ x ∈ (s.intake h).samples, x.id < (s.intake h).nextId

/-- R292: a sample has become a placeholder of a kind: its content is gone, it waits for no decoder, and the kind stands in its stream. -/
def State.becomes (t : State) (h : Nat) (x : Sample) (k : Kind) : Prop :=
  (∃ y, t.sample? h x.id = some y ∧ y.kind = k ∧ y.data = [] ∧ y.points = [] ∧ y.decoder = none ∧ y.stream = x.stream ∧ y.index = x.index) ∧
  (t.stream h x.stream).lastKind = k.code ∧ x.id ∉ (t.intake h).ready

/-- What the sensor side leaves alone: memory, cores, cache, HBM, network, planners, lanterns and resets. -/
def State.sensorsOnly (s t : State) : Prop :=
  s.sameData t ∧ t.cores = s.cores ∧ t.cache = s.cache ∧ t.hbm = s.hbm ∧ t.net = s.net ∧ t.pln = s.pln ∧ s.sameSafety t

/-- What the planner side leaves alone, besides registers: memory, compute, sensors, lanterns and management. -/
def State.plannersOnly (s t : State) : Prop :=
  s.sameData t ∧ t.cores = s.cores ∧ t.cache = s.cache ∧ t.hbm = s.hbm ∧ t.net = s.net ∧ t.sin = s.sin ∧ t.aln = s.aln ∧ s.sameSafety t ∧
  s.sameManagement t

/-- What a lantern's own affairs leave alone: memory, compute, sensors and planners, supplies and temperatures, the mirror twin. -/
def State.lanternsOnly (s t : State) : Prop :=
  s.sameData t ∧ s.sameCompute t ∧ s.sameSensing t ∧ t.thermal = s.thermal ∧ t.mirror = s.mirror

/-! ### Ikisan messages (R476 … R479) -/

/-- The active processor takes the oldest waiting message of a type that meets `ok`; `u` is the state without it. -/
def State.takesMessage (s : State) (ok : IkMsg → Bool) (m : IkMsg) (u : State) : Prop :=
  s.managed = true ∧ ∃ rest, takeFirst ok s.mgt.inbox = some (m, rest) ∧ u = { s with mgt := { s.mgt with inbox := rest } }

/-- R478: the oldest waiting CONTROL message has a type and is accepted; `u` is the state without it, with its counter stored. -/
def State.takesControl (s : State) (type : Nat) (m : IkMsg) (u : State) : Prop :=
  s.managed = true ∧ s.authentic m = true ∧ m.type = type ∧
  ∃ rest, takeFirst (fun (x : IkMsg) => controlType x.type) s.mgt.inbox = some (m, rest) ∧
    u = { s with mgt := { s.mgt with inbox := rest, counter := max s.mgt.counter m.counter } }

/-- The CONTROL commands with their type and, for UPDATE_ACTIVATE, the scopes that each serves (R479). -/
def controlOps : List (Nat × (IkMsg → Bool) × Instr) :=
  [(0x10, anyMsg, .keySet), (0x11, anyMsg, .calWrite), (0x12, anyMsg, .restoreFactory), (0x13, anyMsg, .updateBegin),
   (0x14, anyMsg, .updateData), (0x15, anyMsg, .updateVerify), (0x16, fun m => m.scope != 2 && m.scope != 3, .updateActivateTdies),
   (0x16, fun m => m.scope == 2, .updateActivateLanterns), (0x16, fun m => m.scope == 3, .updateActivateHubs), (0x17, anyMsg, .updateCommit)] ++
  [(0x18, anyMsg, .reset), (0x19, anyMsg, .plannedStop), (0x1A, anyMsg, .debugUnlock)]

end Sys2Proof.Machine
end

