-- ==== Sys2Proof/Certificates/Slice0/Obligations.lean ====
section
/-! DEFINITION. The statements for the provers: what each family of commands does, as one statement over every state and every operand, and
what every step keeps. A clause whose conclusion is `exec … = .next t` says where the command completes; a clause `exec … = .next s` says where it
has no effect. -/

open Sys2Proof Sys2Proof.Machine

/-! ### Registers (spec/08_host_interface.md) -/

/-- R251: HIF_SETUP_LOCK locks every RWL register for its magic value alone, both links show it, and only a warm package reset or a power-on
reset ends it. -/
def Obligations.setupLockHolds : Prop :=
  (∀ (h : Fin 2) (v : BitVec 32) (s : State), s.hif.hostReady = true →
    (v = 0x00004C4B → exec (.hifSetupLock h v) s = .next { s with hif := { s.hif with locked := true } }) ∧
    (v ≠ 0x00004C4B → exec (.hifSetupLock h v) s = .next s)) ∧
  (∀ (h : Fin 2) (s : State), bitN (s.hifStatus h) 8 = s.hif.locked) ∧
  (∀ (h : Fin 2) (o : Nat) (v : BitVec 32) (a : RegAddr) (s : State), s.hif.hostReady = true → s.hif.locked = true → o % 4 = 0 →
    decodeBar0 h o = .reg a → (regRow a.reg).access = .RWL →
    ∃ k, exec (.registerWrite false h o v) s = .next ((s.raise .HIF h 6).log .SETUP_LOCKED 0xFF [k])) ∧
  (∀ (l : Fin 2) (s : State), ∃ t, exec (.flr l) s = .next t ∧ t.hif.locked = s.hif.locked) ∧
  (∀ (d : Fin 4) (s : State), ∃ t, exec (.dieReset d) s = .next t ∧ t.hif.locked = s.hif.locked) ∧
  (∀ s : State, s.recovery.phase = .warmRequested → s.recovery.requestedAt + 1000 ≤ s.now → s.recovery.down = [] →
    ∃ t, exec .warmResetAssert s = .next t ∧ t.hif.locked = false) ∧
  (∀ s : State, s.pins.porst = true → ∃ t, exec .porstAssert s = .next t ∧ t.hif.locked = false)

/-- R9 … R12, R270, R274, R275: a register write takes effect by its access type, an access of a wrong width is logged, and the read of
HIF_ERR_SUMMARY clears restarted. -/
def Obligations.registersAccessed : Prop :=
  (∀ (h : Fin 2) (v : BitVec 32) (s : State), s.setupOpen →
    ∃ t, exec (.registerWrite false h 0x14 v) s = .next t ∧ t.reg (ra .HIF_ERR_VECTOR h) = v &&& 0x3F ∧
      s.sameData t ∧ s.sameCompute t ∧ s.sameSensing t ∧ s.sameSafety t ∧ s.sameManagement t) ∧
  (∀ (h : Fin 2) (v : BitVec 32) (s : State), s.hif.hostReady = true → s.hif.locked = true → s.ledgerRoom →
    ∃ t, exec (.registerWrite false h 0x14 v) s = .next t ∧ t.reg (ra .HIF_ERR_VECTOR h) = s.reg (ra .HIF_ERR_VECTOR h) ∧
      (t.reg (ra .HIF_ERR_STATUS h)).getLsbD 6 = true ∧ s.logged t .SETUP_LOCKED 0xFF [(ra .HIF_ERR_VECTOR h).key]) ∧
  (∀ (h : Fin 2) (v : BitVec 32) (s : State), s.hif.hostReady = true →
    ∃ t, exec (.registerWrite false h 0x20 v) s = .next t ∧ t.reg (ra .HIF_ERR_STATUS h) = s.reg (ra .HIF_ERR_STATUS h) &&& ~~~v) ∧
  (∀ (h : Fin 2) (o : Nat) (v : BitVec 32) (s : State), s.hif.hostReady = false → o % 4 = 0 →
    exec (.registerWrite false h o v) s = .next s) ∧
  (∀ (h : Fin 2) (o w : Nat) (b : Bool) (s : State), (w ≠ 4 ∨ o % 4 ≠ 0) → msixAccess o w = false → s.ledgerRoom →
    ∃ t, exec (.regAccessBad h o w b) s = .next t ∧ s.sameRegs t ∧ s.sameHost t ∧ s.logged t .REG_ACCESS_BAD (4 + h.val) [o, w, b2n b]) ∧
  (∀ (h : Fin 2) (s : State),
    ∃ t, exec (.hifErrSummaryRead h) s = .next t ∧
      t.hif.readReturn = BitVec.ofBool (s.link h).restarted ++ 0#13 ++ BitVec.ofNat 18 s.hif.summary ∧
      (t.link h).restarted = false ∧ t.hif.summary = s.hif.summary ∧ (∀ j : Nat, j ≠ h → t.link j = s.link j) ∧
      s.sameRegs t ∧ s.sameData t ∧ s.sameCompute t ∧ s.sameSensing t ∧ s.sameSafety t ∧ s.sameManagement t ∧ s.sentNothing t)

/-! ### Cores (spec/03_cores.md) -/

/-- R73 … R80, R97, R98, R102: the six instructions of the tensor engine, when they start. A load puts the record into the loading set; TE_MMA
and TE_TMA form each element of dim0 rows of a bank by `maccElem`; TE_OUT writes the drained rows from line o; TE_ACLR clears rows. -/
def Obligations.tensorEngineRuns : Prop :=
  (∀ (core : Fin 32) (s : State) (w : IWord), s.starts core 0 0x01 w → s.postOk core w → (s.core core).loading = none →
    let bs := memRead s.mem (coreBase core + 128 * w.a) (128 * w.dim0)
    (recHdr bs).check bs = none → (recHdr bs).recBytes ≤ bs.length →
    ∃ t, exec (.teWload core .ok) s = .next t ∧ s.engineDone t core 0 w ∧ (s.storePoison = [] → s.engineQuiet t core 0) ∧ s.sameData t ∧
      (t.core core).loading = some { record := bs.take (recHdr bs).recBytes, expand := false, half := w.imm % 2
                                     poison := s.rangePoison (coreBase core + 128 * w.a) (128 * w.dim0) } ∧
      (t.core core).active = (s.core core).active ∧ (t.core core).acc = (s.core core).acc) ∧
  (∀ (core : Fin 32) (s : State) (w : IWord), s.starts core 0 0x02 w → s.postOk core w → (s.core core).loading = none →
    let bs := memRead s.mem (coreBase core + 128 * w.a) (128 * w.dim0)
    (recHdr bs).check bs = none → (recHdr bs).recBytes ≤ bs.length →
    ((recHdr bs).recType = 2 → (recHdr bs).fmt ≠ 7 ∧ (recHdr bs).fmt ≠ 8) →
    ∃ t, exec (.teXload core .ok) s = .next t ∧ s.engineDone t core 0 w ∧ (s.storePoison = [] → s.engineQuiet t core 0) ∧ s.sameData t ∧
      (t.core core).loading = some { record := bs.take (recHdr bs).recBytes, expand := true, half := w.imm % 2
                                     poison := s.rangePoison (coreBase core + 128 * w.a) (128 * w.dim0) } ∧
      (t.core core).active = (s.core core).active ∧ (t.core core).acc = (s.core core).acc) ∧
  (∀ (core : Fin 32) (s : State) (w : IWord) (x : WSet), s.starts core 0 0x03 w → s.postOk core w →
    (if w.swap then (s.core core).loading else (s.core core).active) = some x → fmtOf w.fmtB = x.fmt →
    tePair false (fmtOf w.fmtA) (fmtOf w.fmtB) (recHdr x.record).cbFormat = true →
    ∃ t, exec (.teMma core .ok) s = .next t ∧ s.engineDone t core 0 w ∧ (s.storePoison = [] → s.engineQuiet t core 0) ∧ s.sameData t ∧ (t.core core).active = some x ∧
      (w.swap = true → (t.core core).loading = none) ∧
      (∀ r n, r < w.dim0 → n < 128 →
        tblGet {} (t.core core).acc (accKey (w.imm % 2) (w.o + r) n) = s.maccElem false core w x r n) ∧
      ∀ k, accOutside (w.imm % 2) w.o w.dim0 k → tblGet {} (t.core core).acc k = tblGet {} (s.core core).acc k) ∧
  (∀ (core : Fin 32) (s : State) (w : IWord) (x : WSet), s.starts core 0 0x04 w → s.postOk core w →
    (if w.swap then (s.core core).loading else (s.core core).active) = some x → fmtOf w.fmtB = x.fmt →
    tePair true (fmtOf w.fmtA) (fmtOf w.fmtB) (recHdr x.record).cbFormat = true →
    ∃ t, exec (.teTma core .ok) s = .next t ∧ s.engineDone t core 0 w ∧ (s.storePoison = [] → s.engineQuiet t core 0) ∧ s.sameData t ∧ (t.core core).active = some x ∧
      (w.swap = true → (t.core core).loading = none) ∧
      (∀ r n, r < w.dim0 → n < 128 →
        tblGet {} (t.core core).acc (accKey (w.imm % 2) (w.o + r) n) = s.maccElem true core w x r n) ∧
      ∀ k, accOutside (w.imm % 2) w.o w.dim0 k → tblGet {} (t.core core).acc k = tblGet {} (s.core core).acc k) ∧
  (∀ (core : Fin 32) (s : State) (w : IWord), s.starts core 0 0x05 w → s.postOk core w →
    ∃ t, exec (.teOut core .ok) s = .next t ∧ s.engineDone t core 0 w ∧ (s.storePoison = [] → s.engineQuiet t core 0) ∧ (t.core core).acc = (s.core core).acc ∧
      t.mem = (s.storeAll ((List.range w.dim0).map (s.outRow core w))).mem) ∧
  (∀ (core : Fin 32) (s : State) (w : IWord), s.starts core 0 0x06 w → s.postOk core w →
    ∃ t, exec (.teAclr core .ok) s = .next t ∧ s.engineDone t core 0 w ∧ (s.storePoison = [] → s.engineQuiet t core 0) ∧ s.sameData t ∧
      (∀ r n, r < w.dim0 → n < 128 → tblGet {} (t.core core).acc (accKey (w.imm % 2) (w.a + r) n) = {}) ∧
      ∀ k, accOutside (w.imm % 2) w.a w.dim0 k → tblGet {} (t.core core).acc k = tblGet {} (s.core core).acc k)

/-- R36, R51, R81, R82, R102: the twelve instructions of the vector engine, when they start: the rows of the result, element by element from the
operands as the input stage delivers them, are written from line o. VE_CVT converts, or with imm[0] expands weights. -/
def Obligations.vectorEngineRuns : Prop :=
  (∀ (core : Fin 32) (s : State) (w : IWord), s.starts core 1 0x40 w → s.postOk core w →
    ∃ t, exec (.veAdd core .ok) s = .next t ∧ s.engineDone t core 1 w ∧ (s.storePoison = [] → s.engineQuiet t core 1) ∧
      (t.core core).acc = (s.core core).acc ∧
      t.mem = (s.veBoth core w fun a b => if fmtOf w.fmtO = .int8 then convertInt 8 (.ofInt (signedOf 8 a + signedOf 8 b))
        else convert (fmtOf w.fmtO) (fadd (widen (fmtOf w.fmtA) a) (widen (fmtOf w.fmtB) b))).mem) ∧
  (∀ (core : Fin 32) (s : State) (w : IWord), s.starts core 1 0x41 w → s.postOk core w →
    ∃ t, exec (.veSub core .ok) s = .next t ∧ s.engineDone t core 1 w ∧ (s.storePoison = [] → s.engineQuiet t core 1) ∧
      (t.core core).acc = (s.core core).acc ∧
      t.mem = (s.veBoth core w fun a b => if fmtOf w.fmtO = .int8 then convertInt 8 (.ofInt (signedOf 8 a - signedOf 8 b))
        else convert (fmtOf w.fmtO) (fsub (widen (fmtOf w.fmtA) a) (widen (fmtOf w.fmtB) b))).mem) ∧
  (∀ (core : Fin 32) (s : State) (w : IWord), s.starts core 1 0x42 w → s.postOk core w →
    ∃ t, exec (.veMul core .ok) s = .next t ∧ s.engineDone t core 1 w ∧ (s.storePoison = [] → s.engineQuiet t core 1) ∧
      (t.core core).acc = (s.core core).acc ∧
      t.mem = (s.veBoth core w fun a b => if fmtOf w.fmtO = .int8 then convertInt 8 (.ofInt (signedOf 8 a * signedOf 8 b))
        else convert (fmtOf w.fmtO) (fmul (widen (fmtOf w.fmtA) a) (widen (fmtOf w.fmtB) b))).mem) ∧
  (∀ (core : Fin 32) (s : State) (w : IWord), s.starts core 1 0x43 w → s.postOk core w →
    ∃ t, exec (.veFma core .ok) s = .next t ∧ s.engineDone t core 1 w ∧ (s.storePoison = [] → s.engineQuiet t core 1) ∧
      (t.core core).acc = (s.core core).acc ∧
      t.mem = (s.veStored core w (fmtOf w.fmtO) (veCols w) (rowsBy w.dim0 (veCols w)
        [s.operand core w.a (fmtOf w.fmtA) w.dim0 (veCols w), s.operand core w.b (fmtOf w.fmtB) w.dim0 (veCols w),
         plainRows s core w.o (fmtOf w.fmtO) w.dim0 (veCols w)] fun xs =>
        let exact := ((decodeElem (fmtOf w.fmtA) (nth 0 xs 0)).mul (decodeElem (fmtOf w.fmtB) (nth 0 xs 1))).add
          (decodeElem (fmtOf w.fmtO) (nth 0 xs 2))
        if fmtOf w.fmtO = .fp32 then convert .fp32 (roundF32 exact) else convertFloat (fmtOf w.fmtO) exact)).mem) ∧
  (∀ (core : Fin 32) (s : State) (w : IWord), s.starts core 1 0x44 w → s.postOk core w →
    ∃ t, exec (.veMax core .ok) s = .next t ∧ s.engineDone t core 1 w ∧ (s.storePoison = [] → s.engineQuiet t core 1) ∧
      (t.core core).acc = (s.core core).acc ∧
      t.mem = (s.veBoth core w fun a b => if fmtOf w.fmtO = .int8 then convertInt 8 (.ofInt (Max.max (signedOf 8 a) (signedOf 8 b)))
        else convert (fmtOf w.fmtO) (fmax (widen (fmtOf w.fmtA) a) (widen (fmtOf w.fmtB) b))).mem) ∧
  (∀ (core : Fin 32) (s : State) (w : IWord), s.starts core 1 0x45 w → s.postOk core w →
    ∃ t, exec (.veMin core .ok) s = .next t ∧ s.engineDone t core 1 w ∧ (s.storePoison = [] → s.engineQuiet t core 1) ∧
      (t.core core).acc = (s.core core).acc ∧
      t.mem = (s.veBoth core w fun a b => if fmtOf w.fmtO = .int8 then convertInt 8 (.ofInt (Min.min (signedOf 8 a) (signedOf 8 b)))
        else convert (fmtOf w.fmtO) (fmin (widen (fmtOf w.fmtA) a) (widen (fmtOf w.fmtB) b))).mem) ∧
  (∀ (core : Fin 32) (s : State) (w : IWord), s.starts core 1 0x46 w → s.postOk core w → bitN w.imm 0 = false →
    ∃ t, exec (.veCvt core .ok) s = .next t ∧ s.engineDone t core 1 w ∧ (s.storePoison = [] → s.engineQuiet t core 1) ∧
      (t.core core).acc = (s.core core).acc ∧
      t.mem = (s.veOne core w (fmtOf w.fmtO) 256 (convertFrom (fmtOf w.fmtA) (fmtOf w.fmtO))).mem) ∧
  (∀ (core : Fin 32) (s : State) (w : IWord), s.starts core 1 0x46 w → s.postOk core w → bitN w.imm 0 = true →
    ∃ t, exec (.veCvt core .ok) s = .next t ∧ s.engineDone t core 1 w ∧ (s.storePoison = [] → s.engineQuiet t core 1) ∧
      (t.core core).acc = (s.core core).acc ∧
      t.mem = (s.veStored core w .bf16 (w.dim1 * 256) ((List.range w.dim0).map (s.veExpanded core w (w.dim1 * 256)))).mem) ∧
  (∀ (core : Fin 32) (s : State) (w : IWord), s.starts core 1 0x47 w → s.postOk core w →
    ∃ t, exec (.veBcast core .ok) s = .next t ∧ s.engineDone t core 1 w ∧ (s.storePoison = [] → s.engineQuiet t core 1) ∧
      (t.core core).acc = (s.core core).acc ∧
      t.mem = (s.veStored core w (fmtOf w.fmtO) (veCols w) (rowsBy w.dim0 (veCols w)
        [s.operand core w.a (fmtOf w.fmtA) w.dim0 (veCols w), List.replicate w.dim0
          (nth { vals := [], poison := false } (s.operand core w.b (fmtOf w.fmtB) 1 (veCols w)) 0)] fun xs =>
        convert (fmtOf w.fmtO) (fmul (widen (fmtOf w.fmtA) (nth 0 xs 0)) (widen (fmtOf w.fmtB) (nth 0 xs 1))))).mem) ∧
  (∀ (core : Fin 32) (s : State) (w : IWord), s.starts core 1 0x48 w → s.postOk core w →
    ∃ t, exec (.veSel core .ok) s = .next t ∧ s.engineDone t core 1 w ∧ (s.storePoison = [] → s.engineQuiet t core 1) ∧
      (t.core core).acc = (s.core core).acc ∧
      t.mem = (s.veBoth core w fun a b => if flt 0 (widen (fmtOf w.fmtB) b) then convertFrom (fmtOf w.fmtA) (fmtOf w.fmtO) a
        else { bits := if bitN w.imm 0 then infBits (fmtOf w.fmtO) true else 0 }).mem) ∧
  (∀ (core : Fin 32) (s : State) (w : IWord), s.starts core 1 0x50 w → s.postOk core w →
    ∃ t, exec (.veRsum core .ok) s = .next t ∧ s.engineDone t core 1 w ∧ (s.storePoison = [] → s.engineQuiet t core 1) ∧
      (t.core core).acc = (s.core core).acc ∧
      t.mem = (s.storeAll [(coreBase core + 128 * w.o, packElems (fmtOf w.fmtO).bits
        ((List.range w.dim0).map (s.veReduced core w fadd)), false)]).mem) ∧
  (∀ (core : Fin 32) (s : State) (w : IWord), s.starts core 1 0x51 w → s.postOk core w →
    ∃ t, exec (.veRmax core .ok) s = .next t ∧ s.engineDone t core 1 w ∧ (s.storePoison = [] → s.engineQuiet t core 1) ∧
      (t.core core).acc = (s.core core).acc ∧
      t.mem = (s.storeAll [(coreBase core + 128 * w.o, packElems (fmtOf w.fmtO).bits
        ((List.range w.dim0).map (s.veReduced core w fmax)), false)]).mem) ∧
  (∀ (core : Fin 32) (s : State) (w : IWord), s.starts core 1 0x58 w → s.postOk core w →
    ∃ t, exec (.veSfu core .ok) s = .next t ∧ s.engineDone t core 1 w ∧ (s.storePoison = [] → s.engineQuiet t core 1) ∧
      (t.core core).acc = (s.core core).acc ∧
      t.mem = (s.veOne core w (fmtOf w.fmtO) 64 fun x => convert (fmtOf w.fmtO) (sfu (bitsN w.imm 2 0) (widen (fmtOf w.fmtA) x))).mem)

/-- R83, R84, R102, R176 … R178: the attention pipeline's instructions, when they start. AP_QLOAD loads the query rows; the first AP_PASS of a
descriptor pins the visible shelves and takes dim0 blocks of 64 positions, a continued one goes on from the next block; AP_OUT writes each row's
accumulators divided by its running sum and releases the pins. -/
def Obligations.attentionPipelineRuns : Prop :=
  (∀ (core : Fin 32) (s : State) (w : IWord), s.starts core 2 0x80 w → s.postOk core w →
    let rows := plainRows s core w.a (fmtOf w.fmtA) w.dim0 w.dim1
    ∃ t, exec (.apQload core .ok) s = .next t ∧ s.engineDone t core 2 w ∧ (s.storePoison = [] → s.engineQuiet t core 2) ∧ s.sameData t ∧
      t.cache = s.cache ∧
      (t.core core).ap = { (s.core core).ap with
        fmt := w.fmtA, d := w.dim1, rows := rows.map (fun r => r.vals.map (widen (fmtOf w.fmtA))), started := false
        poison := rows.any (·.poison) }) ∧
  (∀ (core : Fin 32) (s : State) (w : IWord), s.starts core 2 0x81 w → s.postOk core w →
    let d := s.apDescAt core w
    let p := s.cache.pool (s.cache.seq d.seq).pool
    let k := s.core core
    d.cont = true → k.ap.started = true →
    let segs := (s.cache.segments (s.cache.list d.seq d.layer)).filter (fun e => k.ap.pins.contains e.2)
    let acc0 : List RowAcc := (List.range k.ap.rows.length).map fun r => ⟨nth 0 k.ap.runMax r, nth 0 k.ap.runSum r, nth [] k.ap.val r⟩
    ∃ t, exec (.apPass core .ok) s = .next t ∧ s.engineDone t core 2 w ∧ s.sameData t ∧ t.cache = s.cache ∧
      (t.core core).ap.nextPos = k.ap.nextPos + 64 * w.dim0 ∧ (t.core core).ap.pins = k.ap.pins ∧
      (t.core core).ap.runMax = (apBlocks s segs p d k.ap.rows (s.cache.listEnd (s.cache.list d.seq d.layer)) w.dim0 k.ap.nextPos
        (acc0, k.ap.poison || s.rangePoison (coreBase core + 128 * w.b) 128)).1.map (·.m)) ∧
  (∀ (core : Fin 32) (s : State) (w : IWord), s.starts core 2 0x81 w → s.postOk core w →
    let d := s.apDescAt core w
    let k := s.core core
    (d.cont = false ∨ k.ap.started = false) → (∀ e ∈ s.apVisible d, (s.cache.shelf e.2).pinnable = true) →
    let u := s.setCache ((s.apVisible d).foldl (fun c e => c.pin e.2) (s.cache.unpinAll k.ap.pins))
    ∃ t, exec (.apPass core .ok) s = .next t ∧ s.engineDone t core 2 w ∧ t.cache = u.cache ∧ t.mem = u.mem ∧
      (t.core core).ap.pins = (s.apVisible d).map (·.2) ∧ (t.core core).ap.started = true ∧
      (t.core core).ap.nextPos = (s.cache.seq d.seq).basePos + 64 * w.dim0) ∧
  (∀ (core : Fin 32) (s : State) (w : IWord), s.starts core 2 0x81 w →
    ((s.apDescAt core w).cont = false ∨ (s.core core).ap.started = false) →
    (∃ e ∈ s.apVisible (s.apDescAt core w), (s.cache.shelf e.2).pinnable = false) →
    exec (.apPass core .ok) s = .next s) ∧
  (∀ (core : Fin 32) (s : State) (w : IWord), s.starts core 2 0x82 w → s.postOk core w →
    let k := s.core core
    let u := s.unpin k.ap.pins
    ∃ t, exec (.apOut core .ok) s = .next t ∧ s.engineDone t core 2 w ∧ t.cache = u.cache ∧
      (t.core core).ap = { k.ap with pins := [], started := false } ∧
      t.mem = (u.storeAll (veWrites core w.o (fmtOf w.fmtO) k.ap.d ((List.range k.ap.val.length).map fun r =>
        ((nth [] k.ap.val r).map (fun x => (convert (fmtOf w.fmtO) (fdiv x (nth 0 k.ap.runSum r))).bits), k.ap.poison)))).mem)

/-- R86 … R88, R102, R126, R137, R513: the eight instructions of the data movers, when they start on one of the movers. -/
def Obligations.dataMoversRun : Prop :=
  (∀ (core : Fin 32) (s : State) (w : IWord) (e : Nat), s.moverStarts core e 0xC0 w → s.postOk core w →
    ∃ t, exec (.dmCopy core .ok) s = .next t ∧ s.engineDone t core e w ∧ (s.storePoison = [] → s.engineQuiet t core e) ∧
      t.mem = (s.storeAll (linesTo ((if bitN w.imm 4 then clusterBase core else coreBase core) + 128 * w.o)
        (s.lines ((if bitN w.imm 3 then clusterBase core else coreBase core) + 128 * w.a) w.dim0))).mem) ∧
  (∀ (core : Fin 32) (s : State) (w : IWord) (e : Nat), s.moverStarts core e 0xC1 w → s.postOk core w →
    ∃ t, exec (.dmFill core .ok) s = .next t ∧ s.engineDone t core e w ∧ (s.storePoison = [] → s.engineQuiet t core e) ∧
      t.mem = (s.storeAll (linesTo (coreBase core + 128 * w.o) (List.replicate w.dim0
        ((List.replicate 32 (memRead s.mem (coreBase core + 128 * w.b) 4)).flatten, s.rangePoison (coreBase core + 128 * w.b) 4)))).mem) ∧
  (∀ (core : Fin 32) (s : State) (w : IWord) (e : Nat) (gr : Graph) (cd : Card) (st : Stream), s.moverStarts core e 0xC2 w →
    s.postOk core w → s.passCard core = some (gr, cd) →
    let k := s.core core
    let ei := nth 0xFFFF cd.outEdges w.b
    gr.stream? ei k.copy = some st → 0 < st.credits → tblGet 0 k.sent w.b < (gr.edge ei).frameTiles → s.coreFenced core = false →
    ∃ t tile, exec (.dmSend core .ok) s = .next t ∧ s.engineDone t core e w ∧ s.sameData t ∧
      tblGet 0 (t.core core).sent w.b = tblGet 0 k.sent w.b + 1 ∧
      tile.stream = ei ∧ tile.seq = tblGet 0 k.sent w.b ∧ tile.frame = k.frame ∧ tile.graph = k.graph ∧ tile.producer = k.station ∧
      tile.fmt = w.fmtA ∧ tile.rows = w.dim0 ∧ tile.widened = k.rerun ∧ tile.groupLen = sendGroup w.imm ∧
      tile.last = decide (tblGet 0 k.sent w.b + 1 = (gr.edge ei).frameTiles) ∧
      t.graphs.graphs = (s.modGraph k.graph fun g => g.modStream ei k.copy fun x =>
        { x with credits := x.credits - 1, inFlight := x.inFlight ++ [tile] }).graphs.graphs) ∧
  (∀ (core : Fin 32) (s : State) (w : IWord) (e : Nat) (gr : Graph) (cd : Card) (st : Stream), s.moverStarts core e 0xC3 w →
    s.postOk core w → s.passCard core = some (gr, cd) →
    let k := s.core core
    let ei := nth 0xFFFF cd.inEdges w.b
    gr.stream? ei k.copy = some st → st.read < st.rx.length →
    ∃ t, exec (.dmRecv core .ok) s = .next t ∧ s.engineDone t core e w ∧ s.engineQuiet t core e ∧ s.sameData t ∧
      (t.core core).bound = (if cd.fitMode = 2 then tblMod 0 k.bound w.b (· + bitsN w.imm 7 0) else k.bound) ∧
      t.graphs.graphs = (s.modGraph k.graph fun g => g.modStream ei k.copy fun x =>
        if cd.fitMode = 2 then { x with read := x.read + 1 }
        else ({ x with read := x.read + 1 } : Stream).release (bitsN w.imm 7 0)).graphs.graphs) ∧
  (∀ (core : Fin 32) (s : State) (w : IWord) (e : Nat), s.moverStarts core e 0xC4 w → s.postOk core w →
    badRange (s.descriptor core w).1 w.dim0 = false →
    ∃ t, exec (.dmRead core .ok) s = .next t ∧ s.engineDone t core e w ∧
      t.mem = (s.storeAll (linesTo (coreBase core + 128 * w.o) ((List.range w.dim0).map fun i =>
        ((s.readLine core ((s.descriptor core w).1 + 128 * i)).1,
         (s.readLine core ((s.descriptor core w).1 + 128 * i)).2 || (s.descriptor core w).2)))).mem) ∧
  (∀ (core : Fin 32) (s : State) (w : IWord) (e : Nat), s.moverStarts core e 0xC5 w → s.postOk core w →
    badRange (s.descriptor core w).1 w.dim0 = false →
    let u := s.rcInvalidate (core / 8) (s.descriptor core w).1 (128 * w.dim0)
    ∃ t, exec (.dmWrite core .ok) s = .next t ∧ s.engineDone t core e w ∧ t.hbm = u.hbm ∧
      (s.portOpen core (s.descriptor core w).1 = true →
        t.mem = (u.storeAll (linesTo (s.descriptor core w).1 ((s.lines (coreBase core + 128 * w.a) w.dim0).map fun l =>
          (l.1, l.2 || (s.descriptor core w).2)))).mem) ∧
      (s.portOpen core (s.descriptor core w).1 = false → t.mem = s.mem)) ∧
  (∀ (core : Fin 32) (s : State) (w : IWord) (e : Nat), s.moverStarts core e 0xC6 w → s.postOk core w →
    (∀ i ∈ s.gatherIndex core w, gatherOk w i) →
    ∃ t, exec (.dmGather core .ok) s = .next t ∧ s.engineDone t core e w ∧ (s.storePoison = [] → s.engineQuiet t core e) ∧
      t.mem = (s.storeAll (linesTo (coreBase core + 128 * w.o) ((s.gatherIndex core w).flatMap fun i =>
        (s.lines (coreBase core + 128 * (w.a + i.toNat * w.dim1)) w.dim1).map fun l =>
          (l.1, l.2 || s.rangePoison (coreBase core + 128 * w.b) (4 * w.dim0))))).mem) ∧
  (∀ (core : Fin 32) (s : State) (w : IWord) (e : Nat), s.moverStarts core e 0xC7 w → s.postOk core w →
    let n := if bitsN w.imm 1 0 = 0 then 1 else 2
    ∃ t, exec (.dmTranspose core .ok) s = .next t ∧ s.engineDone t core e w ∧ (s.storePoison = [] → s.engineQuiet t core e) ∧
      t.mem = (s.storeAll (linesTo (coreBase core + 128 * w.o) ((List.range w.dim0).flatMap fun b => (List.range 128).flatMap fun i =>
        (List.range n).map fun h => transposeLine
          (((s.lines (coreBase core + 128 * w.a) (w.dim0 * 128 * n)).drop (b * 128 * n)).take (128 * n)) n i h))).mem)

/-- R97, R98, R105, R106: what stops an instruction of an engine. An engine whose first instruction may not start, or is another, leaves the
state alone; an instruction whose engine reports a parity error aborts the pass; so does a record that breaks R45 … R47, and a device address
that breaks R87. -/
def Obligations.engineErrorsAbort : Prop :=
  (∀ x ∈ engineOps, ∀ (core : Fin 32) (s : State) (hw : CoreHw),
    (∀ e w, (e = x.1 ∨ (x.1 = 3 ∧ e = 4)) → ¬ s.starts core e x.2.1 w) → exec (x.2.2 core hw) s = .next s) ∧
  (∀ x ∈ engineOps, ∀ (core : Fin 32) (s : State) (w : IWord), s.starts core x.1 x.2.1 w → s.mgt.active < 2 →
    ∃ t, exec (x.2.2 core .parity) s = .next t ∧ s.passLost t core (parityKind x.1)) ∧
  (∀ (core : Fin 32) (s : State) (w : IWord), s.starts core 0 0x05 w → s.mgt.active < 2 →
    ∃ t, exec (.teOut core .second) s = .next t ∧ s.passLost t core 3) ∧
  (∀ (core : Fin 32) (s : State) (w : IWord), s.starts core 1 0x58 w → s.mgt.active < 2 →
    ∃ t, exec (.veSfu core .second) s = .next t ∧ s.passLost t core 5) ∧
  (∀ (core : Fin 32) (s : State) (w : IWord), s.starts core 0 0x01 w → s.mgt.active < 2 → (s.core core).loading = none →
    let bs := memRead s.mem (coreBase core + 128 * w.a) (128 * w.dim0)
    (recHdr bs).check bs ≠ none →
    ∃ t, exec (.teWload core .ok) s = .next t ∧ s.passLost t core 12) ∧
  (∀ (core : Fin 32) (s : State) (w : IWord), s.starts core 0 0x01 w → (s.core core).loading ≠ none →
    exec (.teWload core .ok) s = .next s) ∧
  (∀ (core : Fin 32) (s : State) (w : IWord), s.starts core 3 0xC4 w → s.mgt.active < 2 →
    badRange (s.descriptor core w).1 w.dim0 = true →
    ∃ t, exec (.dmRead core .ok) s = .next t ∧ s.passLost t core 8)

/-- R97, R98, R101 … R105, R126, R129 … R131, R136: the sequencer's ops, when the word at its PC may start. SEQ_NOP, SEQ_TOKEN_WAIT with its
tokens present and SEQ_BARRIER with empty queues move on; SEQ_LOOP opens a loop of imm[5:0] words; SEQ_TOKEN_SEND waits for every DM_WRITE;
SEQ_FIT_CHECK reports and waits; SEQ_END ends the pass. A parity error of the program store and an unlisted op abort the pass. -/
def Obligations.sequencerRuns : Prop :=
  (∀ (core : Fin 32) (s : State) (hw : CoreHw) (w : IWord), s.seqStarts core 0xF0 w → s.postOk core w → hw ≠ .parity →
    ∃ t k, exec (.seqNop core hw) s = .next t ∧ ((s.core core).advance.takeFlag w).post w = some k ∧ t = s.setCore core k.settle) ∧
  (∀ (core : Fin 32) (s : State) (hw : CoreHw) (w : IWord) (gr : Graph) (cd : Card), s.seqStarts core 0xF1 w → s.postOk core w →
    hw ≠ .parity → s.passCard core = some (gr, cd) →
    ((∀ ei ∈ maskEdges w.imm (cd.inEdges.take cd.nIn), gr.inputPresent (s.core core).frame (s.core core).copy ei = true) →
      ∃ t k, exec (.seqTokenWait core hw) s = .next t ∧ ((s.core core).advance.takeFlag w).post w = some k ∧
        t = s.setCore core k.settle) ∧
    ((∃ ei ∈ maskEdges w.imm (cd.inEdges.take cd.nIn), gr.inputPresent (s.core core).frame (s.core core).copy ei = false) →
      exec (.seqTokenWait core hw) s = .next s)) ∧
  (∀ (core : Fin 32) (s : State) (hw : CoreHw) (w : IWord) (gr : Graph) (cd : Card), s.seqStarts core 0xF2 w → s.postOk core w →
    hw ≠ .parity → s.passCard core = some (gr, cd) →
    ((∃ x ∈ (s.core core).queueDm0 ++ (s.core core).queueDm1, x.op = 0xC5) → exec (.seqTokenSend core hw) s = .next s) ∧
    ((∀ x ∈ (s.core core).queueDm0 ++ (s.core core).queueDm1, x.op ≠ 0xC5) →
      ∃ t, exec (.seqTokenSend core hw) s = .next t ∧ (t.core core).bound = [] ∧ (t.core core).run = .RUNNING ∧ s.sameData t ∧
        (∀ j : Nat, j ≠ core → t.core j = s.core j) ∧ s.sameHost t ∧ s.sameManagement t ∧
        (s.coreFenced core = true → t.graphs.tokens = s.graphs.tokens ∧ t.graphs.versions = s.graphs.versions) ∧
        (∀ ei, s.coreFenced core = false → maskEdges w.imm (cd.outEdges.take cd.nOut) = [ei] → (gr.edge ei).kind = 1 →
          s.otherDies (core / 8) = [] → t.graphs.tokens = s.graphs.tokens ++
            [{ graph := (s.core core).graph, frame := (s.core core).frame, edge := ei, copy := (s.core core).copy }]))) ∧
  (∀ (core : Fin 32) (s : State) (hw : CoreHw) (w : IWord), s.seqStarts core 0xF3 w → s.postOk core w → hw ≠ .parity →
    ∃ t k, exec (.seqLoop core hw) s = .next t ∧
      (({ (s.core core) with
          pc := (s.core core).pc + 1
          loops := { first := (s.core core).pc + 1, len := bitsN w.imm 5 0, total := w.dim0, strideA := w.dim1, strideO := w.dim2 } ::
            (s.core core).loops } : CoreState).takeFlag w).post w = some k ∧ t = s.setCore core k.settle) ∧
  (∀ (core : Fin 32) (s : State) (hw : CoreHw) (w : IWord), s.seqStarts core 0xF4 w → s.postOk core w → hw ≠ .parity →
    ((s.core core).queuesEmpty = true →
      ∃ t k, exec (.seqBarrier core hw) s = .next t ∧ ((s.core core).advance.takeFlag w).post w = some k ∧ t = s.setCore core k.settle) ∧
    ((s.core core).queuesEmpty = false → exec (.seqBarrier core hw) s = .next s)) ∧
  (∀ (core : Fin 32) (s : State) (hw : CoreHw) (w : IWord), s.seqStarts core 0xF5 w → hw ≠ .parity →
    (s.core core).queuesEmpty = true →
    let k := s.core core
    let sl := tblGet {} k.slots k.slot
    ∃ t, exec (.seqFitCheck core hw) s = .next t ∧ (t.core core).waitDecision = true ∧ (t.core core).pc = k.pc ∧ s.sameData t ∧
      (tblGet {} (t.core core).slots k.slot).first = some sl.counts ∧ s.sameRegs t ∧ s.sameHost t ∧ s.sameManagement t ∧
      (∀ j : Nat, j ≠ core → t.core j = s.core j) ∧
      t.graphs = (s.modFrame k.graph k.frame fun fr =>
        { fr with reports := fr.reports ++ [(sl.widenGroup, k.copy, k.station, sl.counts.crosses sl.ratio)] }).graphs) ∧
  (∀ (core : Fin 32) (s : State) (hw : CoreHw) (w : IWord), s.seqStarts core 0xF6 w → s.postOk core w → hw ≠ .parity →
    (s.core core).queuesEmpty = true → (s.core core).ready = [] →
    let k := s.core core
    let sl := tblGet {} k.slots k.slot
    ∃ t, exec (.seqEnd core hw) s = .next t ∧ (t.core core).run = .IDLE ∧ (t.core core).pins = [] ∧ (t.core core).loops = [] ∧
      (tblGet {} (t.core core).slots k.slot).last = sl.counts ∧
      (tblGet {} (t.core core).slots k.slot).drift = (if (sl.first.getD sl.counts).crosses sl.ratio then min 63 (sl.drift + 1) else 0) ∧
      (∀ j : Nat, j ≠ core → t.core j = s.core j)) ∧
  (∀ (core : Fin 32) (s : State) (w : IWord), s.seqStarts core 0xF6 w → (s.core core).queuesEmpty = false →
    exec (.seqEnd core .ok) s = .next s) ∧
  (∀ x ∈ sequencerOps, ∀ (core : Fin 32) (s : State) (w : IWord), s.seqStarts core x.1 w → s.mgt.active < 2 →
    ∃ t, exec (x.2 core .parity) s = .next t ∧ s.passLost t core 9) ∧
  (∀ (core : Fin 32) (s : State) (hw : CoreHw), (s.core core).run = .RUNNING → (s.core core).stopped = false →
    (s.core core).waitDecision = false → opListed (s.core core).wordAtPc.op = false → s.mgt.active < 2 →
    ∃ t, exec (.illegalOp core hw) s = .next t ∧ s.passLost t core (if hw = .parity then 9 else 10))

/-- R63, R67 … R69: the group decision. Nothing happens until every member has reported; then the frame notes the decision, once: a re-run when
a member crossed and the policy, or under WIDEN_IF_SLACK the slack, allows it; a crossing group that does not re-run is noted as skipped. -/
def Obligations.widenDecisionTaken : Prop :=
  (∀ (g : Fin 64) (f group copy : Nat) (s : State) (gr : Graph) (fr : Frame), s.graph? g = some gr → gr.frame? f = some fr →
    (∃ m ∈ gr.members group copy, ∀ r ∈ fr.reports, ¬ (r.1 = group ∧ r.2.1 = copy ∧ r.2.2.1 = m.station)) →
    exec (.widenDecision g f group copy) s = .next s) ∧
  (∀ (g : Fin 64) (f group copy : Nat) (s : State) (gr : Graph) (fr : Frame), s.graph? g = some gr → gr.frame? f = some fr →
    gr.members group copy ≠ [] → fr.withheld = false → (∀ d ∈ fr.decisions, ¬ (d.1 = group ∧ d.2.1 = copy)) →
    (∀ m ∈ gr.members group copy, s.coreFenced (gr.place m.station copy).core = false ∧
      ∃ r ∈ fr.reports, r.1 = group ∧ r.2.1 = copy ∧ r.2.2.1 = m.station) →
    let crossed := (fr.reports.filter (fun r => r.1 == group && r.2.1 == copy)).any (fun r => r.2.2.2)
    let rerun := crossed && (gr.bundle.header.policy == 0 || s.slackOk gr fr (gr.members group copy) copy)
    ∃ t, exec (.widenDecision g f group copy) s = .next t ∧ (t.frame? g f).isSome = true ∧
      (∀ fr', t.frame? g f = some fr' →
        fr'.decisions = fr.decisions ++ [(group, copy, rerun)] ∧
        fr'.widened = (if rerun then addNew fr.widened group else fr.widened) ∧
        fr'.skipped = (if crossed && !rerun then addNew fr.skipped group else fr.skipped)) ∧
      s.sameQueue t ∧ s.sameSensing t ∧ s.sameSafety t)

/-- R93 … R95, R105, R109: events of a core outside its instructions: the storm rule, the scrubbers, the core reset and the clears of the
fit-monitor totals. -/
def Obligations.coreEventsRun : Prop :=
  (∀ (core : Fin 32) (bank : Nat) (s : State), 64 < tblGet 0 (s.core core).ceBank bank → s.now ≤ (s.core core).ceSince + 1000000 →
    s.ledgerRoom →
    ∃ t, exec (.coreCeStorm core bank) s = .next t ∧ s.logged t .CORE_CE_STORM (core / 8) [core, bank] ∧
      t.graphs.tests = s.graphs.tests ++ [{ unit := core, cause := 4, at_ := s.now }] ∧ tblGet 0 (t.core core).ceBank bank = 0 ∧
      (∀ j : Nat, j ≠ core → t.core j = s.core j) ∧ s.sameData t ∧ s.sameRegs t ∧ s.sameHost t ∧ s.sameSensing t ∧ s.sameSafety t) ∧
  (∀ (core : Fin 32) (bank : Nat) (s : State), (tblGet 0 (s.core core).ceBank bank ≤ 64 ∨ (s.core core).ceSince + 1000000 < s.now) →
    exec (.coreCeStorm core bank) s = .next s) ∧
  (∀ (core : Fin 32) (hw : CoreHw) (s : State), (s.core core).run ≠ .RESET →
    ∃ t, exec (.coreScrub core false hw) s = .next t ∧ (t.core core).scrubLine = ((s.core core).scrubLine + 1) % 131072 ∧
      t.mem = s.mem ∧ t.hbmPoison = s.hbmPoison ∧ s.sameSensing t ∧ s.sameSafety t ∧ t.cache = s.cache ∧
      (hw = .ok → s.storePoison = [] → s.sameManagement t ∧ s.sameHost t ∧ t.graphs = s.graphs ∧ t.storePoison = s.storePoison ∧
        ((s.core core).scrubLine + 1 < 131072 → s.sameRegs t) ∧
        ((s.core core).scrubLine + 1 = 131072 → t.reg (ra .CORE_SCRUB_STATUS core) = s.reg (ra .CORE_SCRUB_STATUS core) + 1)) ∧
      (∀ line, hw = .ue line → s.rangePoison (coreBase core + 128 * (s.core core).scrubLine) 128 = false →
        t.storePoison = (s.markPoison (coreBase core + 128 * (s.core core).scrubLine) 128 true).storePoison ∧
        t.graphs.tests = s.graphs.tests ++ [{ unit := core, cause := 5, at_ := s.now }])) ∧
  (∀ (core : Fin 32) (hw : CoreHw) (s : State), (s.core core).run = .RESET → exec (.coreScrub core false hw) s = .next s) ∧
  (∀ (core : Fin 32) (hw : CoreHw) (s : State) (rep : Nat), s.clusterReporter core = some rep →
    ∃ t, exec (.coreScrub core true hw) s = .next t ∧ t.mem = s.mem ∧
      (t.core (core / 4 * 4)).clusterLine = ((s.core (core / 4 * 4)).clusterLine + 1) % 131072) ∧
  (∀ (core : Fin 32) (s : State), (s.core core).run ≠ .RUNNING → (s.core core).passPins = [] → (s.core core).ready = [] →
    ∃ t, exec (.coreReset core) s = .next t ∧ (t.core core).run = .IDLE ∧ (t.core core).slots = [] ∧ (t.core core).flags = [] ∧
      (t.core core).active = none ∧ (t.core core).loading = none ∧ (t.core core).queuesEmpty = true ∧
      (∀ a, coreBase core ≤ a → a < coreBase core + 0x1000000 → memGet t.mem a = memGet [] a) ∧
      (∀ a, (a < coreBase core ∨ coreBase core + 0x1000000 ≤ a) → memGet t.mem a = memGet s.mem a) ∧
      (∀ j : Nat, j ≠ core → t.core j = s.core j) ∧ s.sameRegs t ∧ s.sameHost t ∧ s.sameManagement t ∧ s.sameSensing t ∧ s.sameSafety t) ∧
  (∀ (core : Fin 32) (mgmt : Bool) (s : State),
    let i := s.fitSel core mgmt
    ∃ t, exec (.coreFitClearWiden core mgmt) s = .next t ∧
      tblGet {} (t.core core).slots i = { tblGet {} (s.core core).slots i with widenTotal := 0 } ∧
      (∀ j, j ≠ i → tblGet {} (t.core core).slots j = tblGet {} (s.core core).slots j) ∧
      (∀ j : Nat, j ≠ core → t.core j = s.core j) ∧ s.sameData t ∧ s.sameRegs t ∧ s.sameHost t ∧ s.sameManagement t) ∧
  (∀ (core : Fin 32) (mgmt : Bool) (s : State),
    let i := s.fitSel core mgmt
    ∃ t, exec (.coreFitClearSkipped core mgmt) s = .next t ∧
      tblGet {} (t.core core).slots i = { tblGet {} (s.core core).slots i with skippedTotal := 0 } ∧
      (∀ j, j ≠ i → tblGet {} (t.core core).slots j = tblGet {} (s.core core).slots j) ∧
      (∀ j : Nat, j ≠ core → t.core j = s.core j) ∧ s.sameData t ∧ s.sameRegs t ∧ s.sameHost t ∧ s.sameManagement t)

/-! ### Dataflow (spec/04_dataflow.md) -/

/-- R115 … R119, R255, R256: loading and unloading graphs. A packet that fails a check makes no graph, leaves its code in TDE_LOAD_ERR and completes with it; one that
passes makes the graph, running, with its placement and streams, and completes OK. An unload stops admission, and once no frame is open the
graph's slots, tokens and versions are gone. -/
def Obligations.graphsLoadAndUnload : Prop :=
  (∀ (link : Fin 2) (sq : Fin 64) (s : State) (p : Packet) (st : Nat), s.packet link sq 0x01 = some p → leAt p.header 17 1 ≠ 1 →
    firstBadStatus (s.loadArgs p) = some st →
    exec (.graphLoad link sq) s = .next (s.refuseLoad p { status := st, sec := 0 })) ∧
  (∀ (link : Fin 2) (sq : Fin 64) (s : State) (p : Packet), s.packet link sq 0x01 = some p → leAt p.header 17 1 ≠ 1 →
    firstBadStatus (s.loadArgs p) = none → s.liveCopy (loadCopies p) (leAt p.header 40 8) = none →
    exec (.graphLoad link sq) s = .next (s.refuseLoad p { status := Status.DATA_POISON, sec := 0 })) ∧
  (∀ (link : Fin 2) (sq : Fin 64) (s : State) (p : Packet) (a : Nat) (f : LoadFail), s.packet link sq 0x01 = some p →
    leAt p.header 17 1 ≠ 1 → firstBadStatus (s.loadArgs p) = none → s.liveCopy (loadCopies p) (leAt p.header 40 8) = some a →
    s.loadFail p (s.image a) (s.image a).bundle = some f →
    ∃ t, exec (.graphLoad link sq) s = .next t ∧ t.graphs = s.graphs ∧ t.cores = s.cores ∧ s.sameData t ∧ t.cache = s.cache ∧
      t.hbm = s.hbm ∧ s.sameSensing t ∧ s.sameSafety t ∧ (digestOk (s.image a) = false → s.ledgerRoom →
        s.logged t .BUNDLE_DIGEST (stackOf a) [leAt p.header 16 1])) ∧
  (∀ (s : State) (p : Packet) (f : LoadFail),
    let d := stackOf (leAt p.header 24 8) % 4
    let t := s.refuseLoad p f
    t.graphs = s.graphs ∧ t.cores = s.cores ∧ s.sameData t ∧ s.sameManagement t ∧
    t = (s.setReg (ra .TDE_LOAD_ERR d) (word f.code)).takeFinish p f.status (toLe 4 f.code ++ toLe 1 d)) ∧
  (∀ (link : Fin 2) (sq : Fin 64) (s : State) (p : Packet) (a : Nat), s.packet link sq 0x01 = some p → leAt p.header 17 1 ≠ 1 →
    firstBadStatus (s.loadArgs p) = none → s.liveCopy (loadCopies p) (leAt p.header 40 8) = some a →
    s.loadFail p (s.image a) (s.image a).bundle = none →
    let g := leAt p.header 16 1
    let b := (s.image a).bundle
    ∃ t, ∃ u : State, exec (.graphLoad link sq) s = .next t ∧ t = u.takeFinish p Status.OK ∧
      (∃ gr, u.graph? g = some gr ∧ gr.state = .running ∧ gr.frames = [] ∧ gr.nextFrame = 0 ∧ gr.bundle = b ∧
        gr.places = b.cards.map (b.placeCard s.coreAlive) ∧ gr.streams = b.makeStreams gr.places ∧ gr.waiter = none ∧
        gr.unplaceable = !(gr.places.all (·.placed)) ∧ gr.digest = s.image a 8 32 ∧ gr.loadedAt = s.now) ∧
      (∀ n : Nat, n ≠ g → u.graph? n = s.graph? n) ∧ u.cache = s.cache ∧ s.sameSensing u ∧ u.lan = s.lan ∧ u.hif.sqs = s.hif.sqs ∧
      u.hif.cqs = s.hif.cqs) ∧
  (∀ (link : Fin 2) (sq : Fin 64) (s : State) (p : Packet) (gr : Graph), s.packet link sq 0x01 = some p → leAt p.header 17 1 = 1 →
    s.graph? (leAt p.header 16 1) = some gr → gr.state ≠ .unloading → p.argsOnly 18 = true →
    let g := leAt p.header 16 1
    ∃ t, exec (.graphUnload link sq) s = .next t ∧
      (∃ gr', t.graph? g = some gr' ∧ gr'.state = .unloading ∧ gr'.waiter = some p ∧ gr'.frames = gr.frames) ∧
      (∀ r ∈ t.graphs.requests, r.graph ≠ g) ∧ (∀ n : Nat, n ≠ g → t.graph? n = s.graph? n) ∧ s.sameData t ∧ t.cores = s.cores ∧
      t.cache = s.cache ∧ t.hbm = s.hbm ∧ t.net = s.net ∧ s.sameSensing t ∧ s.sameSafety t ∧ s.sameManagement t) ∧
  (∀ (link : Fin 2) (sq : Fin 64) (s : State) (p : Packet), s.packet link sq 0x01 = some p → leAt p.header 17 1 = 1 →
    s.graph? (leAt p.header 16 1) = none → exec (.graphUnload link sq) s = .next (s.takeFinish p Status.BAD_PACKET)) ∧
  (∀ (g : Fin 64) (s : State) (gr : Graph), s.graph? g = some gr → gr.state = .unloading → gr.frames = [] →
    ∃ t, exec (.graphUnloadDone g) s = .next t ∧ t.graph? g = none ∧ (∀ n : Nat, n ≠ g → t.graph? n = s.graph? n) ∧
      (∀ r ∈ t.graphs.requests, r.graph ≠ g) ∧ (∀ x ∈ t.graphs.tokens, x.graph ≠ g) ∧ (∀ v ∈ t.graphs.versions, v.graph ≠ g) ∧
      (∀ e ∈ t.cores, ∀ x ∈ e.2.slots, x.2.valid = true → x.2.graph ≠ g) ∧ s.sameData t ∧ s.sameSensing t ∧ s.sameManagement t ∧
      (∀ p, gr.waiter = some p → ∃ u : State, t = u.finish p Status.OK)) ∧
  (∀ (g : Fin 64) (s : State) (gr : Graph), s.graph? g = some gr → (gr.state ≠ .unloading ∨ gr.frames ≠ []) →
    exec (.graphUnloadDone g) s = .next s)

/-- R128, R168, R169, R172, R323, R450: asking for a frame and admitting it. A GRAPH_RUN or SEQ_STEP for a graph that cannot take one completes BAD_PACKET, else it
waits, holding its ring; the oldest request of a graph opens the next frame once fewer than frames_in_flight are open. -/
def Obligations.framesAdmitted : Prop :=
  (∀ (link : Fin 2) (sq : Fin 64) (s : State) (p : Packet), s.packet link sq 0x02 = some p →
    let g := leAt p.header 16 1
    ((s.runBad g = true ∨ p.argsOnly 17 = false) → exec (.graphRun link sq) s = .next (s.takeFinish p Status.BAD_PACKET)) ∧
    (s.runBad g = false → p.argsOnly 17 = true → p.link = link → p.sq = sq →
      ∃ t, exec (.graphRun link sq) s = .next t ∧
        t.graphs = { s.graphs with requests := s.graphs.requests ++
          [{ graph := g, link := p.link, sq := p.sq, tag := p.tag, epoch := p.epoch }] } ∧
        (t.sq link sq).run = .HELD ∧ (t.sq link sq).heldType = 2 ∧ (t.sq link sq).taken = (s.sq link sq).taken ∧
        t.hif.cqs = s.hif.cqs ∧ s.sameRegs t ∧ s.sameData t ∧ t.cores = s.cores ∧ t.cache = s.cache ∧ s.sameSensing t ∧
        s.sameSafety t ∧ s.sameManagement t ∧ s.sentNothing t)) ∧
  (∀ (link : Fin 2) (sq : Fin 64) (s : State) (p : Packet), s.packet link sq 0x07 = some p →
    let g := leAt p.payload 0 1
    (stepBad p = true → exec (.seqStep link sq) s = .next (s.takeFinish p Status.BAD_PACKET)) ∧
    (stepBad p = false → leAt p.payload 2 2 = 0 → exec (.seqStep link sq) s = .next (s.takeFinish p Status.OK)) ∧
    (stepBad p = false → leAt p.payload 2 2 ≠ 0 → s.runBad g = true →
      exec (.seqStep link sq) s = .next (s.takeFinish p Status.BAD_PACKET)) ∧
    (stepBad p = false → leAt p.payload 2 2 ≠ 0 → s.runBad g = false → p.link = link → p.sq = sq →
      ∃ t, exec (.seqStep link sq) s = .next t ∧
        t.graphs = { s.graphs with requests := s.graphs.requests ++
          [{ graph := g, link := p.link, sq := p.sq, tag := p.tag, epoch := p.epoch, steps := some (stepEntries p)
             cacheTimeoutMs := if leAt p.payload 4 2 = 0 then 20 else leAt p.payload 4 2 }] } ∧
        (t.sq link sq).run = .HELD ∧ (t.sq link sq).heldType = 7 ∧ t.hif.cqs = s.hif.cqs ∧ s.sameRegs t ∧ s.sameData t ∧
        t.cache = s.cache ∧ s.sameManagement t ∧ s.sentNothing t)) ∧
  (∀ (g : Fin 64) (s : State) (gr : Graph) (r : FrameReq), s.graph? g = some gr → s.graphs.requests.find? (fun r => r.graph == g.val) = some r →
    gr.state = .running → s.graphs.folding = false → s.shadeAdmits gr = true → gr.frames.length < gr.bundle.header.inFlight →
    r.setFrame = none → r.steps = none → gr.unplaceable = false → r.invalid = false →
    ∃ t, exec (.frameAdmit g) s = .next t ∧
      (∃ gr', t.graph? g = some gr' ∧ gr'.frames = insertBy (·.num) (r.frame gr.nextFrame s.now none) gr.frames ∧
        gr'.nextFrame = gr.nextFrame + 1 ∧ gr'.admittedAt = some s.now ∧ gr'.streams = gr.streams) ∧
      t.graphs.requests.length + 1 = s.graphs.requests.length ∧ (∀ n : Nat, n ≠ g → t.graph? n = s.graph? n) ∧ s.sameData t ∧
      t.cores = s.cores ∧ t.cache = s.cache ∧ t.hbm = s.hbm ∧ s.sameSensing t ∧ s.sameSafety t ∧ s.sameManagement t ∧
      (r.sq = 0xFF → s.sameHost t ∧ s.sameRegs t)) ∧
  (∀ (g : Fin 64) (s : State) (gr : Graph) (r : FrameReq) (es : List StepEntry), s.graph? g = some gr →
    s.graphs.requests.find? (fun r => r.graph == g.val) = some r → gr.state = .running → s.graphs.folding = false →
    s.shadeAdmits gr = true → gr.frames.length < gr.bundle.header.inFlight → r.setFrame = none → r.steps = some es →
    s.stepWaits es = false → (s.checkEntries gr es).any (·.live) = false →
    ∃ u : State, exec (.frameAdmit g) s = .next (u.refuseStep r (s.checkEntries gr es)) ∧ u.graphs.graphs = s.graphs.graphs ∧
      u.cache = s.cache ∧ s.sameHost u ∧ s.sameData u) ∧
  (∀ (g : Fin 64) (s : State) (gr : Graph), s.graph? g = some gr →
    (gr.state ≠ .running ∨ s.graphs.folding = true ∨ s.shadeAdmits gr = false ∨ gr.bundle.header.inFlight ≤ gr.frames.length) →
    exec (.frameAdmit g) s = .next s)

/-- R125 … R127, R129 … R131, R170: firing, tiles, credits and tokens. A station fires once for a frame, when its inputs and gates are present; the tile that is next in
order takes the next receive slot; a credit comes back to the producer; a token is noted with its frame. What breaks these rules is
dropped and reported. -/
def Obligations.dataflowMoves : Prop :=
  (∀ (g : Fin 64) (f station copy : Nat) (s : State) (gr : Graph) (fr : Frame) (cd : Card), s.graph? g = some gr →
    gr.frame? f = some fr → gr.card? station copy = some cd → gr.fireReady fr cd copy = true → s.graphs.folding = false →
    let pl := gr.place station copy
    pl.placed = true → s.coreFenced pl.core = false →
    ∃ t, exec (.stationFire g f station copy [] false) s = .next t ∧
      t.core pl.core = CoreState.settle { s.core pl.core with ready := (s.core pl.core).ready ++
        [{ frame := fr.num, rank := cd.rank, station := cd.station, copy := copy, slot := pl.slot, graph := g, firedAt := s.now, pins := [] }] } ∧
      (∃ gr' fr', t.graph? g = some gr' ∧ gr'.frame? f = some fr' ∧ fr'.fired = fr.fired ++ [(cd.station, copy)] ∧
        gr'.streams = gr.streams) ∧
      t.reg (ra .TDE_FIRE_COUNT (pl.core / 8)) = s.reg (ra .TDE_FIRE_COUNT (pl.core / 8)) + 1 ∧
      (∀ j : Nat, j ≠ pl.core → t.core j = s.core j) ∧ s.sameData t ∧ t.cache = s.cache ∧ t.hbm = s.hbm ∧ s.sameHost t ∧
      s.sameSensing t ∧ s.sameSafety t ∧ s.sameManagement t) ∧
  (∀ (g : Fin 64) (f station copy : Nat) (attn : List AttnLayer) (s : State) (gr : Graph) (fr : Frame) (cd : Card), s.graph? g = some gr →
    gr.frame? f = some fr → gr.card? station copy = some cd →
    ((gr.fireReady fr cd copy = false ∨ (gr.place station copy).placed = false ∨ s.coreFenced (gr.place station copy).core = true ∨
        s.graphs.folding = true) → exec (.stationFire g f station copy attn false) s = .next s) ∧
    (gr.fireReady fr cd copy = true → (gr.place station copy).placed = true → s.coreFenced (gr.place station copy).core = false →
      s.graphs.folding = false → (attn.foldl (startLayer g f) s).layersDone g f attn = false →
      exec (.stationFire g f station copy attn false) s = .next (attn.foldl (startLayer g f) s))) ∧
  (∀ (g : Fin 64) (ei copy : Nat) (s : State) (gr : Graph) (st : Stream) (tile : Tile) (rest : List Tile), s.graph? g = some gr →
    gr.stream? ei copy = some st → st.inFlight = tile :: rest →
    let e := gr.edge ei
    let core := (gr.place e.consumer copy).core
    tileDisagrees g ei e tile = false → gr.tileUnwanted e copy tile.frame = false → st.nextInOrder tile = true →
    (e.consumer ≠ 0xFFFF → s.coreFenced core = false →
      ∃ t, exec (.tileArrive g ei copy []) s = .next t ∧
        t.mem = (s.writeMem (coreBase core + 128 * (st.rxLine + st.nextSlot * e.slotLines)) (tile.header ++ tile.body) tile.poisoned).mem ∧
        (∃ gr' st', t.graph? g = some gr' ∧ gr'.stream? ei copy = some st' ∧ st'.inFlight = rest ∧ st'.credits = st.credits ∧
          st'.nextSlot = (st.nextSlot + 1) % max 1 st.depth ∧
          st'.rx = st.rx ++ [{ slot := st.nextSlot, frame := tile.frame, seq := tile.seq, fmt := tile.fmt, last := tile.last
                               widened := tile.widened, poisoned := tile.poisoned, rows := tile.rows, cols := tile.cols
                               groupLen := tile.groupLen, scaleFmt := tile.scaleFmt }]) ∧
        t.cores = s.cores ∧ t.cache = s.cache ∧ s.sameRegs t ∧ s.sameHost t ∧ s.sameSensing t ∧ s.sameSafety t ∧ s.sameManagement t) ∧
    (e.consumer = 0xFFFF →
      ∃ t, exec (.tileArrive g ei copy []) s = .next t ∧ s.sameData t ∧ t.cores = s.cores ∧ s.sameRegs t ∧ s.sameHost t ∧
        s.sameManagement t ∧
        (∃ gr' st', t.graph? g = some gr' ∧ gr'.stream? ei copy = some st' ∧ st'.inFlight = rest ∧
          st'.creditsBack = st.creditsBack + 1 ∧
          ∀ fr, gr.frame? tile.frame = some fr → ∃ fr', gr'.frame? tile.frame = some fr' ∧ fr'.outTiles = fr.outTiles ++ [tile]))) ∧
  (∀ (g : Fin 64) (ei copy : Nat) (s : State) (gr : Graph) (st : Stream) (tile : Tile) (rest : List Tile), s.graph? g = some gr →
    gr.stream? ei copy = some st → st.inFlight = tile :: rest →
    let e := gr.edge ei
    let core := (gr.place e.consumer copy).core
    (e.consumer = 0xFFFF ∨ s.coreFenced core = false) → core < 32 →
    (tileDisagrees g ei e tile = true ∨ gr.tileUnwanted e copy tile.frame = true) →
    ∃ t, exec (.tileArrive g ei copy []) s = .next t ∧ s.sameData t ∧ t.cores = s.cores ∧ s.sameManagement t ∧
      (∃ gr' st', t.graph? g = some gr' ∧ gr'.stream? ei copy = some st' ∧ st'.inFlight = rest ∧ st'.rx = st.rx ∧
        st'.creditsBack = st.creditsBack + 1) ∧
      (tileDisagrees g ei e tile = true → gr.bundle.edges.length ≤ tile.stream →
        (t.reg (ra .TDE_ERR_STATUS (core / 8))).getLsbD 0 = true)) ∧
  (∀ (g : Fin 64) (ei copy : Nat) (hdr : List Byte) (s : State) (gr : Graph) (st : Stream), s.graph? g = some gr →
    gr.stream? ei copy = some st → st.inFlight = [] → exec (.tileArrive g ei copy hdr) s = .next s) ∧
  (∀ (g : Fin 64) (ei copy : Nat) (s : State) (gr : Graph) (st : Stream), s.graph? g = some gr → gr.stream? ei copy = some st →
    st.credits < st.depth →
    ∃ t, exec (.creditReturn g ei copy) s = .next t ∧
      (∃ gr', t.graph? g = some gr' ∧ gr'.stream? ei copy =
        some (Stream.pump { st with creditsBack := st.creditsBack - 1, credits := st.credits + 1 }) ∧ gr'.frames = gr.frames) ∧
      s.sameData t ∧ t.cores = s.cores ∧ t.cache = s.cache ∧ s.sameRegs t ∧ s.sameHost t ∧ s.sameManagement t ∧ s.sameSensing t ∧
      s.sameSafety t) ∧
  (∀ (g : Fin 64) (ei copy : Nat) (s : State) (gr : Graph) (st : Stream), s.graph? g = some gr → gr.stream? ei copy = some st →
    st.depth ≤ st.credits → (gr.place (gr.edge ei).producer copy).core < 32 →
    let c := (gr.place (gr.edge ei).producer copy).core
    (s.core c).run ≠ .RUNNING →
    ∃ t, exec (.creditReturn g ei copy) s = .next t ∧ (t.reg (ra .TDE_ERR_STATUS (c / 8))).getLsbD 2 = true ∧ t.cores = s.cores ∧
      (∃ gr' st', t.graph? g = some gr' ∧ gr'.stream? ei copy = some st' ∧ st'.creditsBack = st.creditsBack - 1) ∧ s.sameData t) ∧
  (∀ (g : Fin 64) (ei copy : Nat) (s : State) (x : Token) (rest : List Token),
    takeFirst (fun t : Token => t.graph == g && t.edge == ei && t.copy == copy) s.graphs.tokens = some (x, rest) →
    ∃ t, exec (.tokenArrive g ei copy) s = .next t ∧ t.graphs.tokens = rest ∧
      (∀ gr fr, s.graph? g = some gr → gr.frame? x.frame = some fr → ∃ gr' fr', t.graph? g = some gr' ∧
        gr'.frame? x.frame = some fr' ∧ (fr.withheld = false → fr' = { fr with tokens := addNew fr.tokens (ei, copy) }) ∧
        (fr.withheld = true → fr' = fr)) ∧
      s.sameData t ∧ t.cores = s.cores ∧ t.cache = s.cache ∧ s.sameRegs t ∧ s.sameHost t ∧ s.sameSensing t ∧ s.sameSafety t ∧
      s.sameManagement t)

/-- R136, R137, R153: buffer versions. A new version reaches a die, which acknowledges it; the last acknowledgement releases what waited for it; one that
stays out for 100 µs is reported as a link fault. -/
def Obligations.versionsMove : Prop :=
  (∀ (g : Fin 64) (b : Nat) (d : Fin 4) (s : State) (v : VersionMove),
    s.graphs.versions.find? (fun v => v.graph == g.val && v.buffer == b && v.toSend.contains d.val) = some v →
    ∃ t, exec (.versionUpdate g b d) s = .next t ∧ t.graphs.versions.length = s.graphs.versions.length ∧
      { v with toSend := v.toSend.filter (· != d.val), arrived := v.arrived ++ [d.val] } ∈ t.graphs.versions ∧
      t.graphs.graphs = s.graphs.graphs ∧ t.graphs.tokens = s.graphs.tokens ∧ s.sameData t ∧ t.cores = s.cores ∧ t.cache = s.cache ∧
      s.sameRegs t ∧ s.sameHost t ∧ s.sameSensing t ∧ s.sameSafety t ∧ s.sameManagement t ∧
      (v.version ≠ 0 → t.hbm = s.hbm) ∧
      (v.version = 0 → ∀ l ∈ (tblGet {} t.hbm.rcs d).lines, ¬ (l.graph = g ∧ l.buffer = b))) ∧
  (∀ (g : Fin 64) (b : Nat) (d : Fin 4) (s : State),
    s.graphs.versions.find? (fun v => v.graph == g.val && v.buffer == b && v.toSend.contains d.val) = none →
    exec (.versionUpdate g b d) s = .next s) ∧
  (∀ (g : Fin 64) (b : Nat) (d : Fin 4) (s : State) (v : VersionMove) (rest : List VersionMove),
    takeFirst (fun v : VersionMove => v.graph == g.val && v.buffer == b && v.toAck.contains d.val && v.arrived.contains d.val)
      s.graphs.versions = some (v, rest) →
    ∃ t, exec (.versionAck g b d) s = .next t ∧ s.sameData t ∧ t.cores = s.cores ∧ t.cache = s.cache ∧ t.hbm = s.hbm ∧
      t.graphs.graphs = s.graphs.graphs ∧ s.sameSensing t ∧ s.sameSafety t ∧ s.sameManagement t ∧
      ((∃ x ∈ v.toAck, x ≠ d.val) → t.graphs.tokens = s.graphs.tokens ∧ s.sameHost t ∧
        { v with toAck := v.toAck.filter (· != d.val), arrived := v.arrived.filter (· != d.val) } ∈ t.graphs.versions) ∧
      ((∀ x ∈ v.toAck, x = d.val) → t.graphs.versions = rest ∧
        (∀ x, v.then_ = .token x → t.graphs.tokens = s.graphs.tokens ++ [x] ∧ s.sameHost t) ∧
        (∀ id p, v.then_ = .put id → takeFirst (fun (x : Nat × Packet × Nat) => x.1 == id) s.hif.puts = some ((id, p, 1), []) →
          ∃ u : State, t = u.finish p Status.OK ∧ u.hif.puts = []))) ∧
  (∀ (g : Fin 64) (b : Nat) (d : Fin 4) (s : State) (v : VersionMove), s.graphs.versions.find? (fun v => v.graph == g.val && v.buffer == b &&
      v.toAck.contains d.val && v.since + 100 ≤ s.now) = some v → v.home < 4 →
    ∃ t, exec (.versionTimeout g b d) s = .next t ∧ (t.reg (ra .TDE_ERR_STATUS v.home)).getLsbD 4 = true ∧
      t.net.linkTests = addNew s.net.linkTests (4 * v.home + s.route v.home d) ∧ t.graphs = s.graphs ∧ s.sameData t ∧ t.cores = s.cores ∧
      s.sameSensing t ∧ s.sameSafety t ∧ s.sameManagement t) ∧
  (∀ (g : Fin 64) (b : Nat) (d : Fin 4) (s : State), s.graphs.versions.find? (fun v => v.graph == g.val && v.buffer == b &&
      v.toAck.contains d.val && v.since + 100 ≤ s.now) = none → exec (.versionTimeout g b d) s = .next s)

/-- R26, R138, R139, R141, R257, R389: a frame's end. After frame_timeout_ms a frame is INVALID and its unfinished stations are stalls; the lowest open frame
of a graph completes once it may, with its status, on its rings; else nothing happens. -/
def Obligations.framesComplete : Prop :=
  (∀ (g : Fin 64) (f : Nat) (s : State) (gr : Graph) (fr : Frame), s.graph? g = some gr → gr.frame? f = some fr →
    (fr.timedOut = false → fr.openedAt + 1000 * gr.bundle.header.timeoutMs ≤ s.now →
      ∃ t, exec (.frameTimeout g f) s = .next t ∧
        (∃ gr' fr', t.graph? g = some gr' ∧ gr'.frame? f = some fr' ∧ fr'.timedOut = true ∧ fr'.withheld = true ∧
          Status.INVALID ∈ fr'.codes) ∧
        (fr.running = [] → s.ledgerRoom → t.graphs.tests = s.graphs.tests) ∧ s.sameSensing t ∧ s.sameSafety t ∧ t.net = s.net) ∧
    ((fr.timedOut = true ∨ s.now < fr.openedAt + 1000 * gr.bundle.header.timeoutMs) →
      exec (.frameTimeout g f) s = .next s)) ∧
  (∀ (g : Fin 64) (s : State) (gr : Graph) (fr : Frame) (rest : List Frame), s.graph? g = some gr → gr.frames = fr :: rest →
    s.releasable gr fr = true →
    ∃ t, exec (.frameRelease g) s = .next t ∧
      (∃ gr', t.graph? g = some gr' ∧ gr'.frames.map (·.num) = (gr.frames.map (·.num)).filter (· != fr.num) ∧
        gr'.lastDone = fr.num ∧ gr'.doneCount = fr.num + 1 ∧
        (usable fr.status = true → gr'.delivered = gr.delivered + 1 ∧ gr'.withheld = gr.withheld ∧
          gr'.lastUsable = some (fr.num, s.now)) ∧
        (usable fr.status = false → gr'.delivered = gr.delivered ∧ gr'.withheld = min (gr.withheld + 1) 0xFFFFFFFF)) ∧
      (∀ r ∈ fr.rings s gr, (s.cq r.1 r.2).enabled = true → (s.link r.1).lost = false → (fr.sq ≠ 0xFF → fr.epoch = (s.link r.1).epoch) →
        ∃ c ∈ (t.cq r.1 r.2).queue, c.kind = 0x80 ∧ c.frame = fr.num ∧ c.graph = gr.num ∧ c.status = fr.status ∧ c.tag = fr.tag)) ∧
  (∀ (g : Fin 64) (s : State) (gr : Graph), s.graph? g = some gr →
    (∀ fr, gr.frames.head? = some fr → s.releasable gr fr = false) → exec (.frameRelease g) s = .next s) ∧
  (∀ (s : State) (gr : Graph) (fr : Frame), gr.bundle.header.safety = 1 → fr.withheld = false →
    (s.releasable gr fr = true ↔ fr.handedOver = true ∧ ∀ l, l ∈ [0, 1] → s.judges l gr fr = true → (fr.verdictOf l).back = true))

/-- R143 … R146, R152, R223, R265, R419: fences and folds. A fence withholds the open frames of every graph on the unit and starts a fold; FOLD_DONE ends it and counts the
placement; a fence is lifted only after the unit's tests have passed; RETURN_HOME stops a graph's admission until its frames have completed, and its stations
are home again. -/
def Obligations.fencesFold : Prop :=
  (∀ (u : FenceUnit) (s : State), s.unitFenced u = false →
    ∃ t, exec (.fenceSet u) s = .next t ∧ t.unitFenced u = true ∧ t.graphs.folding = true ∧
      (∀ gr ∈ s.graphs.graphs, gr.onUnit u = true → ∀ gr', t.graph? gr.num = some gr' → ∀ fr ∈ gr'.frames, fr.withheld = true) ∧
      (∀ c : Nat, unitHas u c = true → t.coreFenced c = true) ∧ s.sin = t.sin ∧ t.mirror = s.mirror ∧ t.thermal = s.thermal ∧
      t.pins = s.pins) ∧
  (∀ (u : FenceUnit) (s : State), s.unitFenced u = true → exec (.fenceSet u) s = .next s) ∧
  (∀ s : State, s.graphs.folding = true →
    ∃ t, exec .foldDone s = .next t ∧ t.graphs.folding = false ∧
      t.graphs.graphs = s.graphs.graphs.map (fun g => { g with placement := (g.placement + 1) % 2 ^ 32 }) ∧
      (s.ledgerRoom → s.logged t .FOLD_DONE 0xFF []) ∧
      (s.ledgerRoom → ∀ d : Fin 4, s.dieFenced d = false → t.reg (ra .TDE_FOLD_COUNT d) = satInc (s.reg (ra .TDE_FOLD_COUNT d)) 1) ∧
      s.sameData t ∧ t.cores = s.cores ∧ t.cache = s.cache ∧ s.sameSensing t ∧ s.sameSafety t) ∧
  (∀ s : State, s.graphs.folding = false → exec .foldDone s = .next s) ∧
  (∀ (c : Fin 32) (s : State), c.val ∈ s.graphs.fencedCores → c.val ∈ s.graphs.liftable → s.graphs.folding = false →
    (∀ gr ∈ s.graphs.graphs, gr.unplaceable = false) →
    ∃ t, exec (.fenceLift (.core c)) s = .next t ∧ t.graphs.fencedCores = s.graphs.fencedCores.filter (· != c.val) ∧
      (t.core c).run = .IDLE ∧ (t.core c).slots = [] ∧ (∀ d, t.dieFenced d = s.dieFenced d) ∧ s.sameSensing t ∧ s.sameSafety t) ∧
  (∀ (d : Fin 4) (s : State), d.val ∈ s.graphs.fencedDies → 32 + d.val ∈ s.graphs.liftable → s.graphs.folding = false →
    (∀ x ∈ s.recovery.dieResets, x.1 ≠ d.val) →
    ∃ t, exec (.fenceLift (.die d)) s = .next t ∧ t.dieFenced d = true ∧ (d.val, s.now, false) ∈ t.recovery.dieResets ∧
      ((∀ k : Fin 4, s.catRegion k = none) → (∀ a, a < hbmEnd → memGet t.mem a = memGet s.mem a) ∧ t.hbmPoison = s.hbmPoison) ∧ s.sameSensing t ∧ t.lan = s.lan) ∧
  (∀ (u : FenceUnit) (s : State), (s.unitFenced u = false ∨ s.graphs.folding = true ∨ ∃ x ∈ unitTests u, x ∉ s.graphs.liftable) →
    exec (.fenceLift u) s = .next s) ∧
  (∀ (link : Fin 2) (sq : Fin 64) (s : State) (p : Packet), s.packet link sq 0x0B = some p → leAt p.header 16 1 ≠ 0 →
    let g := leAt p.header 17 1
    ((leAt p.header 16 1 ≠ 1 ∨ p.argsOnly 20 = false ∨ s.graph? g = none) →
      exec (.returnHome link sq) s = .next (s.takeFinish p Status.BAD_PACKET)) ∧
    (∀ gr, leAt p.header 16 1 = 1 → p.argsOnly 20 = true → s.graph? g = some gr →
      ((gr.state ≠ .running ∨ s.homeFenced gr = true) → exec (.returnHome link sq) s = .next (s.takeFinish p Status.NOT_READY)) ∧
      (gr.state = .running → s.homeFenced gr = false →
        ∃ t, exec (.returnHome link sq) s = .next t ∧
          (∃ gr', t.graph? g = some gr' ∧ gr'.state = .paused ∧ gr'.waiter = some p ∧ gr'.frames = gr.frames ∧ gr'.places = gr.places) ∧
          (∀ n : Nat, n ≠ g → t.graph? n = s.graph? n) ∧ t.hif = (s.take p).hif ∧ s.sameData t ∧ t.cores = s.cores ∧ t.cache = s.cache ∧
          s.sameSensing t ∧ s.sameSafety t ∧ s.sameManagement t ∧ s.sentNothing t))) ∧
  (∀ (g : Fin 64) (s : State) (gr : Graph), s.graph? g = some gr →
    ((gr.state ≠ .paused ∨ gr.frames ≠ [] ∨ s.graphs.folding = true) → exec (.returnHomeResume g) s = .next s) ∧
    (gr.state = .paused → gr.frames = [] → s.graphs.folding = false → s.homeFenced gr = true →
      ∃ t, exec (.returnHomeResume g) s = .next t ∧
        (∃ gr', t.graph? g = some gr' ∧ gr'.state = .running ∧ gr'.waiter = none ∧ gr'.places = gr.places) ∧
        (∀ p, gr.waiter = some p → ∃ u : State, t = u.finish p Status.NOT_READY) ∧ s.sameData t ∧ t.cores = s.cores) ∧
    (gr.state = .paused → gr.frames = [] → s.graphs.folding = false → s.homeFenced gr = false →
      ∃ t, exec (.returnHomeResume g) s = .next t ∧
        (∃ gr', t.graph? g = some gr' ∧ gr'.state = .running ∧ gr'.waiter = none ∧
          gr'.places = gr.bundle.cards.map (gr.bundle.placeAt · 0) ∧ gr'.placement = (gr.placement + 1) % 2 ^ 32) ∧
        (∀ p, gr.waiter = some p → ∃ u : State, t = u.finish p Status.OK) ∧ s.sameSensing t))

/-- R147, R148, R265, R398 … R401: stalls and targeted self-tests. A stall, reported by the host or by the pass timer, is logged and asks for a test; a test takes its
core out of service; a result counts a glint or makes a lasting fault with its fence. -/
def Obligations.stallsAndTests : Prop :=
  (∀ (link : Fin 2) (sq : Fin 64) (s : State) (p : Packet), s.packet link sq 0x0B = some p → leAt p.header 16 1 = 0 →
    let c := leAt p.header 18 2
    ((p.argsOnly 20 = false ∨ 31 < c) → exec (.stallReport link sq) s = .next (s.takeFinish p Status.BAD_PACKET)) ∧
    (p.argsOnly 20 = true → c ≤ 31 → s.ledgerRoom → ∃ t, ∃ u : State, exec (.stallReport link sq) s = .next t ∧ t = u.finish p Status.OK ∧
      s.logged t .STATION_STALL (c / 8) [c, 2] ∧ s.sameData t ∧ t.cores = s.cores ∧ t.cache = s.cache ∧ s.sameSensing t ∧ s.sameSafety t ∧
      (s.coreFenced c = false → t.graphs = { s.graphs with tests := s.graphs.tests ++ [{ unit := c, cause := 0, at_ := s.now }] }) ∧
      (s.coreFenced c = true → t.graphs = s.graphs))) ∧
  (∀ (c : Fin 32) (s : State) (gr : Graph) (cd : Card), s.passCard c = some (gr, cd) → (s.core c).run = .RUNNING →
    (s.core c).firedAt + cd.passTimeout ≤ s.now → (∀ t ∈ s.graphs.tests ++ s.graphs.testing, ¬ (t.unit = c ∧ t.cause = 0)) →
    s.ledgerRoom → s.coreFenced c = false →
    ∃ t, exec (.passTimeout c) s = .next t ∧ s.logged t .STATION_STALL (c / 8) [c, 0] ∧
      t.graphs.tests = s.graphs.tests ++ [{ unit := c, cause := 0, at_ := s.now }] ∧
      t.reg (ra .TDE_STALL_COUNT (c / 8)) = satInc (s.reg (ra .TDE_STALL_COUNT (c / 8))) 1 ∧
      s.sameData t ∧ t.cores = s.cores ∧ t.cache = s.cache ∧ s.sameHost t ∧ s.sameSensing t ∧ s.sameSafety t) ∧
  (∀ (c : Fin 32) (s : State) (gr : Graph) (cd : Card), s.passCard c = some (gr, cd) →
    ((s.core c).run ≠ .RUNNING ∨ s.now < (s.core c).firedAt + cd.passTimeout) → exec (.passTimeout c) s = .next s) ∧
  (∀ (u : Fin 42) (s : State), (s.graphs.folding = true ∨ ∃ t ∈ s.graphs.testing, t.unit = u) →
    exec (.targetedSelftest u) s = .next s) ∧
  (∀ (u : Fin 42) (s : State) (q : TestReq) (rest : List TestReq), s.graphs.folding = false → (∀ t ∈ s.graphs.testing, t.unit ≠ u) →
    takeFirst (fun (t : TestReq) => t.unit == u.val) s.graphs.tests = some (q, rest) →
    ∃ t, exec (.targetedSelftest u) s = .next t ∧ t.graphs.tests = rest ∧ t.graphs.testing = s.graphs.testing ++ [q] ∧
      (u.val < 32 → (t.core u).run = .SELFTEST ∧ (t.core u).testHold = true ∧ (t.core u).testResult = 3) ∧
      (32 ≤ u.val → t.cores = s.cores ∧ s.sameData t ∧ s.sameRegs t ∧ s.sameHost t) ∧ s.sameSensing t ∧ s.sameSafety t) ∧
  (∀ (u : Fin 42) (failed : Option (Nat × Nat)) (s : State), (∀ t ∈ s.graphs.testing, t.unit ≠ u) →
    exec (.selftestDone u failed) s = .next s) ∧
  (∀ (u : Fin 42) (s : State) (q : TestReq) (rest : List TestReq),
    takeFirst (fun (t : TestReq) => t.unit == u.val) s.graphs.testing = some (q, rest) → q.cause ≠ 2 → q.cause ≠ 6 → s.ledgerRoom →
    ((tblGet [] s.lan.glints u ++ [s.lan.checked]).filter (fun x => s.lan.checked < x + 1000)).length < 3 →
    ∃ t, exec (.selftestDone u none) s = .next t ∧ t.graphs.testing = rest ∧ s.logged t .GLINT 0xFF [u] ∧
      tblGet [] t.lan.glints u = (tblGet [] s.lan.glints u ++ [s.lan.checked]).filter (fun x => s.lan.checked < x + 1000) ∧
      (u.val < 32 → (t.core u).testResult = 1 ∧ (t.core u).testHold = false) ∧ s.sameData t ∧ s.sameRegs t ∧ s.sameHost t ∧
      s.sameSensing t) ∧
  (∀ (u : Fin 42) (s : State) (q : TestReq) (rest : List TestReq),
    takeFirst (fun (t : TestReq) => t.unit == u.val) s.graphs.testing = some (q, rest) → q.cause = 6 →
    ∃ t, exec (.selftestDone u none) s = .next t ∧ t.graphs.testing = rest ∧ t.graphs.liftable = addNew s.graphs.liftable u.val ∧
      s.sameManagement t ∧ s.sameData t) ∧
  (∀ (u : Fin 42) (s : State) (q : TestReq) (rest : List TestReq) (chunk unit : Nat) (h : u.val < 32),
    takeFirst (fun (t : TestReq) => t.unit == u.val) s.graphs.testing = some (q, rest) → q.cause ≠ 6 → q.cause ≠ 2 →
    ∃ t, exec (.selftestDone u (some (chunk, unit))) s = .next t ∧ t.graphs.testing = rest ∧ t.unitFenced (.core ⟨u.val, h⟩) = true)

/-! ### Shelf cache (spec/05_shelf_cache.md) -/

/-- R154, R173, R190: POOL_CREATE and POOL_DESTROY, as the next entry of a CACHE_OP packet. A pool is made only when every check holds, and goes only when
its sequences are all CLOSED; else the entry has a status that says why and no pool changes. The layout of an entry is the
model's (log 21). -/
def Obligations.poolsManaged : Prop :=
  (∀ (link : Fin 2) (sq : Fin 64) (s : State) (p : Packet) (e : List Byte)
      (n die base frames shelfBytes heads d fmt : Nat) (boundOnly : Bool) (altDie archiveLink archiveRing : Nat),
    s.packet link sq cacheOp = some p → s.nextEntry link sq cacheOp = some (p, e) →
    let x : Pool := { die := die, base := base, frames := frames, shelfBytes := shelfBytes, heads := heads, d := d, fmt := fmt
                      boundOnly := boundOnly, altDie := altDie, archiveLink := archiveLink, archiveRing := archiveRing }
    let ok := shelfBytes ∈ [0x10000, 0x20000, 0x40000, 0x80000, 0x100000, 0x200000] ∧ (1 ≤ heads ∧ heads ≤ 64) ∧
      (32 ≤ d ∧ d ≤ 256 ∧ d % 32 = 0) ∧ (5 ≤ fmt ∧ fmt ≤ 7) ∧ n ≤ 15 ∧ die ≤ 3 ∧ (altDie ≤ 3 ∨ altDie = 0xFF) ∧ frames ≠ 0 ∧
      256 * x.tokenBytes ≤ shelfBytes ∧ base % shelfBytes = 0 ∧ inStack base (frames * shelfBytes) die = true ∧
      s.reservedRange base (frames * shelfBytes) = false ∧ (s.cache.pool n).exists_ = false ∧ (archiveLink ≤ 1 ∧ archiveRing ≤ 63) ∧
      s.serves archiveLink archiveRing = false ∧ s.dieFenced die = false ∧ s.catRegion die ≠ none
    (ok → ∃ t, ∃ u : State,
      exec (.poolCreate link sq n die base frames shelfBytes heads d fmt boundOnly altDie archiveLink archiveRing) s = .next t ∧
      t = u.endEntry link sq cacheOp 1 0 [] entryFuel ∧ u.cache.pool n = s.markLost x ∧ (∀ m, m ≠ n → u.cache.pool m = s.cache.pool m) ∧
      u.cache.seqs = s.cache.seqs ∧ u.graphs = s.graphs ∧ u.cores = s.cores ∧ s.sameSensing u ∧ u.lan = s.lan) ∧
    (¬ ok → ∃ st, st ≠ 0 ∧
      exec (.poolCreate link sq n die base frames shelfBytes heads d fmt boundOnly altDie archiveLink archiveRing) s =
        .next (s.endEntry link sq cacheOp 1 st [] entryFuel))) ∧
  (∀ (link : Fin 2) (sq : Fin 64) (s : State) (p : Packet) (e : List Byte) (n : Nat), s.packet link sq cacheOp = some p →
    s.nextEntry link sq cacheOp = some (p, e) →
    let ok := (s.cache.pool n).exists_ = true ∧ (∀ x ∈ s.cache.seqs, x.2.pool = n → x.2.st = .CLOSED) ∧
      ∀ x ∈ (s.cache.cat (s.cache.pool n).die).shelves, x.2.pool ≠ n
    (ok → ∃ t, ∃ u : State, exec (.poolDestroy link sq n) s = .next t ∧ t = u.endEntry link sq cacheOp 2 0 [] entryFuel ∧
      u.cache.pool n = {} ∧ (∀ m, m ≠ n → u.cache.pool m = s.cache.pool m) ∧ u.cache.seqs = s.cache.seqs ∧ u.graphs = s.graphs) ∧
    (¬ ok → ∃ st, st ≠ 0 ∧ exec (.poolDestroy link sq n) s = .next (s.endEntry link sq cacheOp 2 st [] entryFuel)))

/-- R163, R173 … R175, R182, R185, R263: the ops on sequences, as the next entry of a CACHE_OP packet: OPEN, FORK, BIND, SEAL, CLOSE, SET_PRIORITY, ARCHIVE and
QUERY. The priority of a forked sequence is a free value, and the layout of an entry the model's (log 21). -/
def Obligations.sequencesManaged : Prop :=
  (∀ (link : Fin 2) (sq : Fin 64) (s : State) (p : Packet) (e : List Byte) (q pool priority layers window : Nat),
    s.packet link sq cacheOp = some p → s.nextEntry link sq cacheOp = some (p, e) →
    let ok := q ≤ 4095 ∧ (s.cache.seq q).st = .CLOSED ∧ pool ≤ 15 ∧ (s.cache.pool pool).exists_ = true ∧ priority ≤ 7 ∧ 1 ≤ layers ∧
      layers ≤ 128
    (ok → ∃ t, ∃ u : State, exec (.open_ link sq q pool priority layers window) s = .next t ∧
      t = u.endEntry link sq cacheOp 3 0 [] entryFuel ∧
      u.cache.seq q = { pool := pool, st := .LIVE, priority := priority, layers := layers, window := window
                        admission := (s.cache.admitCount + 1) % 2 ^ 64 } ∧
      (∀ m, m ≠ q → u.cache.seq m = s.cache.seq m) ∧ u.cache.pools = s.cache.pools ∧ u.graphs = s.graphs ∧ s.sameSensing u) ∧
    (¬ ok → ∃ st, st ≠ 0 ∧ exec (.open_ link sq q pool priority layers window) s =
      .next (s.endEntry link sq cacheOp 3 st [] entryFuel))) ∧
  (∀ (link : Fin 2) (sq : Fin 64) (s : State) (p : Packet) (e : List Byte) (q parent : Nat), s.packet link sq cacheOp = some p →
    s.nextEntry link sq cacheOp = some (p, e) → q ≤ 4095 → parent ≤ 4095 → (s.cache.seq q).st = .CLOSED →
    let r := s.cache.seq parent
    r.st = .LIVE → r.basePos ≤ r.length → r.layers ≤ 128 →
    (s.cache.cat (s.cache.pool r.pool).die).usedRuns.length +
      ((List.range r.layers).map fun l => ((s.cache.list parent l).entries.length + 62) / 63).sum ≤ catRuns →
    ∃ t, ∃ u : State, exec (.fork link sq q parent r.length) s = .next t ∧ t = u.endEntry link sq cacheOp 4 0 [] entryFuel ∧
      u.cache.seq q = { pool := r.pool, st := .LIVE, priority := (Config.freeValue s.free).toNat % 8, layers := r.layers
                        length := r.length, basePos := r.basePos, window := r.window
                        admission := (s.cache.admitCount + 1) % 2 ^ 64, parent := parent } ∧
      (∀ m, m ≠ q → u.cache.seq m = s.cache.seq m) ∧ u.free = s.free + 1 ∧ u.cache.pools = s.cache.pools ∧
      (∀ l, l < r.layers → (u.cache.list q l).entries =
        (s.cache.prefixOf parent l r.length).getD (s.cache.list parent l).entries)) ∧
  (∀ (link : Fin 2) (sq : Fin 64) (s : State) (p : Packet) (e : List Byte) (q parent pos : Nat), s.packet link sq cacheOp = some p →
    s.nextEntry link sq cacheOp = some (p, e) →
    (4095 < q ∨ (s.cache.seq q).st ≠ .CLOSED ∨ (s.cache.seq parent).st ≠ .LIVE ∨ (s.cache.seq parent).length < pos ∨
      pos < (s.cache.seq parent).basePos) →
    ∃ st, st ≠ 0 ∧ exec (.fork link sq q parent pos) s = .next (s.endEntry link sq cacheOp 4 st [] entryFuel)) ∧
  (∀ (link : Fin 2) (sq : Fin 64) (s : State) (p : Packet) (e : List Byte) (q graph perFrame : Nat), s.packet link sq cacheOp = some p →
    s.nextEntry link sq cacheOp = some (p, e) →
    let r := s.cache.seq q
    let pool := s.cache.pool r.pool
    let need := ((r.window + 255) / 256 + 2) * r.layers
    let ok := q ≤ 4095 ∧ r.st = .LIVE ∧ pool.boundOnly = true ∧ 256 ≤ r.window ∧ r.bound = false ∧ graph ≤ 63
    (ok → pool.reservedTotal + need ≤ pool.freeCount →
      ∃ t, ∃ u : State, exec (.bind link sq q graph perFrame) s = .next t ∧ t = u.endEntry link sq cacheOp 5 0 [] entryFuel ∧
        u.cache.seq q = { r with bound := true, graph := graph, perFrame := perFrame } ∧
        tblGet 0 (u.cache.pool r.pool).reserved q = need ∧ (∀ m, m ≠ q → u.cache.seq m = s.cache.seq m)) ∧
    (ok → pool.freeCount < pool.reservedTotal + need →
      exec (.bind link sq q graph perFrame) s = .next (s.endEntry link sq cacheOp 5 Status.CACHE_EXHAUSTED [] entryFuel)) ∧
    (¬ ok → ∃ st, st ≠ 0 ∧ exec (.bind link sq q graph perFrame) s = .next (s.endEntry link sq cacheOp 5 st [] entryFuel))) ∧
  (∀ (link : Fin 2) (sq : Fin 64) (s : State) (p : Packet) (e : List Byte) (q : Nat), s.packet link sq cacheOp = some p →
    s.nextEntry link sq cacheOp = some (p, e) →
    let r := s.cache.seq q
    let ok := q ≤ 4095 ∧ r.st = .LIVE
    (ok → ∃ t, ∃ u : State, exec (.seal link sq q) s = .next t ∧ t = u.endEntry link sq cacheOp 6 0 [] entryFuel ∧
      u.cache.seq q = { r with sealed_ := true } ∧ (∀ m, m ≠ q → u.cache.seq m = s.cache.seq m) ∧ u.graphs = s.graphs) ∧
    (¬ ok → ∃ st, st ≠ 0 ∧ exec (.seal link sq q) s = .next (s.endEntry link sq cacheOp 6 st [] entryFuel)) ∧
    (ok → r.bound = false → ∃ t, ∃ u : State, exec (.archive link sq q) s = .next t ∧
      t = u.endEntry link sq cacheOp 9 0 [] entryFuel ∧ (u.cache.seq q).epoch = (r.epoch + 1) % 2 ^ 32 ∧
      ((∃ l, l < r.layers ∧ (s.cache.list q l).entries ≠ []) → (u.cache.seq q).st = .ARCHIVING ∧
        ∃ j ∈ u.cache.archives, j.seq = q ∧ j.chunk = 0 ∧ j.own = none) ∧
      ((∀ l, l < r.layers → (s.cache.list q l).entries = []) → (u.cache.seq q).st = .ARCHIVED ∧ (u.cache.seq q).chunks = 0)) ∧
    ((¬ ok ∨ r.bound = true) → ∃ st, st ≠ 0 ∧
      exec (.archive link sq q) s = .next (s.endEntry link sq cacheOp 9 st [] entryFuel))) ∧
  (∀ (link : Fin 2) (sq : Fin 64) (s : State) (p : Packet) (e : List Byte) (q priority : Nat), s.packet link sq cacheOp = some p →
    s.nextEntry link sq cacheOp = some (p, e) →
    let r := s.cache.seq q
    ((4095 < q ∨ r.st = .CLOSED) →
      exec (.close link sq q) s = .next (s.endEntry link sq cacheOp 7 Status.BAD_PACKET [] entryFuel) ∧
      exec (.setPriority link sq q priority) s = .next (s.endEntry link sq cacheOp 8 Status.BAD_PACKET [] entryFuel)) ∧
    (q ≤ 4095 → r.st ≠ .CLOSED → r.busy = true →
      exec (.close link sq q) s = .next (s.endEntry link sq cacheOp 7 Status.NOT_READY [] entryFuel)) ∧
    (q ≤ 4095 → r.st ≠ .CLOSED → r.busy = false →
      ∃ t, ∃ u : State, exec (.close link sq q) s = .next t ∧ t = u.endEntry link sq cacheOp 7 0 [] entryFuel ∧ u.cache.seq q = {}) ∧
    (q ≤ 4095 → r.st ≠ .CLOSED → priority ≤ 7 →
      ∃ t, ∃ u : State, exec (.setPriority link sq q priority) s = .next t ∧ t = u.endEntry link sq cacheOp 8 0 [] entryFuel ∧
        u.cache.seq q = { r with priority := priority } ∧ (∀ m, m ≠ q → u.cache.seq m = s.cache.seq m) ∧
        u.cache.pools = s.cache.pools) ∧
    (q < 4096 → exec (.query link sq q) s = .next (s.endEntry link sq cacheOp 10 0 (r.encode q) entryFuel)))

/-- R183, R187, R189, R191, R192: copies that end, archive chunks, the cache timeout and restoring. -/
def Obligations.archivesRun : Prop :=
  (∀ (q layer index : Nat) (s : State) (w : CowCopy),
    s.cache.cows.find? (fun x => x.seq == q && x.layer == layer && x.index == index) = some w → s.cache.appends = [] →
    ∃ t, exec (.cowCopyDone q layer index) s = .next t ∧ t.cache.cows = s.cache.cows.filter (fun x => x ≠ w) ∧
      (t.cache.list q layer).entries = (s.cache.list q layer).entries.modify index (fun _ => ((s.cache.shelf w.dest).cls, w.dest)) ∧
      t.cache.seqs = s.cache.seqs ∧ t.graphs = s.graphs ∧ t.cores = s.cores ∧ s.sameSensing t ∧ s.sameSafety t) ∧
  (∀ (q layer index : Nat) (s : State),
    s.cache.cows.find? (fun x => x.seq == q && x.layer == layer && x.index == index) = none →
    exec (.cowCopyDone q layer index) s = .next s) ∧
  (∀ (q : Nat) (s : State), s.cache.archives.find? (fun j => j.seq == q) = none → exec (.archiveChunkWrite q) s = .next s) ∧
  (∀ (q layer h : Nat) (s : State) (j : ArchiveJob), s.cache.archives.find? (fun j => j.seq == q) = some j →
    s.cache.nextOut j = some (layer, h) → (s.cache.shelf h).tokens ≠ 0 →
    let x := s.cache.shelf h
    let p := s.cache.pool j.pool
    let all := s.packShelf x
    let data := (all.drop j.offset).take 65536
    let fits := (j.offset = 0 → (x.st = .FILLING ∨ x.st = .FULL ∨ x.st = .QUARANTINED) ∧ x.pins < 65535) ∧
      s.archiveRoom p data.length = true
    (¬ fits → exec (.archiveChunkWrite q) s = .next s) ∧
    (fits → ∃ t, exec (.archiveChunkWrite q) s = .next t ∧
      (t.cache.cat p.die).archiveOut = ((s.cache.cat p.die).archiveOut + 1) % 2 ^ 32 ∧
      (∃ more last lastSeq, t.outputs = s.outputs ++ more ∧
        .hostWrite p.archiveLink (s.cqAddr p.archiveLink p.archiveRing ((s.cq p.archiveLink p.archiveRing).tail + 1))
          (archiveHeader q layer (b2n last + 2 * b2n lastSeq) (s.cache.seq q).epoch (s.cache.list q layer).start x.tokens j.pool
            j.chunk j.offset data.length) ∈ more ∧ last = decide (all.length ≤ j.offset + 65536)) ∧
      s.sameSensing t ∧ t.lan = s.lan ∧ t.recovery = s.recovery)) ∧
  (∀ (g : Fin 64) (f : Nat) (s : State) (x : Stall) (gr : Graph) (fr : Frame), s.cache.stalls.find?
      (fun t => t.graph == g.val && t.frame == f && t.restarted + 1000 * t.timeoutMs ≤ s.now) = some x → s.graph? g = some gr →
    gr.frame? f = some fr →
    let d := (s.cache.pool (s.cache.seq x.seq).pool).die
    d < 4 →
    ∃ t, exec (.cacheTimeout g f) s = .next t ∧
      (∃ gr' fr', t.graph? g = some gr' ∧ gr'.frame? f = some fr' ∧ fr'.withheld = true ∧ Status.CACHE_EXHAUSTED ∈ fr'.codes) ∧
      (t.cache.cat d).exhausted = min ((s.cache.cat d).exhausted + 1) 0xFFFFFFFF ∧
      (s.mgt.active < 2 → (t.reg (ra .CAT_ERR_STATUS d)).getLsbD 4 = true) ∧ (∀ y ∈ t.cache.stalls, ¬ (y.graph = g ∧ y.frame = f))) ∧
  (∀ (g : Fin 64) (f : Nat) (s : State), s.cache.stalls.find?
      (fun t => t.graph == g.val && t.frame == f && t.restarted + 1000 * t.timeoutMs ≤ s.now) = none →
    exec (.cacheTimeout g f) s = .next s) ∧
  (∀ (link : Fin 2) (sq : Fin 64) (s : State) (p : Packet), s.packet link sq 0x09 = some p →
    let b := p.payload
    let q := leAt b 0 2
    let r := s.cache.seq q
    let pool := s.cache.pool r.pool
    let j := (s.cache.restores.find? (fun j => j.seq == q)).getD { seq := q, next := 0, data := [] }
    let next := (r.st = .ARCHIVED ∨ r.st = .RESTORING) ∧ leAt b 4 4 = r.epoch ∧ leAt b 16 4 = j.next ∧ j.next < r.chunks ∧
      leAt b 14 1 = r.pool ∧ leAt b 2 1 < r.layers ∧ 1 ≤ leAt b 12 2 ∧ leAt b 12 2 ≤ 256 ∧ leAt b 20 4 = j.shelf.length ∧
      leAt b 20 4 + leAt b 24 4 ≤ leAt b 12 2 * pool.tokenBytes ∧
      (j.shelf = [] ∨ (leAt b 2 1 = j.layer ∧ leAt b 8 4 = j.first ∧ leAt b 12 2 = j.tokens))
    (restoreBad p = true → exec (.archiveIn link sq) s = .next (s.takeFinish p Status.BAD_PACKET)) ∧
    (restoreBad p = false → ¬ next → ∃ t, ∃ u : State, exec (.archiveIn link sq) s = .next t ∧ t = u.takeFinish p Status.BAD_PACKET ∧
      (pool.die < 4 → s.mgt.active < 2 → (u.reg (ra .CAT_ERR_STATUS pool.die)).getLsbD 3 = true) ∧
      (r.st = .RESTORING → (u.cache.seq q).st = .ARCHIVED)) ∧
    (restoreBad p = false → next → ∃ t, ∃ u : State, ∃ st, exec (.archiveIn link sq) s = .next t ∧ t = u.takeFinish p st ∧
      (st = Status.OK ∨ ((st = Status.CACHE_EXHAUSTED ∨ st = Status.AUTH_FAIL) ∧ (u.cache.seq q).st = .ARCHIVED)) ∧
      (leAt b 20 4 + leAt b 24 4 < leAt b 12 2 * pool.tokenBytes → j.next + 1 ≠ r.chunks → (b.drop 64).length ≥ leAt b 24 4 →
        st = Status.OK ∧ (u.cache.seq q).st = .RESTORING ∧ ∃ x ∈ u.cache.restores, x.seq = q ∧ x.next = j.next + 1)))

/-! ### Memory (spec/06_memory.md) -/

/-- R200, R205, R206: reads, writes, refresh, scrubbing and calibration of HBM. A read changes nothing but what the code finds: a corrected word is
counted, an uncorrectable one poisoned and its row tested; a write that is accepted stands in memory. -/
def Obligations.hbmAccessed : Prop :=
  (∀ (a : Nat) (hw : HbmHw) (s : State), (hbmEnd ≤ a ∨ (s.mc (stackOf a)).run ≠ 3) → exec (.hbmRead a hw) s = .next s) ∧
  (∀ (a : Nat) (s : State), a < hbmEnd → (s.mc (stackOf a)).run = 3 → s.setFenced a = false → s.retired a = false →
    let n := stackOf a
    let q := ((s.mc n).pc (hbmPc a)).writeQueue
    (q.contains (a / 64) = false → s.rangePoison (a / 32 * 32) 32 = false → exec (.hbmRead a .ok) s = .next s) ∧
    (q.contains (a / 64) = true → s.rangePoison (a / 32 * 32) 32 = false →
      ∃ t, exec (.hbmRead a .ok) s = .next t ∧ ((t.mc n).pc (hbmPc a)).writeQueue = q.filter (· != a / 64) ∧
        t.reg (ra .MC_RAW_WAITS n) = s.reg (ra .MC_RAW_WAITS n) + 1 ∧ s.sameData t ∧ t.graphs = s.graphs ∧ t.cores = s.cores ∧
        s.sameHost t ∧ s.sameManagement t ∧ s.sameSensing t ∧ s.sameSafety t) ∧
    (s.ledgerRoom → ∃ t, exec (.hbmRead a .ce) s = .next t ∧ t.reg (ra .MC_CE_COUNT n) = satInc (s.reg (ra .MC_CE_COUNT n)) 1 ∧
      (t.reg (ra .MC_ERR_STATUS n)).getLsbD 0 = true ∧
      ((t.mc n).pc (hbmPc a)).ce = min (((s.mc n).pc (hbmPc a)).ce + 1) 0xFFFFFFFF ∧
      (((s.mc n).pc (hbmPc a)).ceLogged = none → s.logged t .HBM_CE n [hbmPc a, ((s.mc n).pc (hbmPc a)).ceSince + 1]) ∧
      (∀ t0, ((s.mc n).pc (hbmPc a)).ceLogged = some t0 → s.now < t0 + 60000000 → s.sameManagement t) ∧
      s.sameData t ∧ t.graphs = s.graphs ∧ t.cores = s.cores ∧ s.sameSensing t ∧ s.sameSafety t) ∧
    (s.ledgerRoom → ∃ t, exec (.hbmRead a .ue) s = .next t ∧ t.reg (ra .MC_UE_COUNT n) = satInc (s.reg (ra .MC_UE_COUNT n)) 1 ∧
      (t.reg (ra .MC_ERR_STATUS n)).getLsbD 1 = true ∧ (t.mc n).rowTests = (s.mc n).rowTests ++ [{ addr := a }] ∧
      s.logged t .HBM_UE n [a] ∧ t.mem = s.mem ∧ t.hbmPoison = (s.markPoison (a / 32 * 32) 32 true).hbmPoison ∧
      t.storePoison = s.storePoison ∧ t.graphs = s.graphs ∧ t.cores = s.cores ∧ s.sameSensing t ∧ s.sameSafety t)) ∧
  (∀ (a : Nat) (data : List Byte) (poison : Bool) (s : State), a < hbmEnd → a % 64 = 0 → (s.mc (stackOf a)).run = 3 →
    let n := stackOf a
    ∃ t, exec (.hbmWriteAccept a data poison) s = .next t ∧ t.mem = (s.writeMem a (padTo 64 data) poison).mem ∧
      t.hbmPoison = (s.writeMem a (padTo 64 data) poison).hbmPoison ∧ t.storePoison = s.storePoison ∧
      (s.setFenced a = false → (t.mc n).pc (hbmPc a) = { (s.mc n).pc (hbmPc a) with
        writeQueue := (if ((s.mc n).pc (hbmPc a)).writeQueue.length < 64 then ((s.mc n).pc (hbmPc a)).writeQueue
          else ((s.mc n).pc (hbmPc a)).writeQueue.drop 1) ++ [a / 64] }) ∧
      ((s.setFenced a = true ∨ s.retired a = true) → t.mem = s.mem) ∧
      (∀ b, (b < a ∨ a + 64 ≤ b) → memGet t.mem b = memGet s.mem b) ∧
      t.graphs = s.graphs ∧ t.cores = s.cores ∧ s.sameRegs t ∧ s.sameHost t ∧ s.sameManagement t ∧ s.sameSensing t ∧ s.sameSafety t) ∧
  (∀ (a : Nat) (data : List Byte) (poison : Bool) (s : State), (hbmEnd ≤ a ∨ a % 64 ≠ 0 ∨ (s.mc (stackOf a)).run ≠ 3) →
    exec (.hbmWriteAccept a data poison) s = .next s) ∧
  (∀ (n : Fin 4) (p : Fin 32) (s : State), (s.mc n).run = 3 →
    ∃ t, exec (.hbmRefresh n p) s = .next t ∧ ((t.mc n).pc p).refreshBank = (((s.mc n).pc p).refreshBank + 1) % 32 ∧
      ((t.mc n).pc p).refreshes = ((s.mc n).pc p).refreshes + 1 ∧ (∀ m : Nat, m ≠ n → t.mc m = s.mc m) ∧ s.sameData t ∧ s.sameRegs t ∧
      s.sameHost t ∧ s.sameManagement t ∧ t.graphs = s.graphs) ∧
  (∀ (n : Fin 4) (s : State) (t0 : Nat), (s.mc n).coolSince = some t0 → 0 < (s.mc n).refresh → t0 + 1000000 ≤ s.now → s.ledgerRoom →
    ∃ t, exec (.refreshRateDown n) s = .next t ∧ (t.mc n).refresh = (s.mc n).refresh - 1 ∧
      s.logged t .HBM_REFRESH_RATE n [(s.mc n).refresh - 1] ∧ s.sameData t ∧ s.sameRegs t ∧ s.sameHost t) ∧
  (∀ (n : Fin 4) (s : State), ((s.mc n).coolSince = none ∨ (s.mc n).refresh = 0) → exec (.refreshRateDown n) s = .next s) ∧
  (∀ (n : Fin 4) (overtaken : Bool) (s : State), (s.mc n).run = 3 → s.rangePoison (n * stackBytes + (s.mc n).scrubPos) 64 = false →
    (s.mc n).scrubPos % 64 = 0 → (s.mc n).scrubPos < stackBytes → s.ledgerRoom →
    ∃ t, exec (.patrolScrub n .ok overtaken) s = .next t ∧ s.sameData t ∧ s.sameRegs t ∧ s.sameHost t ∧ t.graphs = s.graphs ∧
      ((s.mc n).scrubPos + 64 < stackBytes → (t.mc n).scrubPos = (s.mc n).scrubPos + 64 ∧ s.sameManagement t) ∧
      (stackBytes ≤ (s.mc n).scrubPos + 64 → (t.mc n).scrubPos = 0 ∧ (t.mc n).scrubPasses = ((s.mc n).scrubPasses + 1) % 2 ^ 32 ∧
        s.logged t .HBM_SCRUB_DONE n [])) ∧
  (∀ (n : Fin 4) (s : State),
    ((s.mc n).run = 3 ∧ (s.mc n).lastCalibration + 256000 ≤ s.now →
      ∃ t, exec (.phyCalibration n) s = .next t ∧ t.mc n = { s.mc n with lastCalibration := s.now } ∧ s.sameData t ∧ s.sameRegs t) ∧
    (¬ ((s.mc n).run = 3 ∧ (s.mc n).lastCalibration + 256000 ≤ s.now) → exec (.phyCalibration n) s = .next s))

/-- R201 … R204: row tests, repairs and retired blocks, command parity, and the fence of a pseudo-channel with its interleave set. -/
def Obligations.hbmRepaired : Prop :=
  (∀ (n : Fin 4) (s : State) (x : RowTest) (rest : List RowTest), (s.mc n).run = 3 → (∀ y ∈ (s.mc n).rowTests, y.started = false) →
    (s.mc n).rowTests = x :: rest →
    ∃ t, exec (.rowTest n) s = .next t ∧ (t.mc n).rowTests = { x with started := true } :: rest ∧
      (∀ m : Nat, m ≠ n → t.mc m = s.mc m) ∧ s.sameData t ∧ s.sameRegs t ∧ s.sameManagement t) ∧
  (∀ (n : Fin 4) (s : State), ((s.mc n).run ≠ 3 ∨ ∃ y ∈ (s.mc n).rowTests, y.started = true) → exec (.rowTest n) s = .next s) ∧
  (∀ (n : Fin 4) (passed spare : Bool) (s : State), (∀ x, (s.mc n).rowTests.head? = some x → x.started = false) →
    exec (.rowTestDone n passed spare) s = .next s) ∧
  (∀ (n : Fin 4) (spare : Bool) (s : State) (x : RowTest) (rest : List RowTest), (s.mc n).rowTests = x :: rest → x.started = true →
    stackOf x.addr = n →
    (s.ledgerRoom → (∀ g ∈ (s.mc n).glints, g.1 = rowKey x.addr → g.2 + 86400000000 ≤ s.mgtTime) →
      ∃ t, exec (.rowTestDone n true spare) s = .next t ∧ s.logged t .HBM_ROW_GLINT n [x.addr] ∧ (t.mc n).rowTests = rest ∧
        (t.mc n).glintCount = min ((s.mc n).glintCount + 1) 0xFFFFFFFF ∧ (rowKey x.addr, s.mgtTime) ∈ (t.mc n).glints ∧
        (t.mc n).repairs = (s.mc n).repairs ∧ (t.mc n).retired = (s.mc n).retired ∧ s.sameData t ∧ s.sameRegs t) ∧
    ((s.mc n).repairs.length < 256 → ∃ t, exec (.rowTestDone n false true) s = .next t ∧
      (t.mc n).repairs = (s.mc n).repairs ++ [rowKey x.addr] ∧ (t.mc n).rowTests = rest ∧ (t.mc n).retired = (s.mc n).retired ∧
      s.sameData t ∧ t.graphs = s.graphs ∧ t.cores = s.cores) ∧
    (((s.mc n).retired.filter (fun b => b / 0x80000 == hbmSet x.addr)).length < 64 →
      ∃ t, exec (.rowTestDone n false false) s = .next t ∧
        (t.mc n).retired = (s.mc n).retired ++ [x.addr % 0x400000000 / 4096] ∧ (t.mc n).rowTests = rest ∧
        (t.mc n).repairs = (s.mc n).repairs ∧ s.sameData t ∧ t.graphs = s.graphs ∧ t.cores = s.cores)) ∧
  (∀ (n : Fin 4) (p : Fin 32) (drawn : Fin 5) (s : State), ((s.mc n).run ≠ 3 ∨ ((s.mc n).pc p).st ≠ 0) →
    exec (.caParityAlert n p drawn) s = .next s) ∧
  (∀ (n : Fin 4) (p : Fin 32) (drawn : Fin 5) (s : State), (s.mc n).run = 3 → ((s.mc n).pc p).st = 0 → s.ledgerRoom →
    let runs := min (drawn.val + 1) 4
    ∃ t, exec (.caParityAlert n p drawn) s = .next t ∧ t.reg (ra .MC_CA_REPLAYS n) = satInc (s.reg (ra .MC_CA_REPLAYS n)) runs ∧
      s.logged t .HBM_CA_REPLAY n [p, runs] ∧ s.sameData t ∧ t.graphs = s.graphs ∧ t.cores = s.cores ∧
      (drawn.val < 4 → (t.mc n).pc p = { (s.mc n).pc p with replays := drawn } ∧ (t.mc n).lostSets = (s.mc n).lostSets) ∧
      (drawn.val = 4 → ((t.mc n).pc p).st = 2 ∧ p.val / 4 ∈ (t.mc n).lostSets ∧ (t.reg (ra .MC_ERR_STATUS n)).getLsbD 3 = true)) ∧
  (∀ (n : Fin 4) (p : Fin 32) (s : State), ((s.mc n).pc p).st = 2 → s.ledgerRoom →
    ∃ t, exec (.pcFence n p) s = .next t ∧ ((t.mc n).pc p).st = 3 ∧ p.val / 4 ∈ (t.mc n).lostSets ∧
      (∃ more, t.mgt.queue = s.mgt.queue ++ { ev := .HBM_PC_FENCED, die := n, detail := [p.val, p.val / 4], at_ := s.now } :: more) ∧
      (∀ a, a < hbmEnd → stackOf a = n → hbmSet a = p.val / 4 → t.setFenced a = true) ∧ t.sin = s.sin ∧ t.lan = s.lan) ∧
  (∀ (n : Fin 4) (p : Fin 32) (s : State), ((s.mc n).pc p).st ≠ 2 → exec (.pcFence n p) s = .next s)

/-- R210 … R212: the remote caches. A lookup is counted; a hit needs the line's address and the buffer's current version; a miss starts a fill; a fill
allocates unless it was overtaken or is poisoned; clearing en drops every line. -/
def Obligations.remoteCachesRun : Prop :=
  (∀ (d : Fin 4) (a : Nat) (hw : RcHw) (s : State), (s.rangeOf d a = none ∨ hbmEnd ≤ a ∨ stackOf a = d ∨ s.rcOn d = false) →
    exec (.rcLookup d a hw) s = .next s) ∧
  (∀ (d : Fin 4) (a g b : Nat) (s : State), s.rangeOf d a = some (g, b) → a < hbmEnd → stackOf a ≠ d → s.rcOn d = true →
    ((∀ l ∈ (s.rc d).lines, l.addr ≠ a / 128) → ∀ hw, ∃ t, exec (.rcLookup d a hw) s = .next t ∧
      (t.rc d).fills = (s.rc d).fills ++ [{ addr := a / 128, graph := g, buffer := b, version := s.versionAt d g b }] ∧
      (t.rc d).lines = (s.rc d).lines ∧ t.reg (ra .RC_LOOKUPS d) = s.reg (ra .RC_LOOKUPS d) + 1 ∧
      t.reg (ra .RC_HITS d) = s.reg (ra .RC_HITS d) ∧ s.sameData t ∧ s.sameHost t ∧ s.sameManagement t ∧ t.graphs = s.graphs) ∧
    (∀ l, (s.rc d).lines.find? (fun l => l.addr == a / 128) = some l →
      (l.version = s.versionAt d l.graph l.buffer →
        (∃ t, exec (.rcLookup d a .ok) s = .next t ∧ (t.rc d).lines = (s.rc d).lines ∧ (t.rc d).fills = (s.rc d).fills ∧
          t.reg (ra .RC_LOOKUPS d) = s.reg (ra .RC_LOOKUPS d) + 1 ∧ t.reg (ra .RC_HITS d) = s.reg (ra .RC_HITS d) + 1 ∧
          s.sameData t ∧ s.sameHost t ∧ s.sameManagement t) ∧
        (tblGet 0 (s.rc d).wayErrors l.way ≠ 3 → ∃ t, exec (.rcLookup d a .ue) s = .next t ∧
          (t.rc d).lines = (s.rc d).lines.filter (fun x => x ≠ l) ∧
          t.reg (ra .RC_UE_COUNT d) = satInc (s.reg (ra .RC_UE_COUNT d)) 1 ∧ (t.reg (ra .RC_ERR_STATUS d)).getLsbD 0 = true ∧
          s.sameData t ∧ s.sameManagement t) ∧
        (tblGet 0 (s.rc d).wayErrors l.way = 3 → s.ledgerRoom → ∃ t, exec (.rcLookup d a .tag) s = .next t ∧
          (∀ x ∈ (t.rc d).lines, x.way ≠ l.way) ∧ bitN (t.rc d).waysOff l.way = true ∧ s.logged t .RC_WAY_DISABLED d [l.way])) ∧
      (l.version ≠ s.versionAt d l.graph l.buffer → ∀ hw, ∃ t, exec (.rcLookup d a hw) s = .next t ∧
        (t.rc d).lines = (s.rc d).lines.filter (fun x => x ≠ l) ∧ t.reg (ra .RC_STALE d) = s.reg (ra .RC_STALE d) + 1 ∧
        (t.rc d).fills = (s.rc d).fills ++ [{ addr := a / 128, graph := g, buffer := b, version := s.versionAt d g b }]))) ∧
  (∀ (d : Fin 4) (a : Nat) (s : State) (f : RcFill) (rest : List RcFill),
    takeFirst (fun (f : RcFill) => f.addr == a / 128) (s.rc d).fills = some (f, rest) →
    ∃ t, exec (.rcFill d a) s = .next t ∧ (t.rc d).fills = rest ∧ s.sameData t ∧ t.graphs = s.graphs ∧ t.cores = s.cores ∧
      s.sameHost t ∧ s.sameManagement t ∧
      (f.overtaken = true → (t.rc d).lines = (s.rc d).lines ∧ t.reg (ra .RC_FILLS_DROPPED d) = s.reg (ra .RC_FILLS_DROPPED d) + 1) ∧
      (f.overtaken = false → s.rangePoison (128 * f.addr) 128 = false → s.rcOn d = true → ∀ w, (s.rc d).newWay (rcSet a) = some w →
        { addr := f.addr, graph := f.graph, buffer := f.buffer, version := f.version, way := w
          data := memRead s.mem (128 * f.addr) 128 } ∈ (t.rc d).lines) ∧
      ((f.overtaken = false ∧ (s.rangePoison (128 * f.addr) 128 = true ∨ s.rcOn d = false)) → (t.rc d).lines = (s.rc d).lines)) ∧
  (∀ (d : Fin 4) (a : Nat) (s : State), (∀ f ∈ (s.rc d).fills, f.addr ≠ a / 128) → exec (.rcFill d a) s = .next s) ∧
  (∀ (h : Fin 2) (d : Fin 4) (v : BitVec 32) (s : State), s.setupOpen →
    ∃ t, exec (.rcCtrlWrite h d v) s = .next t ∧ (t.reg (ra .RC_CTRL d)).getLsbD 0 = v.getLsbD 0 ∧
      (v.getLsbD 0 = false → (t.rc d).lines = [] ∧ (t.rc d).fills = []) ∧ (v.getLsbD 0 = true → t.hbm = s.hbm) ∧ s.sameData t ∧
      s.sameHost t ∧ s.sameManagement t ∧ t.graphs = s.graphs ∧ t.cores = s.cores)

/-! ### Package fabric (spec/07_package_fabric.md) -/

/-- R219, R220: the on-die network. A message goes towards its destination, a read waits for its response at most 100 µs, a message for an unreachable die is
dropped and a read of it answered with poison, and a header parity error asks for the mesh test of its die. -/
def Obligations.meshRuns : Prop :=
  (∀ (d : Fin 6) (x y : Nat) (m : NetMsg) (parity : Bool) (s : State),
    (isNode d x y = false ∨ ((∀ n ∈ s.net.messages, ¬ (n.die = d ∧ n.x = x ∧ n.y = y ∧ n.msg = m)) ∧ ¬ (m.srcDie = d ∧ m.src = (x, y)))) →
    exec (.meshRoute d x y m parity) s = .next s) ∧
  (∀ (d : Fin 6) (x y : Nat) (m : NetMsg) (s : State), isNode d x y = true →
    { die := d.val, x := x, y := y, msg := m } ∈ s.net.messages →
    (∃ t, exec (.meshRoute d x y m true) s = .next t ∧ (s.ledgerRoom → (t.reg (ra .D2D_ERR_STATUS d)).getLsbD 5 = true) ∧
      t.net.meshTests = addNew s.net.meshTests d.val ∧ t.net.delivered = s.net.delivered ∧
      t.net.messages.length + 1 = s.net.messages.length ∧ (s.ledgerRoom → s.logged t .MESH_PARITY d [x, y]) ∧ s.sameData t ∧
      t.graphs = s.graphs) ∧
    (m.dstDie = d.val → m.dst = (x, y) → ∃ t, exec (.meshRoute d x y m false) s = .next t ∧
      t.net.delivered = s.net.delivered ++ [{ die := d.val, x := x, y := y, msg := m }] ∧
      t.net.messages.length + 1 = s.net.messages.length ∧
      (m.vc = 3 → ∀ r ∈ t.net.reads, ¬ (r.die = d.val ∧ r.x = x ∧ r.y = y ∧ r.tag = m.tag)) ∧ (m.vc ≠ 3 → t.net.reads = s.net.reads) ∧
      s.sameData t ∧ t.graphs = s.graphs ∧ t.cores = s.cores ∧ s.sameRegs t ∧ s.sameHost t ∧ s.sameManagement t) ∧
    (m.dstDie = d.val → m.dst ≠ (x, y) → ∃ t, exec (.meshRoute d x y m false) s = .next t ∧ t.net.delivered = s.net.delivered ∧
      { die := d.val, x := (hop x y m.dst.1 m.dst.2).1, y := (hop x y m.dst.1 m.dst.2).2, msg := m } ∈ t.net.messages ∧
      t.net.messages.length = s.net.messages.length ∧ s.sameData t ∧ s.sameRegs t ∧ s.sameManagement t) ∧
    (m.dstDie ≠ d.val → portPeer d (s.route d m.dstDie) = none → ∃ t, exec (.meshRoute d x y m false) s = .next t ∧
      (t.reg (ra .D2D_ERR_STATUS d)).getLsbD 6 = true ∧ t.net.messages.length + 1 = s.net.messages.length ∧
      (m.vc = 2 ∧ m.read = true → t.net.delivered =
        s.net.delivered ++ [{ die := m.srcDie, x := m.src.1, y := m.src.2, msg := m.poisoned }]) ∧
      (¬ (m.vc = 2 ∧ m.read = true) → t.net.delivered = s.net.delivered)) ∧
    (∀ p d' p' k, m.dstDie ≠ d.val → s.route d m.dstDie = p → portPeer d p = some (d', p') →
      exitModule (s.port d p) (modulesOf d p) m = some k → (x, y) = moduleNode d p k → (s.port d p).st = 4 → (s.port d' p').st = 4 →
      ∃ t, exec (.meshRoute d x y m false) s = .next t ∧
        { die := d', x := (moduleNode d' p' k).1, y := (moduleNode d' p' k).2, msg := m } ∈ t.net.messages ∧
        (t.port d p).txFlits = ((s.port d p).txFlits + m.flits) % 2 ^ 32 ∧
        (t.port d' p').rxFlits = ((s.port d' p').rxFlits + m.flits) % 2 ^ 32 ∧ s.sameRegs t ∧ s.sameData t)) ∧
  (∀ (d : Fin 6) (x y tag : Nat) (s : State) (r : OpenRead),
    s.net.reads.find? (fun r => r.die == d.val && r.x == x && r.y == y && r.tag == tag && r.since + 100 ≤ s.now) = some r →
    ∃ t, exec (.memReadTimeout d x y tag) s = .next t ∧
      t.net.delivered = s.net.delivered ++ [{ die := d.val, x := x, y := y, msg := r.msg.poisoned }] ∧
      (r.msg.tag = tag → ∀ q ∈ t.net.reads, ¬ (q.die = d.val ∧ q.x = x ∧ q.y = y ∧ q.tag = tag)) ∧
      t.net.messages = s.net.messages ∧ s.sameData t ∧ s.sameRegs t ∧ t.graphs = s.graphs ∧ t.cores = s.cores) ∧
  (∀ (d : Fin 6) (x y tag : Nat) (s : State),
    s.net.reads.find? (fun r => r.die == d.val && r.x == x && r.y == y && r.tag == tag && r.since + 100 ≤ s.now) = none →
    exec (.memReadTimeout d x y tag) s = .next s) ∧
  (∀ (d : Fin 6) (passed : Bool) (s : State), d.val ∉ s.net.meshTests → exec (.meshTest d passed) s = .next s) ∧
  (∀ (d : Fin 6) (s : State), d.val ∈ s.net.meshTests →
    (s.ledgerRoom → ∃ t, exec (.meshTest d true) s = .next t ∧ t.net.meshTests = s.net.meshTests.filter (· != d.val) ∧
      ∃ more, t.mgt.queue = s.mgt.queue ++
        { ev := .GLINT, die := 0xFF, detail := [if d.val < 4 then 32 + d.val else 38 + d.val], at_ := s.now } :: more) ∧
    (∀ h : d.val < 4, ∃ t, exec (.meshTest d false) s = .next t ∧ t.unitFenced (.die ⟨d.val, h⟩) = true) ∧
    (4 ≤ d.val → ∃ t, exec (.meshTest d false) s = .next t ∧ (t.link (d.val - 4)).lost = true ∧ (t.link (d.val - 4)).up = false))

/-- R223, R228, R229: a die-to-die link's faults: replays, the fall of a link, its fence with new routes, and the loop-back test after it. -/
def Obligations.linkFaultsHandled : Prop :=
  (∀ (d : Fin 6) (p : Fin 3) (same : Bool) (s : State), (s.port d p).st = 4 →
    ∃ t, exec (.d2dFlitCrcFail d p same) s = .next t ∧ (t.reg (ra .D2D_ERR_STATUS d)).getLsbD 0 = true ∧
      (t.port d p).crcErr = min ((s.port d p).crcErr + 1) 0xFFFFFFFF ∧ (t.port d p).replays = min ((s.port d p).replays + 1) 0xFFFFFFFF ∧
      (t.port d p).flitFails = (if same then (s.port d p).flitFails + 1 else 1) ∧ (t.port d p).st = 4 ∧ s.sameData t ∧
      t.graphs = s.graphs ∧ t.cores = s.cores ∧ s.sameManagement t ∧ s.sameSensing t ∧ s.sameSafety t) ∧
  (∀ (d : Fin 6) (p : Fin 3) (same : Bool) (s : State), (s.port d p).st ≠ 4 → exec (.d2dFlitCrcFail d p same) s = .next s) ∧
  (∀ (d : Fin 6) (p cause : Fin 3) (s : State) (d' p' : Nat), portPeer d p = some (d', p') → (s.port d p).st = 4 →
    (cause.val ≠ 0 ∨ 5 ≤ (s.port d p).flitFails) →
    ∃ t, exec (.d2dLinkDown d p cause) s = .next t ∧ (t.port d p).st = 1 ∧ (t.port d' p').st = 1 ∧
      (t.reg (ra .D2D_ERR_STATUS d)).getLsbD 1 = true ∧ s.sameData t ∧ t.graphs = s.graphs ∧ t.cores = s.cores ∧ s.sameManagement t) ∧
  (∀ (d : Fin 6) (p cause : Fin 3) (s : State),
    (portPeer d p = none ∨ (s.port d p).st ≠ 4 ∨ (cause.val = 0 ∧ (s.port d p).flitFails < 5)) →
    exec (.d2dLinkDown d p cause) s = .next s) ∧
  (∀ (d : Fin 6) (p : Fin 3) (s : State), 1000 < (s.port d p).replaySec →
    (∀ t0, (s.port d p).marginalAt = some t0 → t0 + 3600000000 ≤ s.now) → s.ledgerRoom →
    ∃ t, exec (.d2dLinkMarginal d p) s = .next t ∧ s.logged t .D2D_LINK_MARGINAL d [p] ∧ (t.port d p).marginalAt = some s.now ∧
      (t.reg (ra .D2D_ERR_STATUS d)).getLsbD 4 = true ∧ s.sameData t ∧ t.graphs = s.graphs ∧ t.cores = s.cores) ∧
  (∀ (d : Fin 6) (p : Fin 3) (s : State), ((s.port d p).replaySec ≤ 1000 ∨
      ∃ t0, (s.port d p).marginalAt = some t0 ∧ s.now < t0 + 3600000000) → exec (.d2dLinkMarginal d p) s = .next s) ∧
  (∀ (d : Fin 6) (p : Fin 3) (s : State) (d' p' : Nat), portPeer d p = some (d', p') →
    ((s.port d p).st = 1 ∨ 4 * d.val + p.val ∈ s.net.linkTests) → (s.port d p).fenced = false →
    ∃ t, exec (.d2dLinkFence d p) s = .next t ∧ (t.port d p).st = 5 ∧ (t.port d p).fenced = true ∧ (t.port d' p').st = 5 ∧
      (t.port d' p').fenced = true ∧ 4 * d.val + p.val ∉ t.net.linkTests ∧ s.sin = t.sin ∧ t.lan = s.lan ∧
      (∀ gr ∈ s.graphs.graphs, s.graphCrosses gr d p = true → ∀ gr', t.graph? gr.num = some gr' → ∀ fr ∈ gr'.frames, fr.withheld = true)) ∧
  (∀ (d : Fin 6) (p : Fin 3) (s : State), (portPeer d p = none ∨ (s.port d p).fenced = true ∨
      ((s.port d p).st ≠ 1 ∧ 4 * d.val + p.val ∉ s.net.linkTests)) → exec (.d2dLinkFence d p) s = .next s) ∧
  (∀ (d : Fin 6) (p : Fin 3) (s : State) (d' p' : Nat), portPeer d p = some (d', p') → (s.port d p).fenced = true →
    (s.port d p).untested = true → (s.port d p).lasting = false → s.dieUp d = true → s.dieUp d' = true →
    (∃ t, exec (.d2dLoopbackTest d p false) s = .next t ∧ (t.port d p).lasting = true ∧ (t.port d p).fenced = true ∧
      (t.port d' p').lasting = true ∧ s.sameData t ∧ s.sameRegs t ∧ s.sameManagement t) ∧
    ((s.port d p).glints + 1 < 3 → ∃ t, exec (.d2dLoopbackTest d p true) s = .next t ∧ (t.port d p).st = 2 ∧
      (t.port d p).fenced = false ∧ (t.port d p).glints = (s.port d p).glints + 1 ∧ (s.ledgerRoom → s.logged t .D2D_LINK_GLINT d [p]) ∧
      s.sameData t ∧ t.graphs = s.graphs) ∧
    (3 ≤ (s.port d p).glints + 1 → ∃ t, exec (.d2dLoopbackTest d p true) s = .next t ∧ (t.port d p).fenced = true ∧
      (t.port d p).lasting = true ∧ s.sameData t ∧ t.graphs = s.graphs)) ∧
  (∀ (d : Fin 6) (p : Fin 3) (passed : Bool) (s : State), (portPeer d p = none ∨ (s.port d p).fenced = false ∨
      (s.port d p).untested = false ∨ (s.port d p).lasting = true) → exec (.d2dLoopbackTest d p passed) s = .next s)

/-- R232 … R234: agreement of the two ends on their trained width, and the loop-back tests that a register starts. -/
def Obligations.linksTrained : Prop :=
  (∀ (d : Fin 6) (p : Fin 3) (own peer : BitVec 32) (s : State) (d' p' : Nat), portPeer d p = some (d', p') → (s.port d p).st = 2 →
    (s.port d' p').st = 2 →
    let x := { s.port d p with width := own, peerWidth := peer }
    (bits own 27 0 = bits peer 27 0 → x.usable (modulesOf d p) = true →
      ∃ t, exec (.widthWordExchange d p own peer) s = .next t ∧ (t.port d p).st = 3 ∧ (t.port d' p').st = 3 ∧
        (t.port d p).width = own ∧ (t.port d p).peerWidth = peer ∧ (t.port d' p').width = peer ∧ (t.port d' p').peerWidth = own ∧
        (t.port d p).tries = 0 ∧ s.sameData t ∧ t.graphs = s.graphs ∧
        ((∃ m, m < modulesOf d p ∧ x.moduleWidth m ≠ 3) → s.ledgerRoom → s.logged t .D2D_WIDTH_REDUCED d [p])) ∧
    (bits own 27 0 ≠ bits peer 27 0 → (s.port d p).tries < 4 →
      ∃ t, exec (.widthWordExchange d p own peer) s = .next t ∧ (t.port d p).st = 2 ∧ (t.port d p).tries = (s.port d p).tries + 1 ∧
        (t.port d p).width = 0 ∧ (t.reg (ra .D2D_ERR_STATUS d)).getLsbD 2 = true ∧
        (t.reg (ra .D2D_ERR_STATUS d')).getLsbD 2 = true ∧ s.sameData t ∧ t.graphs = s.graphs ∧ s.sameManagement t) ∧
    (bits own 27 0 ≠ bits peer 27 0 → 4 ≤ (s.port d p).tries →
      ∃ t, exec (.widthWordExchange d p own peer) s = .next t ∧ (t.port d p).st = 5 ∧ (t.port d p).fenced = true)) ∧
  (∀ (d : Fin 6) (p : Fin 3) (own peer : BitVec 32) (s : State), (portPeer d p = none ∨ (s.port d p).st ≠ 2) →
    exec (.widthWordExchange d p own peer) s = .next s ∧ exec (.sidebandTimeout d p) s = .next s) ∧
  (∀ (d : Fin 6) (p : Fin 3) (s : State), portPeer d p ≠ none → (s.port d p).st = 2 →
    ((s.port d p).sidebandFails + 1 < 3 → (s.port d p).tries < 4 → ∃ t, exec (.sidebandTimeout d p) s = .next t ∧
      (t.port d p).sidebandFails = (s.port d p).sidebandFails + 1 ∧ (t.port d p).tries = (s.port d p).tries + 1 ∧ (t.port d p).st = 2 ∧
      s.sameData t ∧ s.sameRegs t ∧ t.graphs = s.graphs) ∧
    (3 ≤ (s.port d p).sidebandFails + 1 → ∃ t, exec (.sidebandTimeout d p) s = .next t ∧ (t.port d p).st = 5 ∧
      (t.port d p).fenced = true)) ∧
  (∀ (d : Fin 6) (p : Fin 3) (s : State) (d' p' : Nat), portPeer d p = some (d', p') → (s.port d p).st ≠ 6 →
    (∀ t ∈ s.net.portTests, t.1 ≠ d.val) →
    (∃ t, exec (.d2dTestNearEnd d p) s = .next t ∧ (t.port d p).st = 6 ∧
      t.net.portTests = s.net.portTests ++ [(d.val, p.val, 1, (s.port d p).st)] ∧ s.sameData t ∧ s.sameRegs t ∧ t.graphs = s.graphs) ∧
    (((s.port d p).st = 3 ∨ (s.port d p).st = 5) → s.dieUp d = true → s.dieUp d' = true →
      ∃ t, exec (.d2dTestFarEnd d p) s = .next t ∧ (t.port d p).st = 6 ∧
        t.net.portTests = s.net.portTests ++ [(d.val, p.val, 2, (s.port d p).st)] ∧ s.sameData t ∧ s.sameRegs t ∧ t.graphs = s.graphs) ∧
    ((((s.port d p).st ≠ 3 ∧ (s.port d p).st ≠ 5) ∨ s.dieUp d = false ∨ s.dieUp d' = false) →
      exec (.d2dTestFarEnd d p) s = .next s)) ∧
  (∀ (d : Fin 6) (p : Fin 3) (s : State), (portPeer d p = none ∨ (s.port d p).st = 6 ∨ ∃ t ∈ s.net.portTests, t.1 = d.val) →
    exec (.d2dTestNearEnd d p) s = .next s ∧ exec (.d2dTestFarEnd d p) s = .next s) ∧
  (∀ (d : Fin 6) (errors : Nat) (ok : Bool) (s : State) (p mode st : Nat) (rest : List (Nat × Nat × Nat × Nat)),
    takeFirst (fun (t : Nat × Nat × Nat × Nat) => t.1 == d.val) s.net.portTests = some ((d.val, p, mode, st), rest) →
    ∃ t, exec (.d2dTestDone d errors ok) s = .next t ∧ (t.port d p).st = st ∧ t.net.portTests = rest ∧
      t.reg (ra .D2D_TEST_RESULT d) = word (b2n (errors == 0 && ok) * 2 ^ 31 + p * 2 ^ 28 + min errors 0xFFFF) ∧ s.sameData t ∧
      t.graphs = s.graphs ∧ t.cores = s.cores ∧ s.sameManagement t ∧ s.sameHost t) ∧
  (∀ (d : Fin 6) (errors : Nat) (ok : Bool) (s : State), (∀ t ∈ s.net.portTests, t.1 ≠ d.val) →
    exec (.d2dTestDone d errors ok) s = .next s)

/-! ### Host interface (spec/08_host_interface.md) -/

/-- R244, R245, R251, R267: setting up rings while register writes take effect. Enabling checks the size, the CQ and the windows; a refused
enable leaves the ring disabled and sets ring_cfg; an enabled ring's set-up stands until en is cleared, which disables it. -/
def Obligations.ringSetUp : Prop :=
  (∀ (link : Fin 2) (sq : Fin 64) (v : BitVec 32) (s : State), s.setupOpen → (s.sq link sq).run = .DISABLED → v.getLsbD 31 = true →
    let a := ra .HIF_SQ_CFG link sq
    let ok := badRingSize v = false ∧ (s.cq link (bits v 5 0)).enabled = true ∧
      s.inWindow (s.addrOf (ra .HIF_SQ_BASE_LO link sq) (ra .HIF_SQ_BASE_HI link sq), 64 * ringUnits v) = false
    ∃ t, exec (.sqEnable link sq v) s = .next t ∧ s.sameData t ∧ s.sameCompute t ∧ s.sameSensing t ∧ s.sameSafety t ∧
      s.sameManagement t ∧ t.hif.cqs = s.hif.cqs ∧
      (ok → t.sq link sq = { run := .IDLE } ∧ t.reg a = maskReg a v ∧
        (∀ l q : Nat, ringKey l q ≠ ringKey link sq → t.sq l q = s.sq l q) ∧ s.sentNothing t) ∧
      (¬ ok → t.hif.sqs = s.hif.sqs ∧ (t.reg (ra .HIF_ERR_STATUS link)).getLsbD 1 = true ∧ (t.reg a).getLsbD 31 = false)) ∧
  (∀ (link : Fin 2) (sq : Fin 64) (v : BitVec 32) (s : State), s.setupOpen → (s.sq link sq).run ≠ .DISABLED →
    (v.getLsbD 31 = true → exec (.sqEnable link sq v) s = .next s) ∧
    (v.getLsbD 31 = false → ∃ t, exec (.sqEnable link sq v) s = .next t ∧ t.sq link sq = {} ∧
      (t.reg (ra .HIF_SQ_CFG link sq)).getLsbD 31 = false ∧ s.sameData t ∧ s.sameManagement t ∧ t.hif.cqs = s.hif.cqs)) ∧
  (∀ (link : Fin 2) (cq : Fin 64) (v : BitVec 32) (s : State), s.setupOpen → (s.cq link cq).enabled = false → v.getLsbD 31 = true →
    let a := ra .HIF_CQ_CFG link cq
    let ok := badRingSize v = false ∧
      s.inWindow (s.addrOf (ra .HIF_CQ_BASE_LO link cq) (ra .HIF_CQ_BASE_HI link cq), 64 * ringUnits v) = false ∧
      s.inWindow (s.addrOf (ra .HIF_CQ_STAT_LO link cq) (ra .HIF_CQ_STAT_HI link cq), 64) = false
    ∃ t, exec (.cqEnable link cq v) s = .next t ∧ s.sameData t ∧ s.sameCompute t ∧ s.sameSensing t ∧ s.sameSafety t ∧
      s.sameManagement t ∧ t.hif.sqs = s.hif.sqs ∧
      (ok → t.cq link cq = { enabled := true } ∧ t.reg a = maskReg a v ∧
        (∀ l q : Nat, ringKey l q ≠ ringKey link cq → t.cq l q = s.cq l q) ∧ s.sentNothing t) ∧
      (¬ ok → t.hif.cqs = s.hif.cqs ∧ (t.reg (ra .HIF_ERR_STATUS link)).getLsbD 1 = true ∧ (t.reg a).getLsbD 31 = false)) ∧
  (∀ (link : Fin 2) (cq : Fin 64) (v : BitVec 32) (s : State), s.setupOpen → (s.cq link cq).enabled = true →
    (v.getLsbD 31 = true → exec (.cqEnable link cq v) s = .next s) ∧
    (v.getLsbD 31 = false → ∃ t, exec (.cqEnable link cq v) s = .next t ∧ t.cq link cq = {} ∧
      (t.reg (ra .HIF_CQ_CFG link cq)).getLsbD 31 = false ∧ s.sameData t ∧ s.sameManagement t ∧ t.hif.sqs = s.hif.sqs)) ∧
  (∀ (link : Fin 2) (v : BitVec 32) (s : State), s.setupOpen →
    let a := ra .HIF_NOTICE_RING link
    ∃ t, exec (.hifNoticeRingWrite link v) s = .next t ∧ s.sameData t ∧ s.sameCompute t ∧ s.sameSensing t ∧ s.sameSafety t ∧
      s.sameManagement t ∧ t.hif.sqs = s.hif.sqs ∧ t.hif.cqs = s.hif.cqs ∧
      (v.getLsbD 31 = true ∧ s.isArchiveRing link (bits v 5 0) = true →
        t.reg a = s.reg a ∧ (t.reg (ra .HIF_ERR_STATUS link)).getLsbD 1 = true) ∧
      (¬ (v.getLsbD 31 = true ∧ s.isArchiveRing link (bits v 5 0) = true) → t.reg a = maskReg a v ∧ s.sameHost t ∧ s.sentNothing t))

/-- R246: a doorbell moves the tail of an SQ or the head of a CQ; a value at or above the ring's size, one that steps back or past the other
end, and one for a ring that is not enabled are discarded with HIF_ERR_STATUS.doorbell set. -/
def Obligations.doorbellsMove : Prop :=
  (∀ (link : Fin 2) (sq : Fin 64) (v : BitVec 32) (s : State),
    let r := s.sq link sq
    let n := s.sqUnits link sq
    let ok := r.run ≠ .DISABLED ∧ bits v 17 0 < n ∧ ringDist n r.head r.tail ≤ ringDist n r.head (bits v 17 0)
    ∃ t, exec (.sqDoorbell link sq v) s = .next t ∧ s.sameData t ∧ s.sameCompute t ∧ s.sameSensing t ∧ s.sameSafety t ∧
      s.sameManagement t ∧ t.hif.cqs = s.hif.cqs ∧
      (ok → t.sq link sq = { r with tail := bits v 17 0 } ∧ (∀ l q : Nat, ringKey l q ≠ ringKey link sq → t.sq l q = s.sq l q) ∧
        s.sameRegs t ∧ s.sentNothing t) ∧
      (¬ ok → t.hif.sqs = s.hif.sqs ∧ (t.reg (ra .HIF_ERR_STATUS link)).getLsbD 0 = true)) ∧
  (∀ (link : Fin 2) (cq : Fin 64) (v : BitVec 32) (s : State),
    let r := s.cq link cq
    let n := s.cqUnits link cq
    let ok := r.enabled = true ∧ bits v 17 0 < n ∧ ringDist n r.head (bits v 17 0) ≤ ringDist n r.head r.tail
    ∃ t, exec (.cqDoorbell link cq v) s = .next t ∧ s.sameData t ∧ s.sameCompute t ∧ s.sameSensing t ∧ s.sameSafety t ∧
      s.sameManagement t ∧ t.hif.sqs = s.hif.sqs ∧
      (ok → (t.cq link cq).head = bits v 17 0 ∧ (t.cq link cq).tail = r.tail ∧ (t.cq link cq).queue = r.queue ∧
        (∀ l q : Nat, ringKey l q ≠ ringKey link cq → t.cq l q = s.cq l q) ∧ s.sameRegs t ∧ s.sentNothing t) ∧
      (¬ ok → t.hif.cqs = s.hif.cqs ∧ (t.reg (ra .HIF_ERR_STATUS link)).getLsbD 0 = true))

/-- R245, R247, R250, R252, R253, R272: taking packets. A ring reads the packet at its head when it is all there; a poisoned one and one whose
header breaks R252 complete at once; an order flag waits for the ring's earlier packets; a header that says more than the limit, and 1 ms past
the tail, end in ERROR; HIF_SQ_RESTART leaves it. -/
def Obligations.packetsTaken : Prop :=
  (∀ (link : Fin 2) (sq : Fin 64) (header payload : List Byte) (hw : FetchHw) (s : State),
    ¬ (header.length = 64 ∧ payload.length = 64 * leAt header 2 2) →
    exec (.sqFetch link sq header payload hw) s = .fault .malformedHeader) ∧
  (∀ (link : Fin 2) (sq : Fin 64) (header payload : List Byte) (s : State), header.length = 64 → payload.length = 64 * leAt header 2 2 →
    s.linkRuns link = true → (s.sq link sq).run = .IDLE → (s.sq link sq).taken = [] → leAt header 2 2 ≤ 1025 →
    (s.sq link sq).head ≠ (s.sq link sq).tail →
    let p : Packet := { link := link, sq := sq, header := header, payload := payload, epoch := (s.link link).epoch }
    p.units ≤ ringDist (s.sqUnits link sq) (s.sq link sq).head (s.sq link sq).tail → (p.order = true → (s.sq link sq).outstanding = 0) →
    p.headerOk = true → p.type ≠ 0x08 → p.type ≠ 0x0A →
    ∃ t, exec (.sqFetch link sq header payload .ok) s = .next t ∧ (t.sq link sq).taken = [p] ∧ (t.sq link sq).run = .FETCHING ∧
      (t.sq link sq).head = (s.sq link sq).head ∧ (∀ l q : Nat, ringKey l q ≠ ringKey link sq → t.sq l q = s.sq l q) ∧
      t.hif.cqs = s.hif.cqs ∧ s.sameRegs t ∧ s.sameData t ∧ s.sameCompute t ∧ s.sameSensing t ∧ s.sameSafety t ∧ s.sameManagement t ∧
      s.sentNothing t) ∧
  (∀ (link : Fin 2) (sq : Fin 64) (header payload : List Byte) (hw : FetchHw) (s : State), header.length = 64 →
    payload.length = 64 * leAt header 2 2 →
    (s.linkRuns link = false ∨ (s.sq link sq).run = .DISABLED ∨ (s.sq link sq).run = .ERROR ∨ (s.sq link sq).head = (s.sq link sq).tail) →
    exec (.sqFetch link sq header payload hw) s = .next s) ∧
  (∀ (link : Fin 2) (sq : Fin 64) (s : State) (t0 : Nat), (s.sq link sq).shortSince = some t0 → t0 + 1000 ≤ s.now →
    ∃ t, exec (.sqTailTimeout link sq) s = .next t ∧ (t.sq link sq).run = .ERROR ∧ (t.sq link sq).shortSince = none ∧
      (t.reg (ra .HIF_ERR_STATUS link)).getLsbD 2 = true ∧ s.sameData t ∧ s.sameManagement t ∧ s.sameCompute t) ∧
  (∀ (link : Fin 2) (sq : Fin 64) (s : State), (∀ t0, (s.sq link sq).shortSince = some t0 → s.now < t0 + 1000) →
    exec (.sqTailTimeout link sq) s = .next s) ∧
  (∀ (link : Fin 2) (sq : Fin 64) (v : BitVec 32) (s : State), s.hif.hostReady = true →
    (v.getLsbD 0 = true → (s.sq link sq).run = .ERROR → ∃ t, exec (.hifSqRestart link sq v) s = .next t ∧
      (t.sq link sq).run = .IDLE ∧ (t.sq link sq).head = 0 ∧ (t.sq link sq).tail = 0 ∧ (t.sq link sq).taken = [] ∧
      t.hif.cqs = s.hif.cqs ∧ s.sameRegs t ∧ s.sameData t) ∧
    ((v.getLsbD 0 = false ∨ (s.sq link sq).run ≠ .ERROR) → exec (.hifSqRestart link sq v) s = .next s)) ∧
  (∀ (link : Fin 2) (sq : Fin 64) (s : State) (p : Packet), s.front link sq = some p → p.type = 0 ∨ 0x0E < p.type →
    exec (.badPacketType link sq) s = .next (s.takeFinish p Status.BAD_PACKET)) ∧
  (∀ (link : Fin 2) (sq : Fin 64) (s : State) (p : Packet), s.packet link sq 0x0C = some p →
    exec (.nop link sq) s = .next (s.takeFinish p (if p.argsOnly 16 then Status.OK else Status.BAD_PACKET))) ∧
  (∀ (link : Fin 2) (sq : Fin 64) (s : State) (p : Packet) (status : Nat) (result payload : List Byte), p.link = link → p.sq = sq →
    p.epoch = (s.link link).epoch →
    let t := s.takeFinish p status result payload
    let q := s.sqCq link sq
    (t.sq link sq).taken = (s.sq link sq).taken.drop 1 ∧ (t.sq link sq).run = .IDLE ∧
    (t.sq link sq).head = ((s.sq link sq).head + p.units) % s.sqUnits link sq ∧
    ((p.quiet = false ∨ status ≠ Status.OK ∨ p.hasResult = true) → (s.cq link q).enabled = true → (s.link link).lost = false →
      (t.cq link q).queue = (s.cq link q).queue ++ [{ kind := 0x80, link := link, cq := q, tag := p.tag, status := status
                                                      cmdType := p.type, sq := sq, result := result, payload := payload
                                                      epoch := p.epoch }]) ∧
    (p.quiet = true → status = Status.OK → p.hasResult = false → t.hif.cqs = s.hif.cqs))

/-- R248, R249, R254, R269: writing completions and their interrupts. The next part of the oldest completion goes out once it fits, and the ring's
tail and count move; a ring without room waits and is logged after 100 ms; the interrupt comes with its count or its time. -/
def Obligations.completionsWritten : Prop :=
  (∀ (link : Fin 2) (cq : Fin 64) (s : State) (c : Completion) (rest : List Completion), (s.cq link cq).queue = c :: rest →
    s.linkRuns link = true → (s.cq link cq).enabled = true → c.link = link → c.cq = cq → c.part = 0 → c.payload.length ≤ 65600 →
    c.units ≤ s.cqRoom link cq →
    ∃ t, exec (.completionWrite link cq false) s = .next t ∧ (t.cq link cq).queue = rest ∧
      (t.cq link cq).tail = ((s.cq link cq).tail + c.units) % s.cqUnits link cq ∧
      (t.cq link cq).written = ((s.cq link cq).written + 1) % 2 ^ 32 ∧ (t.cq link cq).fullSince = none ∧
      (∃ more, t.outputs = s.outputs ++ more ∧
        .hostWrite link (s.cqAddr link cq (s.cq link cq).tail) (completionHeader s c ((c.payload.length + 63) / 64) 0 false) ∈ more) ∧
      s.sameData t ∧ s.sameCompute t ∧ s.sameSensing t ∧ s.sameSafety t ∧ s.sameManagement t) ∧
  (∀ (link : Fin 2) (cq : Fin 64) (s : State) (c : Completion) (rest : List Completion), (s.cq link cq).queue = c :: rest →
    s.linkRuns link = true → (s.cq link cq).enabled = true → c.part = 0 → c.payload.length ≤ 65600 → s.cqRoom link cq < c.units →
    ∃ t, exec (.completionWrite link cq false) s = .next t ∧ (t.cq link cq).queue = c :: rest ∧
      (t.cq link cq).fullSince = some ((s.cq link cq).fullSince.getD s.now) ∧ s.sentNothing t ∧ s.sameRegs t) ∧
  (∀ (link : Fin 2) (cq : Fin 64) (s : State), (s.cq link cq).queue = [] → exec (.completionWrite link cq false) s = .next s) ∧
  (∀ (link : Fin 2) (cq : Fin 64) (s : State),
    let m := s.field (ra .HIF_CQ_MOD link cq) 23 8
    (∀ t0, (s.cq link cq).firstAt = some t0 → m ≠ 0 → t0 + m ≤ s.now →
      ∃ t, exec (.cqIrqTimer link cq) s = .next t ∧ (t.cq link cq).unsignalled = 0 ∧ (t.cq link cq).firstAt = none ∧
        (t.cq link cq).queue = (s.cq link cq).queue ∧ s.sameData t ∧ s.sameManagement t ∧
        ((s.link link).up = true → (s.link link).d3hot = false → (s.link link).lost = false →
          let v := s.field (ra .HIF_CQ_CFG link cq) 5 0
          (s.reg (ra .MSIX_TABLE link v 3)).getLsbD 0 = false → t.outputs = s.outputs ++ [.msix link v])) ∧
    ((s.cq link cq).firstAt = none ∨ m = 0 → exec (.cqIrqTimer link cq) s = .next s)) ∧
  (∀ (link : Fin 2) (cq : Fin 64) (s : State) (t0 : Nat), (s.cq link cq).fullSince = some t0 → t0 + 100000 ≤ s.now →
    (s.cq link cq).fullLogged = false → s.ledgerRoom →
    ∃ t, exec (.cqFullTimeout link cq) s = .next t ∧ s.logged t .CQ_FULL (4 + link) [link.val, cq.val] ∧
      (t.reg (ra .HIF_ERR_STATUS link)).getLsbD 5 = true ∧ (t.cq link cq).fullLogged = true ∧
      (t.cq link cq).queue = (s.cq link cq).queue ∧ s.sameData t ∧ s.sameCompute t) ∧
  (∀ (link : Fin 2) (cq : Fin 64) (s : State), ((s.cq link cq).fullSince = none ∨ (s.cq link cq).fullLogged = true) →
    exec (.cqFullTimeout link cq) s = .next s)

/-- R190, R238, R239, R257, R498: what the outside of a link does to its rings: a Function Level Reset and PERST_N empty them, loss of the link
disables them, and a power state is taken. -/
def Obligations.linkEventsRun : Prop :=
  (∀ (link : Fin 2) (s : State), (s.link link).up = true →
    ∃ t, exec (.flr link) s = .next t ∧ (t.link link).epoch = (s.link link).epoch + 1 ∧ (t.link link).up = true ∧
      ((∀ u, u < 12 → (s.streamOn link u && s.streamHost link u) = false) → s.sameData t ∧ t.cores = s.cores ∧ t.cache = s.cache ∧
        s.sameSensing t ∧ s.sameSafety t ∧ s.sameManagement t) ∧
      (∀ e ∈ t.hif.sqs, e.1 / 64 = link → e.2.taken = [] ∧ e.2.head = 0 ∧ e.2.tail = 0) ∧
      (∀ e ∈ t.hif.cqs, e.1 / 64 = link → e.2.head = 0 ∧ e.2.tail = 0 ∧ ∀ c ∈ e.2.queue, c.sq = 0xFF)) ∧
  (∀ (link : Fin 2) (s : State), (s.link link).up = false → exec (.flr link) s = .next s) ∧
  (∀ (link : Fin 2) (tr : Option (Nat × Nat)) (s : State), (s.link link).perst = false →
    ∃ t, exec (.pciePerst link true tr) s = .next t ∧ (t.link link).perst = true ∧ (t.link link).up = false ∧
      (t.link link).d3hot = false ∧ (∀ v w, v < 64 → w < 4 → t.reg (ra .MSIX_TABLE link v w) = (ra .MSIX_TABLE link v w).resetValue) ∧
      (∀ e ∈ t.hif.sqs, e.1 / 64 = link → e.2.taken = [])) ∧
  (∀ (link : Fin 2) (rate width : Nat) (s : State), s.pins.porst = true → (s.link link).lost = false →
    ∃ t, exec (.pciePerst link false (some (rate, width))) s = .next t ∧ (t.link link).up = true ∧ (t.link link).rate = rate ∧
      (t.link link).width = width ∧ (t.link link).perst = false ∧ (∀ j : Nat, j ≠ link → t.link j = s.link j) ∧
      s.sameData t ∧ s.sameRegs t ∧ s.sameCompute t ∧ s.sameSensing t ∧ s.sameSafety t ∧ s.sameManagement t) ∧
  (∀ (link : Fin 2) (s : State), (s.link link).up = true →
    ∃ t, exec (.hostLinkLoss link) s = .next t ∧ (t.link link).up = false ∧
      (∀ q, q < 64 → (t.sq link q).run = .DISABLED ∧ (t.cq link q).enabled = false ∧
        (t.reg (ra .HIF_SQ_CFG link q)).getLsbD 31 = false ∧ (t.reg (ra .HIF_CQ_CFG link q)).getLsbD 31 = false) ∧
      ((∀ u, u < 12 → (s.streamOn link u && s.streamHost link u) = false) → s.sameData t ∧ t.cores = s.cores ∧ t.cache = s.cache ∧
        s.sameSensing t ∧ s.sameSafety t ∧ s.sameManagement t)) ∧
  (∀ (link : Fin 2) (s : State), (s.link link).up = false → exec (.hostLinkLoss link) s = .next s) ∧
  (∀ (link : Fin 2) (d : Bool) (s : State), (s.link link).up = true →
    ∃ t, exec (.pciePowerStateChange link d) s = .next t ∧ (t.link link).d3hot = d ∧ (t.link link).up = true ∧
      (∀ j : Nat, j ≠ link → t.link j = s.link j) ∧ t.hif.sqs = s.hif.sqs ∧ t.hif.cqs = s.hif.cqs ∧
      s.sameData t ∧ s.sameRegs t ∧ s.sameCompute t ∧ s.sameSensing t ∧ s.sameSafety t ∧ s.sameManagement t)

/-- R136, R252, R259, R260, R266, R476: the packets of host data and management. TENSOR_PUT to memory writes all of its items or none; a part of a
SAMPLE joins its stream's open sample; TENSOR_GET answers the bytes with poisoned units as 0; a well-formed MGMT message waits in the inbox. -/
def Obligations.hostDataPackets : Prop :=
  (∀ (link : Fin 2) (sq : Fin 64) (s : State) (p : Packet) (a n : Nat), s.packet link sq 0x03 = some p → leAt p.header 16 1 = 0 →
    p.itemsOk = true → p.items = [(a, n)] → s.putStatus (a, n) = 0 → n ≤ p.payload.length → zeroFrom p.payload n p.payload.length = true →
    s.buffersIn a n = [] →
    ∃ t, exec (.tensorPutMemory link sq) s = .next t ∧
      t = ((s.take p).writeMem a (p.payload.take n)).finish p Status.OK ∧
      (∀ i, i < n → memGet t.mem (a + i) = nth 0 p.payload i) ∧
      (∀ b, (b < a ∨ a + n ≤ b) → memGet t.mem b = memGet s.mem b) ∧
      t.cores = s.cores ∧ t.graphs = s.graphs ∧ t.cache = s.cache ∧ s.sameSensing t ∧ s.sameSafety t ∧ s.sameManagement t) ∧
  (∀ (link : Fin 2) (sq : Fin 64) (s : State) (p : Packet), s.packet link sq 0x03 = some p → leAt p.header 16 1 ≠ 1 →
    (leAt p.header 16 1 ≠ 0 ∨ p.itemsOk = false) →
    exec (.tensorPutMemory link sq) s = .next (s.takeFinish p Status.BAD_PACKET)) ∧
  (∀ (link : Fin 2) (sq : Fin 64) (s : State) (p : Packet) (x : Nat × Nat), s.packet link sq 0x03 = some p → leAt p.header 16 1 = 0 →
    p.itemsOk = true → p.items = [x] → x.2 ≠ 0 → itemSkewed x = false → s.putStatus x ≠ 0 → x.2 ≤ p.payload.length →
    zeroFrom p.payload x.2 p.payload.length = true →
    exec (.tensorPutMemory link sq) s = .next (s.takeFinish p (s.putStatus x))) ∧
  (∀ (link : Fin 2) (sq : Fin 64) (late : List Nat) (s : State) (p : Packet) (u : Nat) (x : Sample), s.front link sq = some p →
    p.type = 3 → leAt p.header 16 1 = 1 → s.intakeRuns p.link = true → hostStream p.link p.samplePart.stream = some u →
    s.partStatus p (some u) = 0 → s.openSample p.link u = some x → s.buffered p.link u = false → p.samplePart.last = false →
    ∃ t, exec (.tensorPutSample link sq late) s = .next t ∧
      t = (s.modSample p.link x.id fun y =>
        { y with data := if y.kind = .DATA then y.data ++ p.partBytes else y.data, got := y.got + p.payload.length, held := y.held + 0 }
        ).takeFinish p Status.OK ∧ s.sameData t ∧ s.sameSafety t ∧ s.sameManagement t) ∧
  (∀ (link : Fin 2) (sq : Fin 64) (late : List Nat) (s : State) (p : Packet), s.front link sq = some p → p.type = 3 →
    leAt p.header 16 1 = 1 → s.partStatus p (hostStream p.link p.samplePart.stream) ≠ 0 →
    exec (.tensorPutSample link sq late) s =
      .next (s.takeFinish p (s.partStatus p (hostStream p.link p.samplePart.stream)))) ∧
  (∀ (link : Fin 2) (sq : Fin 64) (s : State) (p : Packet), s.packet link sq 0x04 = some p → p.itemsOk = true →
    leAt p.header 16 1 = 0 → p.payload = [] → (p.items.map (·.2)).foldl (· + ·) 0 ≤ 65536 →
    (∀ x ∈ p.items, x.2 ≠ 0 ∧ itemSkewed x = false ∧ validRange x.1 x.2 = true) →
    exec (.tensorGet link sq) s = .next (s.takeFinish p (if (p.items.map s.getItem).any (·.2) then Status.DATA_POISON else Status.OK) []
      ((p.items.map s.getItem).flatMap (·.1)))) ∧
  (∀ (link : Fin 2) (sq : Fin 64) (s : State) (p : Packet), s.packet link sq 0x04 = some p →
    (p.itemsOk = false ∨ leAt p.header 16 1 ≠ 0 ∨ p.payload ≠ []) →
    exec (.tensorGet link sq) s = .next (s.takeFinish p Status.BAD_PACKET)) ∧
  (∀ (link : Fin 2) (sq : Fin 64) (s : State) (p : Packet), s.packet link sq 0x0D = some p →
    let n := leAt p.header 16 4
    (n = 0 → exec (.mgmt link sq) s = .next (s.takeFinish p Status.ZERO_FIELD)) ∧
    (0 < n → n ≤ 65536 → n ≤ p.payload.length → zeroFrom p.payload n p.payload.length = true → zeroFrom p.header 20 44 = true →
      requestOk (p.payload.take n) = true →
      ∃ t, exec (.mgmt link sq) s = .next t ∧ t.mgt.inbox = s.mgt.inbox ++ [{ via := .ring p, bytes := p.payload.take n }] ∧
        t.hif = (s.take p).hif ∧ s.sameData t ∧ s.sameCompute t ∧ s.sameSensing t ∧ s.sameSafety t ∧ s.sentNothing t) ∧
    (0 < n → requestOk (p.payload.take n) = false → exec (.mgmt link sq) s = .next (s.takeFinish p Status.BAD_PACKET)))

/-- R60, R264, R311, R321, R339, R405, R444: the CONFIG items, for the entry that is next on a ring. An item in its range takes effect and its
status is recorded; an item that SETUP_LOCK locks completes SETUP_LOCKED; a value outside its range BAD_PACKET. -/
def Obligations.configItems : Prop :=
  (∀ (link : Fin 2) (sq : Fin 64) (s : State) (p : Packet) (e : List Byte) (gr : Graph), s.nextEntry link sq configType = some (p, e) →
    (s.sq link sq).run ≠ .HELD → leAt e 0 2 = 1 → s.graph? (leAt e 2 1) = some gr →
    (∃ c ∈ gr.bundle.cards, c.station = leAt e 4 2) → (gr.bundle.header.safety ≠ 1 ∨ s.hif.locked = false) →
    256 ≤ itemValue e → itemValue e ≤ 65536 →
    ∃ t, ∃ u : State, exec (.fitRatio link sq) s = .next t ∧ t = u.endEntry link sq configType 1 0 [] entryFuel ∧ u.hif = s.hif ∧
      s.sameData u ∧ u.graphs = s.graphs ∧ s.sameRegs u ∧ s.sameManagement u ∧
      (∀ x ∈ gr.placed, x.1.station = leAt e 4 2 → x.2.placed = true →
        (tblGet {} (u.core x.2.core).slots x.2.slot).nextRatio = some (itemValue e, gr.nextFrame))) ∧
  (∀ (link : Fin 2) (sq : Fin 64) (s : State) (p : Packet) (e : List Byte), s.nextEntry link sq configType = some (p, e) →
    (s.sq link sq).run ≠ .HELD → leAt e 0 2 = 2 →
    (120 ≤ itemValue e → itemValue e ≤ 360 →
      ∃ t, exec (.powerCap link sq) s = .next t ∧ t.thermal.cap = itemValue e ∧
        t = ({ s with thermal := { s.thermal with cap := itemValue e } } : State).endEntry link sq configType 2 0 [] entryFuel ∧
        s.sameData t ∧ s.sameCompute t ∧ s.sameSensing t ∧ t.lan = s.lan ∧ s.sameManagement t) ∧
    ((itemValue e < 120 ∨ 360 < itemValue e) →
      exec (.powerCap link sq) s = .next (s.endEntry link sq configType 2 Status.BAD_PACKET [] entryFuel))) ∧
  (∀ (link : Fin 2) (sq : Fin 64) (s : State) (p : Packet) (e : List Byte) (k : Nat), s.nextEntry link sq configType = some (p, e) →
    (s.sq link sq).run ≠ .HELD → s.hif.locked = false → s.groupOfGraph (leAt e 2 1) = some k →
    (leAt e 0 2 = 3 → 1000 ≤ itemValue e → itemValue e ≤ 200000 →
      ∃ t, ∃ u : State, exec (.setWait link sq) s = .next t ∧ t = u.endEntry link sq configType 3 0 [] entryFuel ∧
        (∀ h : Fin 2, u.reg (ra .ALN_G_WAIT h k) = word (itemValue e)) ∧ u = { s with regs := u.regs }) ∧
    (leAt e 0 2 = 4 → itemValue e ≤ 0xFFFFFFFF →
      ∃ t, ∃ u : State, exec (.refOrder link sq) s = .next t ∧ t = u.endEntry link sq configType 4 0 [] entryFuel ∧
        (∀ h : Fin 2, u.reg (ra .ALN_G_REF_ORDER h k) = word (itemValue e)) ∧ u = { s with regs := u.regs }) ∧
    (leAt e 0 2 = 6 → 1 ≤ itemValue e → itemValue e ≤ 1048576 →
      ∃ t, ∃ u : State, exec (.contradictionLimit link sq) s = .next t ∧ t = u.endEntry link sq configType 6 0 [] entryFuel ∧
        (∀ h : Fin 2, u.reg (ra .ALN_G_CONTRA_LIMIT h k) = word (itemValue e)) ∧ u = { s with regs := u.regs })) ∧
  (∀ (link : Fin 2) (sq : Fin 64) (s : State) (p : Packet) (e : List Byte), s.nextEntry link sq configType = some (p, e) →
    (s.sq link sq).run ≠ .HELD → s.hif.locked = false → leAt e 0 2 = 5 → 50 ≤ itemValue e → itemValue e ≤ 1000 →
    ∃ t, exec (.selftestPeriod link sq) s = .next t ∧ (∀ l : Fin 2, t.lantern l = { s.lantern l with periodMs := itemValue e }) ∧
      s.sameData t ∧ s.sameCompute t ∧ s.sameSensing t ∧ s.sameManagement t) ∧
  (∀ (link : Fin 2) (sq : Fin 64) (s : State) (p : Packet) (e : List Byte), s.nextEntry link sq configType = some (p, e) →
    (s.sq link sq).run ≠ .HELD → s.hif.locked = true →
    (leAt e 0 2 = 3 → exec (.setWait link sq) s = .next (s.endEntry link sq configType 3 Status.SETUP_LOCKED [] entryFuel)) ∧
    (leAt e 0 2 = 4 → exec (.refOrder link sq) s = .next (s.endEntry link sq configType 4 Status.SETUP_LOCKED [] entryFuel)) ∧
    (leAt e 0 2 = 5 → exec (.selftestPeriod link sq) s = .next (s.endEntry link sq configType 5 Status.SETUP_LOCKED [] entryFuel)) ∧
    (leAt e 0 2 = 6 → exec (.contradictionLimit link sq) s = .next (s.endEntry link sq configType 6 Status.SETUP_LOCKED [] entryFuel)))

/-- R262, R347, R351 … R354, R377, R378: MAP_EDITION and PLAN_REQ packets. One that its checks pass is ordered, or waits at its planners, and completes later; one that
they do not completes at once with the code that says why. -/
def Obligations.planPacketsTaken : Prop :=
  (∀ (link : Fin 2) (sq : Fin 64) (s : State) (p : Packet), s.packet link sq 0x05 = some p → leAt p.header 17 1 = 0 →
    let n := leAt p.header 24 4
    let base := leAt p.header 20 4
    let good := zeroFrom p.header 18 2 = true ∧ zeroFrom p.header 28 36 = true ∧ n ≤ 16384 ∧ 4 * n ≤ p.payload.length ∧
      zeroFrom p.payload (4 * n) p.payload.length = true ∧
      (∀ e ∈ p.deltaEntries, bitsN e 31 28 < (s.planSetNow s.planLeader).n) ∧
      repeats (p.deltaEntries.map fun e => (deltaCell e).1) = false ∧ 1 ≤ p.planners ∧ p.planners ≤ 3
    (¬ good → ∃ st, st ≠ 0 ∧ exec (.mapEditionDelta link sq) s = .next (s.takeFinish p st)) ∧
    (good → s.namedPlanners p.planners = [] → exec (.mapEditionDelta link sq) s = .next (s.takeFinish p Status.FENCED)) ∧
    (good → s.namedPlanners p.planners ≠ [] → n = 0 →
      exec (.mapEditionDelta link sq) s = .next (s.takeFinish p Status.OK (toLe 4 (s.planner s.planLeader).newest))) ∧
    (good → s.namedPlanners p.planners ≠ [] → n ≠ 0 → base ≠ 0 → base ≠ s.pln.lastNumber →
      exec (.mapEditionDelta link sq) s = .next (s.takeFinish p Status.NOT_READY)) ∧
    (good → s.namedPlanners p.planners ≠ [] → n ≠ 0 → (base = 0 ∨ base = s.pln.lastNumber) →
      ∃ t, exec (.mapEditionDelta link sq) s = .next t ∧ t.pln.lastNumber = nextEdition s.pln.lastNumber ∧
        t.pln.waiting = s.pln.waiting ++ [(nextEdition s.pln.lastNumber, p, s.namedPlanners p.planners)] ∧
        (t.planner s.planLeader).staging = (s.planner s.planLeader).staging ++
          [{ edition := nextEdition s.pln.lastNumber, planners := p.planners, what := .delta p.deltaEntries }] ∧
        t.hif = (s.take p).hif ∧ s.sameData t ∧ s.sameCompute t ∧ t.sin = s.sin ∧ t.aln = s.aln ∧ s.sameSafety t ∧ s.sameManagement t ∧
        s.sentNothing t)) ∧
  (∀ (link : Fin 2) (sq : Fin 64) (s : State) (p : Packet), s.packet link sq 0x05 = some p → leAt p.header 17 1 ≠ 0 →
    let good := zeroFrom p.header 18 14 = true ∧ zeroFrom p.header 44 20 = true ∧ p.payload = [] ∧ leAt p.header 17 1 = 1 ∧
      1 ≤ p.planners ∧ p.planners ≤ 3
    (¬ good → ∃ st, st ≠ 0 ∧ exec (.mapEditionRoadmap link sq) s = .next (s.takeFinish p st)) ∧
    (good → s.namedPlanners p.planners ≠ [] →
      (s.checkMap (leAt p.header 32 8) (leAt p.header 40 4) = .poison →
        exec (.mapEditionRoadmap link sq) s = .next (s.takeFinish p Status.DATA_POISON)) ∧
      (s.checkMap (leAt p.header 32 8) (leAt p.header 40 4) = .digest →
        ∃ t, ∃ u : State, exec (.mapEditionRoadmap link sq) s = .next t ∧ t = u.takeFinish p Status.BAD_PACKET ∧
          (s.ledgerRoom → s.logged t .ROADMAP_DIGEST (4 + s.planLeader) []) ∧ t.pln = s.pln ∧ s.sameData t) ∧
      (∀ m, s.checkMap (leAt p.header 32 8) (leAt p.header 40 4) = .ok m →
        ∃ t, exec (.mapEditionRoadmap link sq) s = .next t ∧ t.pln.lastNumber = nextEdition s.pln.lastNumber ∧
          t.pln.waiting = s.pln.waiting ++ [(nextEdition s.pln.lastNumber, p, s.namedPlanners p.planners)] ∧
          (t.planner s.planLeader).staging = (s.planner s.planLeader).staging ++
            [{ edition := nextEdition s.pln.lastNumber, planners := p.planners, what := .roadmap m }] ∧
          t.hif = (s.take p).hif ∧ s.sameData t ∧ s.sameCompute t ∧ s.sameSafety t ∧ s.sameManagement t))) ∧
  (∀ (link : Fin 2) (sq : Fin 64) (s : State) (p : Packet), s.front link sq = some p → p.type = 0x06 →
    let n := leAt p.header 18 2
    let hs := s.namedPlanners p.planners
    let good := 1 ≤ n ∧ n ≤ 2048 ∧ zeroFrom p.header 17 1 = true ∧ zeroFrom p.header 36 28 = true ∧ p.payload = [] ∧ 1 ≤ p.planners ∧
      p.planners ≤ 3 ∧ hs ≠ [] ∧ ∀ h ∈ hs, s.requestStatus h p = 0
    (¬ good → ∃ st, st ≠ 0 ∧ exec (.planReq link sq) s = .next (s.takeFinish p st)) ∧
    (good → (∃ h ∈ hs, 8 ≤ (s.planner h).requests.length) → exec (.planReq link sq) s = .next (s.hold p)) ∧
    (good → (∀ h ∈ hs, (s.planner h).requests.length < 8) →
      let q : PlanRequest := { id := s.pln.nextRequest, pkt := p, planners := p.planners, takenAt := s.now }
      ∃ t, exec (.planReq link sq) s = .next t ∧ t.pln.active = s.pln.active ++ [q] ∧ t.pln.nextRequest = s.pln.nextRequest + 1 ∧
        (∀ h ∈ hs, (t.planner h).requests = (s.planner h).requests ++ [q]) ∧ t.hif = (s.take p).hif ∧ s.sameData t ∧ s.sameCompute t ∧
        s.sameSafety t ∧ s.sameManagement t))

/-- R489 … R491: ATTEST packets and the signing of the oldest waiting request, whose index is reserved in flash before it is used. -/
def Obligations.attestationsSigned : Prop :=
  (∀ (link : Fin 2) (sq : Fin 64) (writeOk : Bool) (s : State) (p : Packet), s.front link sq = some p → p.type = 0x0E →
    let good := leAt p.header 48 1 ≤ 1 ∧ zeroFrom p.header 49 15 = true ∧ p.payload = []
    (¬ good → exec (.attest link sq false writeOk) s = .next (s.takeFinish p Status.BAD_PACKET)) ∧
    (good → 16 ≤ s.mgt.attestWait.length → exec (.attest link sq false writeOk) s = .next (s.hold p)) ∧
    (good → s.mgt.attestWait.length < 16 → ∃ t, exec (.attest link sq false writeOk) s = .next t ∧
      t.mgt.attestWait = s.mgt.attestWait ++ [.packet p] ∧ t.mgt.queue = s.mgt.queue ∧ t.hif = (s.take p).hif ∧ s.sameData t ∧
      s.sameCompute t ∧ s.sameSensing t ∧ s.sameSafety t ∧ s.sentNothing t)) ∧
  (∀ (link : Fin 2) (sq : Fin 64) (writeOk : Bool) (s : State), s.mgt.attestWait = [] →
    exec (.attest link sq true writeOk) s = .next s) ∧
  (∀ (link : Fin 2) (sq : Fin 64) (writeOk : Bool) (s : State) (p : Packet) (rest : List AttestFor), s.mgt.attestWait = .packet p :: rest →
    s.managed = true →
    let h := s.mgt.active
    let m := s.hubMgt h
    let nonce := (p.header.drop 16).take 32
    (m.xmssNext < 2 ^ 40 → (m.xmssNext < m.xmssEnd ∨ writeOk = true) →
      ∃ t, ∃ u : State, exec (.attest link sq true writeOk) s = .next t ∧ u.mgt.attestWait = rest ∧
        (u.hubMgt h).xmssNext = m.xmssNext + 1 ∧
        (u.hubMgt h).xmssEnd = (if m.xmssNext < m.xmssEnd then m.xmssEnd else m.xmssEnd + 1024) ∧
        (let head := u.reportHead h m.xmssNext nonce
         t = u.finish p Status.OK [] (head ++ padTo 9893 (Config.xmssmtSign h m.xmssNext head) ++
          if leAt p.header 48 1 = 1 then Config.certificate h else [])) ∧
        s.sameData u ∧ s.sameCompute u ∧ s.sameSensing u ∧ s.sameSafety u ∧ s.sameHost u) ∧
    (m.xmssNext < 2 ^ 40 → m.xmssEnd ≤ m.xmssNext → writeOk = false → h < 2 → s.ledgerRoom →
      ∃ t, ∃ u : State, exec (.attest link sq true writeOk) s = .next t ∧ t = u.finish p Status.NOT_READY ∧ u.mgt.attestWait = rest ∧
        (t.reg (ra .SEC_ERR_STATUS h)).getLsbD 2 = true ∧ s.logged t .XMSS_STATE_FAIL (4 + h) [h]) ∧
    (2 ^ 40 ≤ m.xmssNext → h < 2 → s.ledgerRoom →
      ∃ t, ∃ u : State, exec (.attest link sq true writeOk) s = .next t ∧ t = u.finish p Status.NOT_READY ∧ u.mgt.attestWait = rest ∧
        (t.reg (ra .SEC_ERR_STATUS h)).getLsbD 3 = true ∧ s.logged t .XMSS_EXHAUSTED (4 + h) [h]))

/-! ### Sensors and alignment (spec/09_sensor_intake.md, spec/10_alignment_fusion.md) -/

/-- R279 … R284, R290, R292, R306: what the sensor ports receive. A CSI-2 frame makes a sample line by line, an Ethernet frame a JPEG or a sweep; an error makes
the open sample LOST; what matches no stream is counted. -/
def Obligations.portsReceive : Prop :=
  (∀ (h : Fin 2) (p : Fin 4) (vc : Fin 32) (ecc : EccHw) (s : State), (s.intakeRuns h = false ∨ s.portOn h p = false) →
    (∀ late, exec (.csi2FrameStart h p vc ecc late) s = .next s) ∧ exec (.csi2FrameEnd h p vc ecc) s = .next s ∧
    (∀ dt bs crc, exec (.csi2LongPacket h p vc dt bs ecc crc) s = .next s)) ∧
  (∀ (h : Fin 2) (p : Fin 4) (vc : Fin 32) (late : List Nat) (s : State) (u : Nat), s.csiStream h p vc = some u → s.sampleIds h →
    s.entriesFull h u = false → s.openSample h u = none →
    ∃ t, ∃ x : Sample, exec (.csi2FrameStart h p vc .ok late) s = .next t ∧ (t.intake h).samples = (s.intake h).samples ++ [x] ∧
      x.id = (s.intake h).nextId ∧ x.stream = u ∧ x.index = (s.stream h u).next ∧ x.arrival = s.arrival h ∧ x.kind = .DATA ∧
      x.st = .receiving ∧ x.lines = [] ∧ (t.stream h u).next = (s.stream h u).next + 1 ∧ (t.intake h).nextId = (s.intake h).nextId + 1 ∧
      { id := x.id, stream := u, arrival := x.arrival, begins := true } ∈ (t.intake h).reports ∧
      t.reg (ra .SIN_P_RX h p) = s.reg (ra .SIN_P_RX h p) + 1 ∧ t.reg (ra .SIN_S_SAMPLES h u) = s.reg (ra .SIN_S_SAMPLES h u) + 1 ∧
      s.sensorsOnly t ∧ t.graphs = s.graphs ∧ s.sameHost t ∧ s.sameManagement t ∧ t.aln = s.aln) ∧
  (∀ (h : Fin 2) (p : Fin 4) (vc : Fin 32) (late : List Nat) (s : State) (u : Nat) (x : Sample), s.csiStream h p vc = some u →
    s.sampleIds h → s.openSample h u = some x → x.kind = .DATA →
    (∃ t, exec (.csi2FrameStart h p vc .ue late) s = .next t ∧ t.becomes h x .LOST ∧
      (s.mgt.active < 2 → (t.reg (ra .SIN_ERR_STATUS h)).getLsbD 2 = true) ∧ s.sensorsOnly t) ∧
    (∃ t, exec (.csi2FrameEnd h p vc .ue) s = .next t ∧ t.becomes h x .LOST ∧ s.sensorsOnly t)) ∧
  (∀ (h : Fin 2) (p : Fin 4) (vc : Fin 32) (dt : Nat) (bs : List Byte) (s : State) (u : Nat) (x : Sample), s.csiStream h p vc = some u →
    s.sampleIds h → s.openSample h u = some x → x.kind = .DATA →
    (dt = csiType (s.streamFmt h u) → s.pipeWaits h p = false →
      ∃ t, exec (.csi2LongPacket h p vc dt bs .ok true) s = .next t ∧
        t.sample? h x.id = some { x with lines := x.lines ++ [bs], got := x.got + bs.length } ∧
        (t.intake h).samples.length = (s.intake h).samples.length ∧ t.reg (ra .SIN_P_RX h p) = s.reg (ra .SIN_P_RX h p) + 1 ∧
        s.sensorsOnly t ∧ t.graphs = s.graphs ∧ s.sameHost t ∧ s.sameManagement t) ∧
    (dt = 0x12 → x.embedded = false → (s.sinReg h .SIN_S_STAMP u).getLsbD 31 = true →
      ∃ t, exec (.csi2LongPacket h p vc dt bs .ok true) s = .next t ∧ t.sample? h x.id =
        some { x with embedded := true, stamp := leAt bs (bits (s.sinReg h .SIN_S_STAMP u) 15 0) 8 } ∧ s.sensorsOnly t ∧
        t.graphs = s.graphs ∧ s.sameManagement t) ∧
    (∃ t, exec (.csi2LongPacket h p vc dt bs .ok false) s = .next t ∧ t.becomes h x .LOST ∧ s.sensorsOnly t)) ∧
  (∀ (h : Fin 2) (p : Fin 4) (vc : Fin 32) (dt : Nat) (bs : List Byte) (s : State) (u : Nat), s.csiStream h p vc = some u →
    dt ≠ 0x12 → dt ≠ csiType (s.streamFmt h u) →
    ∃ t, exec (.csi2LongPacket h p vc dt bs .ok true) s = .next t ∧
      t.reg (ra .SIN_P_DROP h p) = satInc (s.reg (ra .SIN_P_DROP h p)) 1 ∧ t.sin = s.sin ∧ s.sensorsOnly t ∧ t.graphs = s.graphs ∧
      s.sameHost t ∧ s.sameManagement t) ∧
  (∀ (h : Fin 2) (p : Fin 4) (vc : Fin 32) (s : State) (u : Nat) (x : Sample), s.csiStream h p vc = some u → s.sampleIds h →
    s.openSample h u = some x → x.kind = .DATA →
    (s.linesKind h u x.lines = .DATA → ∃ t, exec (.csi2FrameEnd h p vc .ok) s = .next t ∧
      t.sample? h x.id = some { x with st := .ready, width := (x.lines.headD []).length * 8 / rawBits (s.streamFmt h u)
                                       height := x.lines.length } ∧ s.sensorsOnly t ∧ t.graphs = s.graphs ∧ s.sameManagement t) ∧
    (∀ k, s.linesKind h u x.lines = k → k ≠ .DATA →
      ∃ t, exec (.csi2FrameEnd h p vc .ok) s = .next t ∧ t.becomes h x k ∧ s.sensorsOnly t)) ∧
  (∀ (h e : Fin 2) (f : List Byte) (late : List Nat) (s : State), s.intakeRuns h = true → s.portOn h (4 + e) = true →
    let p := 4 + e.val
    let vlan := if s.sinField h .SIN_P_CFG p 12 12 = 1 then some (s.sinField h .SIN_P_CFG p 11 0) else none
    (readEth vlan f = .drop → ∃ t, exec (.sensorEthFrame h e f late) s = .next t ∧
      t.reg (ra .SIN_P_RX h p) = s.reg (ra .SIN_P_RX h p) + 1 ∧ t.reg (ra .SIN_P_DROP h p) = satInc (s.reg (ra .SIN_P_DROP h p)) 1 ∧
      (t.reg (ra .SIN_ERR_STATUS h)).getLsbD 2 = true ∧ t.sin = s.sin ∧ s.sensorsOnly t) ∧
    (readEth vlan f = .ignore → ∃ t, exec (.sensorEthFrame h e f late) s = .next t ∧
      t.reg (ra .SIN_P_RX h p) = s.reg (ra .SIN_P_RX h p) + 1 ∧ t.sin = s.sin ∧ s.sensorsOnly t ∧ s.sameHost t) ∧
    ((readEth vlan f = .other ∨ ∃ port body, readEth vlan f = .udp port body ∧ s.udpStream h e port = none) →
      ∃ t, exec (.sensorEthFrame h e f late) s = .next t ∧
        t.reg (ra .SIN_P_UNMATCHED h p) = satInc (s.reg (ra .SIN_P_UNMATCHED h p)) 1 ∧ t.sin = s.sin ∧ s.sensorsOnly t) ∧
    (∀ port body u, readEth vlan f = .udp port body → s.udpStream h e port = some u → s.streamFmt h u = 0x10 → s.sampleIds h →
      s.openSample h u = none → s.entriesFull h u = false → leAt body 0 2 = 0x4A46 → 24 < body.length →
      leAt body 2 1 % 4 = 3 → leAt body 8 4 = 0 → leAt body 12 4 = (body.drop 24).length →
      s.heldBytes h u + (body.drop 24).length ≤ s.shareBytes h u →
      ∃ t, ∃ x : Sample, exec (.sensorEthFrame h e f late) s = .next t ∧ t.sample? h (s.intake h).nextId = some x ∧ x.stream = u ∧
        x.data = body.drop 24 ∧ x.st = .ready ∧ x.kind = .DATA ∧ x.stamp = leAt body 16 8 ∧ x.index = (s.stream h u).next ∧
        (s.intake h).nextId ∈ (t.intake h).ready ∧ s.sensorsOnly t ∧ t.graphs = s.graphs) ∧
    (∀ port body u x, readEth vlan f = .udp port body → s.udpStream h e port = some u → s.streamFmt h u = 0x20 → s.sampleIds h →
      s.openSample h u = some x → x.kind = .DATA →
      let d := s.pointDesc h u
      let stamp := if leAt d 26 2 = 0xFFFF then 0 else leAt body (leAt d 26 2) 8
      let base : Int := ((stamp : Int) - x.stamp) * (s.stampUnit h u : Nat)
      let ps := (recordsOf d body false).map (pointRow d · base)
      leAt d 24 2 = 0xFFFF → leAt d 31 1 = 0 → bitN (leAt body (leAt d 28 2) 1) (leAt d 30 1) = false →
      s.heldBytes h u + body.length ≤ s.shareBytes h u → x.points.length + ps.length ≤ (s.streamMax h u).1 * (s.streamMax h u).2 →
      ∃ t, ∃ y : Sample, exec (.sensorEthFrame h e f late) s = .next t ∧ t.sample? h x.id = some y ∧ y.points = x.points ++ ps ∧
        y.st = .receiving ∧ y.kind = .DATA ∧ y.held = x.held + body.length ∧ s.sensorsOnly t ∧ t.graphs = s.graphs)) ∧
  (∀ (h e : Fin 2) (f : List Byte) (late : List Nat) (s : State), (s.intakeRuns h = false ∨ s.portOn h (4 + e) = false) →
    exec (.sensorEthFrame h e f late) s = .next s)

/-- R285: the CAN FD ports. A frame that an enabled filter accepts becomes the newest of at most 4,096 records; bus-off ends by its recovery. -/
def Obligations.canFramesKept : Prop :=
  (∀ (h p : Fin 2) (id : Nat) (ext fd brs esi : Bool) (bs : List Byte) (s : State), s.intakeRuns h = true → s.portOn h (6 + p) = true →
    (s.sinPort h (6 + p)).busOff = false →
    let r : CanRecord := { arrival := s.arrival h, id := id % 2 ^ (if ext then 29 else 11), ext := ext, fd := fd, brs := brs, esi := esi
                           data := bs.take (if fd then 64 else 8) }
    (s.canAccepts h (6 + p) r.id = true → s.streamOn h (12 + p) = true →
      ∃ t, exec (.sensorCanFrame h p id ext fd brs esi bs) s = .next t ∧
        (p.val = 0 → (t.intake h).can0 = ((s.intake h).can0 ++ [r]).drop ((s.intake h).can0.length + 1 - 4096) ∧
          (t.intake h).can1 = (s.intake h).can1) ∧
        (p.val = 1 → (t.intake h).can1 = ((s.intake h).can1 ++ [r]).drop ((s.intake h).can1.length + 1 - 4096) ∧
          (t.intake h).can0 = (s.intake h).can0) ∧
        t.reg (ra .SIN_P_RX h (6 + p)) = s.reg (ra .SIN_P_RX h (6 + p)) + 1 ∧ (t.intake h).samples = (s.intake h).samples ∧
        s.sensorsOnly t ∧ t.graphs = s.graphs ∧ s.sameHost t ∧ s.sameManagement t ∧ t.aln = s.aln) ∧
    ((s.canAccepts h (6 + p) r.id = false ∨ s.streamOn h (12 + p) = false) →
      ∃ t, exec (.sensorCanFrame h p id ext fd brs esi bs) s = .next t ∧
        t.reg (ra .SIN_P_RX h (6 + p)) = s.reg (ra .SIN_P_RX h (6 + p)) + 1 ∧ t.sin = s.sin ∧ s.sensorsOnly t)) ∧
  (∀ (h p : Fin 2) (id : Nat) (ext fd brs esi : Bool) (bs : List Byte) (s : State),
    (s.intakeRuns h = false ∨ s.portOn h (6 + p) = false ∨ (s.sinPort h (6 + p)).busOff = true) →
    exec (.sensorCanFrame h p id ext fd brs esi bs) s = .next s) ∧
  (∀ (h p : Fin 2) (s : State),
    ((s.sinPort h (6 + p)).busOff = true → ∃ t, exec (.canBusOffRecovery h p) s = .next t ∧
      t.sinPort h (6 + p) = { s.sinPort h (6 + p) with busOff := false, passive := false } ∧ s.sensorsOnly t ∧ s.sameRegs t ∧
      t.graphs = s.graphs ∧ s.sameManagement t) ∧
    ((s.sinPort h (6 + p)).busOff = false → exec (.canBusOffRecovery h p) s = .next s)) ∧
  (∀ (h p : Fin 2) (passive busOff : Bool) (s : State), ∃ t, exec (.canErrorStateChange h p passive busOff) s = .next t ∧
    t.sinPort h (6 + p) = { s.sinPort h (6 + p) with passive := passive, busOff := busOff } ∧ s.sensorsOnly t ∧ s.sameRegs t ∧
    t.graphs = s.graphs ∧ s.sameManagement t) ∧
  (∀ (h : Fin 2) (p : Fin 8) (up : Bool) (s : State), ∃ t, exec (.sensorPortLinkChange h p up) s = .next t ∧
    t.sinPort h p = { s.sinPort h p with up := up } ∧ s.sensorsOnly t ∧ s.sameRegs t ∧ t.graphs = s.graphs ∧ s.sameManagement t)

/-- R289, R294 … R296: a decoder takes the sample that has been ready longest, unless its JPEG does not pass the checks; it finishes within the
budget and its time enters the mean of 32, or the sample becomes a DECODE_OVERRUN placeholder. -/
def Obligations.decodersRun : Prop :=
  (∀ (h : Fin 2) (s : State) (id : Nat) (rest : List Nat) (x : Sample), (s.intake h).ready = id :: rest → s.sample? h id = some x →
    (s.streamFmt h x.stream ≠ 0x10 ∨ s.jpegBad h x.stream x.data = false) →
    (∀ d, s.freeDecoder h = some d → ∃ t, exec (.decodeStart h) s = .next t ∧ (t.intake h).ready = rest ∧
      t.sample? h id = some { x with st := .decoding, decoder := some d, decodeSince := s.now } ∧ s.sensorsOnly t ∧ s.sameRegs t ∧
      t.graphs = s.graphs ∧ t.aln = s.aln ∧ s.sameHost t ∧ s.sameManagement t) ∧
    (s.freeDecoder h = none → exec (.decodeStart h) s = .next s)) ∧
  (∀ (h : Fin 2) (s : State) (id : Nat) (rest : List Nat) (x : Sample), (s.intake h).ready = id :: rest → s.sample? h id = some x →
    s.sampleIds h → x.kind = .DATA → s.streamFmt h x.stream = 0x10 → s.jpegBad h x.stream x.data = true →
    ∃ t, exec (.decodeStart h) s = .next t ∧ t.becomes h x .DIM_IMPLAUSIBLE ∧ s.sensorsOnly t) ∧
  (∀ (h : Fin 2) (s : State), (s.intake h).ready = [] → exec (.decodeStart h) s = .next s) ∧
  (∀ (h : Fin 2) (d : Fin 8) (cycles : Nat) (s : State) (x y : Sample), s.inDecoder h d = some x → cycles ≤ s.budgetCycles h x.stream →
    s.decoded h x = some y →
    ∃ t, exec (.decodeDone h d cycles) s = .next t ∧
      t.sample? h x.id = some { y with st := .decoded, decoder := none, data := [], held := 0 } ∧
      (t.stream h x.stream).times = ((s.stream h x.stream).times ++ [cycles]).drop ((s.stream h x.stream).times.length + 1 - 32) ∧
      s.sensorsOnly t ∧ s.sameRegs t ∧ t.graphs = s.graphs ∧ t.aln = s.aln ∧ s.sameHost t ∧ s.sameManagement t) ∧
  (∀ (h : Fin 2) (d : Fin 8) (cycles : Nat) (s : State) (x : Sample), s.inDecoder h d = some x → s.sampleIds h → x.kind = .DATA →
    cycles ≤ s.budgetCycles h x.stream → s.decoded h x = none →
    ∃ t, exec (.decodeDone h d cycles) s = .next t ∧ t.becomes h x .DIM_IMPLAUSIBLE ∧ s.sensorsOnly t) ∧
  (∀ (h : Fin 2) (d : Fin 8) (s : State) (x : Sample), s.inDecoder h d = some x → s.sampleIds h → x.kind = .DATA →
    (x.decodeSince * 800 + s.budgetCycles h x.stream ≤ s.now * 800 →
      ∃ t, exec (.decodeBudgetExpiry h d) s = .next t ∧ t.becomes h x .DECODE_OVERRUN ∧ s.sensorsOnly t ∧
        (s.mgt.active < 2 → (t.reg (ra .SIN_ERR_STATUS h)).getLsbD 4 = true ∧
          (x.stream < 12 → t.reg (ra .SIN_S_OVERRUNS h x.stream) = satInc (s.reg (ra .SIN_S_OVERRUNS h x.stream)) 1))) ∧
    (s.now * 800 < x.decodeSince * 800 + s.budgetCycles h x.stream → exec (.decodeBudgetExpiry h d) s = .next s))

/-- R290, R292, R297, R303, R307, R334: a complete sample becomes tiles for the frames of its set in the order of its stream; it leaves the reorder
buffer when its last tile has been sent, and a placeholder leaves with fill tiles. -/
def Obligations.samplesBecomeTiles : Prop :=
  (∀ (h : Fin 2) (u : Fin 12) (s : State) (x : Sample), s.intakeRuns h = true → s.frontSample h u = some x → s.pipeReady h x = true →
    ∃ t, exec (.pixelPipeline h u .ok) s = .next t ∧
      t.sample? h x.id = (s.sample? h x.id).map (fun y => { y with st := .decoded, sent := true, lines := [], planes := [], points := [] }) ∧
      (∀ b f, s.bindingsOf h u = [b] → x.frames.find? (fun f => f.1 == (s.binding h b).graph) = some f →
        t.graphs = (s.sendBinding h b f.2 (s.rawPlanes h x)).graphs) ∧
      (s.bindingsOf h u = [] → t.graphs = s.graphs) ∧
      ((s.streamFmt h u ≠ 0x20 ∨ u.val < 8) → t.aln = s.aln) ∧
      (s.streamFmt h u = 0x20 → 8 ≤ u.val → t.reg (ra .PRM_L_POINTS h (u.val - 8)) = word x.points.length ∧
        t.aln.store.getLast? = some { hub := h, stream := u, id := x.id, points := x.points }) ∧
      s.sensorsOnly t ∧ s.sameHost t ∧ s.sameManagement t) ∧
  (∀ (h : Fin 2) (u : Fin 12) (s : State) (x : Sample), s.intakeRuns h = true → s.frontSample h u = some x → s.sampleIds h →
    x.kind = .DATA → ∃ t, exec (.pixelPipeline h u .ue) s = .next t ∧ t.becomes h x .LOST ∧ s.sensorsOnly t ∧
      (s.mgt.active < 2 → (t.reg (ra .SIN_ERR_STATUS h)).getLsbD 1 = true)) ∧
  (∀ (h : Fin 2) (u : Fin 12) (s : State), s.intakeRuns h = true → s.frontSample h u = none →
    ∃ t, exec (.pixelPipeline h u .ce) s = .next t ∧ t.reg (ra .SIN_CE_COUNT h) = satInc (s.reg (ra .SIN_CE_COUNT h)) 1 ∧
      (t.reg (ra .SIN_ERR_STATUS h)).getLsbD 0 = true ∧ t.sin = s.sin ∧ s.sensorsOnly t) ∧
  (∀ (h : Fin 2) (u : Fin 12) (s : State), (s.intakeRuns h = false ∨ s.frontSample h u = none ∨
    ∃ x, s.frontSample h u = some x ∧ s.pipeReady h x = false) → exec (.pixelPipeline h u .ok) s = .next s) ∧
  (∀ (h : Fin 2) (u : Fin 12) (s : State) (x : Sample), s.frontSample h u = some x → x.assigned = true →
    (x.kind = .DATA → x.sent = true → s.tilesWait h u x.frames = false →
      ∃ t, exec (.reorderRelease h u) s = .next t ∧ (t.intake h).samples = (s.intake h).samples.filter (fun y => y.id != x.id) ∧
        (t.intake h).reports = (s.intake h).reports ++ [{ id := x.id, stream := x.stream, arrival := x.arrival, begins := false, kind := .DATA }] ∧
        (x.last = none → s.sampleIds h → s.sameHost t) ∧ s.sensorsOnly t ∧ t.graphs = s.graphs ∧ t.aln = s.aln ∧ s.sameManagement t) ∧
    (x.kind ≠ .DATA → x.st = .done → s.setTurn h u x.set = true →
      ∃ t, exec (.reorderRelease h u) s = .next t ∧ (t.intake h).samples = (s.intake h).samples.filter (fun y => y.id != x.id) ∧
        t.graphs = (s.fillTiles h u x.frames).graphs ∧ (t.intake h).reports = (s.intake h).reports ∧ s.sensorsOnly t ∧ s.sameRegs t ∧
        t.aln = s.aln ∧ s.sameHost t ∧ s.sameManagement t)) ∧
  (∀ (h : Fin 2) (u : Fin 12) (s : State), (s.frontSample h u = none ∨ ∃ x, s.frontSample h u = some x ∧ (x.assigned = false ∨
    (x.kind = .DATA ∧ (x.sent = false ∨ s.tilesWait h u x.frames = true)) ∨
    (x.kind ≠ .DATA ∧ (x.st ≠ .done ∨ s.setTurn h u x.set = false)))) → exec (.reorderRelease h u) s = .next s)

/-- R291, R306, R308, R309, R334, R345: enabling and disabling streams, bindings and the units of the prism: a set-up that the rules do not allow
leaves the unit disabled with bind_cfg or cfg set; and a silent port stream is reported once an episode. -/
def Obligations.sensorUnitsEnabled : Prop :=
  (∀ (h : Fin 2) (u : Fin 12) (s : State), s.intakeRuns h = true → s.fromPort h u = true → (s.stream h u).silent = false →
    (s.stream h u).lastBegin + 1000 * (s.sinReg h .SIN_S_SILENCE u).toNat ≤ s.now →
    (s.openSample h u = none → s.ledgerRoom → ∃ t, exec (.streamSilence h u) s = .next t ∧ (t.stream h u).silent = true ∧
      s.logged t .STREAM_SILENT (4 + h) [packageStream h u] ∧ (t.reg (ra .SIN_ERR_STATUS h)).getLsbD 6 = true ∧
      (t.intake h).samples = (s.intake h).samples ∧ s.sensorsOnly t ∧ t.graphs = s.graphs ∧ t.aln = s.aln) ∧
    (∀ x, s.openSample h u = some x → s.sampleIds h → x.kind = .DATA →
      ∃ t, exec (.streamSilence h u) s = .next t ∧ (t.stream h u).silent = true ∧ t.becomes h x .LOST ∧ s.sensorsOnly t)) ∧
  (∀ (h : Fin 2) (u : Fin 12) (s : State), (s.intakeRuns h = false ∨ s.fromPort h u = false ∨ (s.stream h u).silent = true ∨
    s.now < (s.stream h u).lastBegin + 1000 * (s.sinReg h .SIN_S_SILENCE u).toNat) → exec (.streamSilence h u) s = .next s) ∧
  (∀ (h : Fin 2) (u : Fin 14) (v : BitVec 32) (s : State), s.setupOpen → s.streamOn h u = false →
    ((12 ≤ u.val ∨ s.bufUnits h + s.sinField h .SIN_S_BUF u 8 0 ≤ 256) →
      ∃ t, exec (.streamEnable h u v) s = .next t ∧ t.reg (ra .SIN_S_CFG h u) = maskReg (ra .SIN_S_CFG h u) (v ||| 0x80000000) ∧
        t.streamOn h u = true ∧ (t.stream h u).next = 0 ∧ (t.stream h u).silent = false ∧ (t.stream h u).lastBegin = s.now ∧
        (t.intake h).samples = (s.intake h).samples ∧ s.sensorsOnly t ∧ t.graphs = s.graphs ∧ t.aln = s.aln ∧ s.sameHost t ∧
        s.sameManagement t) ∧
    (u.val < 12 → 256 < s.bufUnits h + s.sinField h .SIN_S_BUF u 8 0 →
      ∃ t, exec (.streamEnable h u v) s = .next t ∧ t.streamOn h u = false ∧ (t.reg (ra .SIN_ERR_STATUS h)).getLsbD 7 = true ∧
        t.sin = s.sin ∧ s.sensorsOnly t ∧ t.graphs = s.graphs ∧ t.aln = s.aln ∧ s.sameManagement t)) ∧
  (∀ (h : Fin 2) (u : Fin 14) (v : BitVec 32) (s : State), s.setupOpen → s.sampleIds h → s.mgt.active < 2 →
    ∃ t, exec (.streamDisable h u v) s = .next t ∧ t.streamOn h u = false ∧
      (∀ x ∈ (s.intake h).samples, (x.stream = u → x.kind = .DATA → t.becomes h x .LOST) ∧
        (x.stream ≠ u → t.sample? h x.id = some x)) ∧ s.sensorsOnly t) ∧
  (∀ (h : Fin 2) (b : Fin 16) (v : BitVec 32) (s : State), s.setupOpen →
    let a := ra .SIN_B_CFG h b
    let x := s.bindingOf h b (maskReg a (v ||| 0x80000000))
    let badEdge := ∃ gr, s.graph? x.graph = some gr ∧ ∃ n ∈ s.bindingNeeds h x, n.bad gr.bundle = true
    (s.bindingBad h x = false → ¬ badEdge → ∃ t, exec (.bindingEnable h b v) s = .next t ∧ t.reg a = maskReg a (v ||| 0x80000000) ∧
      (∀ c, c.key ≠ a.key → t.reg c = s.reg c) ∧ t.sin = s.sin ∧ s.sensorsOnly t ∧ t.graphs = s.graphs ∧ t.aln = s.aln ∧ s.sameHost t ∧
      s.sameManagement t ∧ s.sentNothing t) ∧
    ((s.bindingBad h x = true ∨ badEdge) → ∃ t, exec (.bindingEnable h b v) s = .next t ∧ (t.reg a).getLsbD 31 = false ∧
      (t.reg (ra .SIN_ERR_STATUS h)).getLsbD 7 = true ∧ t.sin = s.sin ∧ s.sensorsOnly t ∧ t.graphs = s.graphs ∧ t.aln = s.aln)) ∧
  (∀ (h : Fin 2) (c : Fin 16) (v : BitVec 32) (s : State), s.setupOpen →
    let a := ra .PRM_C_CFG h c
    let w := v ||| 0x80000000
    ((s.cameraOf h c w).bad = false → exec (.prismStreamEnable h (.camera c) v) s = .next (s.putReg a w)) ∧
    ((s.cameraOf h c w).bad = true → ∃ t, exec (.prismStreamEnable h (.camera c) v) s = .next t ∧ (t.reg a).getLsbD 31 = false ∧
      (t.reg (ra .PRM_ERR_STATUS h)).getLsbD 2 = true ∧ t.sin = s.sin ∧ s.sensorsOnly t ∧ t.aln = s.aln)) ∧
  (∀ (h : Fin 2) (l : Fin 4) (v : BitVec 32) (s : State), s.setupOpen →
    let a := ra .PRM_L_CFG h l
    let w := v ||| 0x80000000
    (s.pointSum h l ≤ 262144 → (∀ n ∈ s.pointNeeds h l (maskReg a w), s.needBad n = false) →
      exec (.prismStreamEnable h (.points l) v) s = .next (s.putReg a w)) ∧
    ((262144 < s.pointSum h l ∨ ∃ n ∈ s.pointNeeds h l (maskReg a w), s.needBad n = true) →
      ∃ t, exec (.prismStreamEnable h (.points l) v) s = .next t ∧ (t.reg a).getLsbD 31 = false ∧
        (t.reg (ra .PRM_ERR_STATUS h)).getLsbD 2 = true ∧ t.sin = s.sin ∧ s.sensorsOnly t ∧ t.aln = s.aln)) ∧
  (∀ (h : Fin 2) (v : BitVec 32) (s : State), s.setupOpen →
    let a := ra .PRM_CFG h
    let w := v ||| 0x80000000
    let wd := s.field (ra .PRM_BEV_SIZE h) 10 0
    let ht := s.field (ra .PRM_BEV_SIZE h) 26 16
    (1 ≤ wd → wd ≤ 1024 → 1 ≤ ht → ht ≤ 1024 → s.needBad (s.bevNeed h (maskReg a w)) = false →
      exec (.prismStreamEnable h .bev v) s = .next (s.putReg a w)) ∧
    ((wd = 0 ∨ 1024 < wd ∨ ht = 0 ∨ 1024 < ht ∨ s.needBad (s.bevNeed h (maskReg a w)) = true) →
      ∃ t, exec (.prismStreamEnable h .bev v) s = .next t ∧ (t.reg a).getLsbD 31 = false ∧
        (t.reg (ra .PRM_ERR_STATUS h)).getLsbD 2 = true ∧ t.sin = s.sin ∧ s.sensorsOnly t ∧ t.aln = s.aln))

/-- R311 … R313, R318 … R322, R326: a sample joins the set of its slot or makes a new one with the next frame number of each graph, a ninth set is
dropped, a set closes by its limit with its missing mask, and groups are set up package-wide. -/
def Obligations.setsFormAndClose : Prop :=
  (∀ (h : Fin 2) (s : State) (hw : IntakeHw), (s.intake h).reports = [] →
    exec (.sampleBeginReport h hw) s = .next s ∧ exec (.sampleCompleteReport h hw) s = .next s) ∧
  (∀ (h : Fin 2) (s : State) (r : SampleReport) (rest : List SampleReport), (s.intake h).reports = r :: rest → r.begins = true →
    r.stream < 12 →
    let ps := packageStream h r.stream
    (s.groupOf ps = none → ∃ t, exec (.sampleBeginReport h .ok) s = .next t ∧ (t.intake h).reports = rest ∧
      t.sample? h r.id = (s.sample? h r.id).map (fun y => { y with assigned := true }) ∧ s.sensorsOnly t ∧ s.sameRegs t ∧ t.graphs = s.graphs ∧
      t.aln = s.aln ∧ s.sameHost t ∧ s.sameManagement t) ∧
    (∀ g k, s.groupOf ps = some g → s.slotOf g ps r.arrival = (some k, false) → (s.group g).nextSet ≤ k → (s.pendingSets g).length < 8 →
      s.set? g k = none → s.mgt.active < 2 → ∃ t, exec (.sampleBeginReport h .ok) s = .next t ∧ (t.group g).nextSet = k + 1 ∧
        (∃ st, t.set? g k = some st ∧ st.frames = s.setFrames g ∧ st.closed = false ∧ ∃ m ∈ st.members, m.stream = ps ∧ m.id = r.id) ∧
        (t.intake h).reports = rest ∧ s.sameData t ∧ t.cores = s.cores ∧ t.net = s.net ∧ t.pln = s.pln ∧ s.sameSafety t) ∧
    (∀ g k, s.groupOf ps = some g → s.slotOf g ps r.arrival = (some k, false) → (s.group g).nextSet ≤ k → 8 ≤ (s.pendingSets g).length →
      s.mgt.active < 2 → ∃ t, exec (.sampleBeginReport h .ok) s = .next t ∧ (t.group g).nextSet = k + 1 ∧ (t.group g).sets = (s.group g).sets ∧
        (t.group g).dropping = true ∧ t.reg (ra .ALN_G_DROPPED s.mgt.active g) = satInc (s.reg (ra .ALN_G_DROPPED s.mgt.active g)) 1 ∧
        t.reg (ra .ALN_S_SURPLUS h r.stream) = satInc (s.reg (ra .ALN_S_SURPLUS h r.stream)) 1 ∧
        (t.reg (ra .ALN_ERR_STATUS s.mgt.active)).getLsbD 3 = true ∧
        ((s.group g).dropping = false → s.ledgerRoom → s.logged t .SET_DROPPED (4 + s.mgt.active) [g, k]) ∧ s.sensorsOnly t ∧
        t.graphs = s.graphs) ∧
    (∀ g k, s.groupOf ps = some g → s.slotOf g ps r.arrival = (some k, true) →
      ∃ t, exec (.sampleBeginReport h .ok) s = .next t ∧ (t.group g).sets = (s.group g).sets ∧
        t.reg (ra .ALN_S_SURPLUS h r.stream) = satInc (s.reg (ra .ALN_S_SURPLUS h r.stream)) 1 ∧
        t.sample? h r.id = (s.sample? h r.id).map (fun y => { y with assigned := true }) ∧ s.sensorsOnly t ∧ t.graphs = s.graphs ∧
        s.sameHost t ∧ s.sameManagement t)) ∧
  (∀ (h : Fin 2) (hw : IntakeHw) (s : State) (r : SampleReport) (rest : List SampleReport) (g : Nat) (st : FrameSet),
    (s.intake h).reports = r :: rest → r.begins = false → s.groupOf (packageStream h r.stream) = some g →
    ((s.group g).sets.map (·.num)).Nodup → st ∈ (s.group g).sets → st.closed = false →
    (s.group g).sets.find? (fun x => x.members.any fun m => m.stream == packageStream h r.stream && m.id == r.id) = some st →
    ∃ t, exec (.sampleCompleteReport h hw) s = .next t ∧ ∃ x ∈ (t.group g).sets, x.num = st.num ∧ x.firstDone.isSome = true ∧
      ∃ m ∈ x.members, m.stream = packageStream h r.stream ∧ m.id = r.id ∧ m.done = true ∧ m.kind = r.kind.code) ∧
  (∀ (h : Fin 2) (hw : IntakeHw) (s : State) (r : SampleReport) (rest : List SampleReport), (s.intake h).reports = r :: rest →
    r.begins = false → s.groupOf (packageStream h r.stream) = none →
    ∃ t, exec (.sampleCompleteReport h hw) s = .next t ∧ (t.intake h).reports = rest ∧ (t.intake h).samples = (s.intake h).samples ∧
      s.sensorsOnly t ∧ s.sameRegs t ∧ t.graphs = s.graphs ∧ t.aln = s.aln ∧ s.sameHost t ∧ s.sameManagement t) ∧
  (∀ (g : Fin 8) (hw : IntakeHw) (s : State),
    (∀ st t0, (s.group g).sets.find? (fun x => !x.closed) = some st → st.firstDone = some t0 → t0 + st.waitUs ≤ s.now →
      ((s.group g).sets.map (·.num)).Nodup →
      ∃ t, exec (.setWaitExpiry g hw) s = .next t ∧ ∃ x ∈ (t.group g).sets, x.num = st.num ∧ x.closed = true ∧ x.frames = st.frames ∧
        ∃ y, (s.judgeSet g st.num true).set? g st.num = some y ∧ x.missing = (s.judgeSet g st.num true).missingMask g y) ∧
    ((∀ st t0, (s.group g).sets.find? (fun x => !x.closed) = some st → st.firstDone = some t0 → s.now < t0 + st.waitUs) →
      exec (.setWaitExpiry g hw) s = .next s)) ∧
  (∀ (h : Fin 2) (g : Fin 8) (v : BitVec 32) (s : State), s.setupOpen →
    let w := maskReg (ra .ALN_G_CFG h g) (v ||| 0x80000000)
    (s.groupBad g w = true → ∃ t, exec (.groupEnable h g v) s = .next t ∧
      (∀ j : Fin 2, (t.reg (ra .ALN_G_CFG j g)).getLsbD 31 = false) ∧ (t.reg (ra .ALN_ERR_STATUS h)).getLsbD 7 = true ∧ t.aln = s.aln ∧
      t.sin = s.sin ∧ s.sensorsOnly t ∧ t.graphs = s.graphs) ∧
    (s.groupBad g w = false → s.groupOn g = false → s.mgt.active < 2 → ∃ t, exec (.groupEnable h g v) s = .next t ∧
      (∀ j : Fin 2, t.reg (ra .ALN_G_CFG j g) = w) ∧ t.group g = {} ∧ (∀ j : Nat, j ≠ g → t.group j = s.group j) ∧
      (∀ ps ∈ s.members g, tblGet {} t.aln.streams ps = ({ st := .ACQUIRING } : AlignStream)) ∧
      (∀ ps, ps ∉ s.members g → tblGet {} t.aln.streams ps = tblGet {} s.aln.streams ps) ∧ t.sin = s.sin ∧ s.sensorsOnly t ∧
      t.graphs = s.graphs ∧ s.sameHost t ∧ s.sameManagement t)) ∧
  (∀ (h : Fin 2) (o : Nat) (v : BitVec 32) (s : State) (a : RegAddr), s.setupOpen → decodeBar0 h o = .reg a →
    packageRegs.contains a.reg = true → a.reg ≠ .ALN_G_CFG → a.reg ≠ .PLN_CFG →
    ∃ t, exec (.packageRegWrite h o v) s = .next t ∧ (∀ j : Fin 2, t.reg (ra a.reg j a.unit a.word) = maskReg a v) ∧
      t = { s with regs := t.regs })

/-- R337 … R340: the merge of a frame writes every cell of the merged layer and moves every pair's counter, once for each hub; the leading hub
compares the two digests. -/
def Obligations.layersMerged : Prop :=
  (∀ (h : Fin 2) (f : Nat) (s : State) (gr : Graph) (fr : Frame), s.graph? (s.mergeCfg h).graph = some gr → gr.frame? f = some fr →
    (s.mergeCfg h).en = true → s.intakeRuns h = true → fr.withheld = false → fr.merged.contains h.val = false →
    fr.tokens.contains ((s.mergeCfg h).input, 0) = true →
    let c := s.mergeCfg h
    let src := s.readMem (gr.edgeBuffer c.input) (c.sources * layerCells)
    let cell (j i : Nat) : Nat := (nth 0 src.1 (j * layerCells + i)).toNat
    let dst := editionCopy (gr.edgeBuffer c.output) f + 0x1000
    (src.2 = true → ∃ u : State, exec (.mergeRun h f) s = .next (u.withhold c.graph f Status.DATA_POISON) ∧
      u = s.modFrame c.graph f fun fr => { fr with merged := fr.merged ++ [h.val] }) ∧
    (src.2 = false → dst + layerCells ≤ hbmEnd → (∀ b, dst ≤ b → b < dst + layerCells → s.setFenced b = false ∧ s.retired b = false) →
      ∃ t, exec (.mergeRun h f) s = .next t ∧
        (∀ i, i < layerCells → memGet t.mem (dst + i) = BitVec.ofNat 8 (mergeCell c.unknown ((List.range c.sources).map fun j => cell j i))) ∧
        (∀ b, (b < dst ∨ dst + layerCells ≤ b) → memGet t.mem b = memGet s.mem b) ∧
        (∀ a b r, a < b → b < c.sources → r < 64 →
          (tblGet {} (tblGet {} t.aln.merges h).counters (counterKey (pairNumber a b) r)).value =
            nextCounter (tblGet {} (tblGet {} s.aln.merges h).counters (counterKey (pairNumber a b) r)).value
              ((regionCells r).filter fun i => contradicts c.hi (cell a i) (cell b i)).length) ∧
        (tblGet {} t.aln.merges h).done = (tblGet {} s.aln.merges h).done + 1 ∧
        (s.mgt.active < 2 → t.reg (ra .ALN_MERGE_DONE h) = s.reg (ra .ALN_MERGE_DONE h) + 1) ∧
        t.cores = s.cores ∧ t.sin = s.sin ∧ t.pln = s.pln ∧ t.cache = s.cache ∧ t.net = s.net)) ∧
  (∀ (h : Fin 2) (f : Nat) (s : State), ((s.mergeCfg h).en = false ∨ s.intakeRuns h = false ∨ s.graph? (s.mergeCfg h).graph = none) →
    exec (.mergeRun h f) s = .next s) ∧
  (∀ (f : Nat) (d own : List Byte) (s : State), (tblGet {} s.aln.merges s.mgt.active).digest = some (f, own) → s.mergesPaired = true →
    s.mgt.active < 2 →
    (own = d → ∃ t, exec (.mergeDigestRx f d) s = .next t ∧ s.sameRegs t ∧ s.sameData t ∧ s.sameCompute t ∧ s.sameSensing t ∧ s.sameHost t ∧
      s.sameManagement t ∧ (∀ l : Fin 2, (s.lantern l).works = true →
        ∃ x, (t.lantern l).frame? (s.mergeCfg s.mgt.active).graph f = some x ∧ x.merge = some true)) ∧
    (own ≠ d → ∃ t, exec (.mergeDigestRx f d) s = .next t ∧ (t.reg (ra .ALN_ERR_STATUS s.mgt.active)).getLsbD 5 = true ∧
      (∀ l : Fin 2, (s.lantern l).works = true →
        ∃ x, (t.lantern l).frame? (s.mergeCfg s.mgt.active).graph f = some x ∧ x.merge = some false))) ∧
  (∀ (f : Nat) (d : List Byte) (s : State), ((tblGet {} s.aln.merges s.mgt.active).digest = none ∨ s.mergesPaired = false ∨
    ∃ k own, (tblGet {} s.aln.merges s.mgt.active).digest = some (k, own) ∧ k ≠ f) → exec (.mergeDigestRx f d) s = .next s)

/-! ### Planner (spec/11_planner.md) -/

/-- R350 … R354: the planners' enable, and how an edition comes about: the token of a frame's edition or a MAP_EDITION gets the next number at the
leader, goes to both planners in one order, and is staged into a bank. -/
def Obligations.editionsStaged : Prop :=
  (∀ (h : Fin 2) (v : BitVec 32) (s : State), s.setupOpen →
    let w := maskReg (ra .PLN_CFG h) v
    let bad := w.getLsbD 31 = true ∧ ∃ gr, s.graph? (bits w 29 24) = some gr ∧ editionEdgeBad gr.bundle (bits w 15 0) = true
    (¬ bad → ∃ t, exec (.plannerEnable h v) s = .next t ∧ (∀ j : Fin 2, t.reg (ra .PLN_CFG j) = w) ∧ t = { s with regs := t.regs }) ∧
    (bad → ∃ t, exec (.plannerEnable h v) s = .next t ∧ (∀ j : Fin 2, (t.reg (ra .PLN_CFG j)).getLsbD 31 = false) ∧
      (t.reg (ra .PLN_ERR_STATUS h)).getLsbD 6 = true ∧ t.pln = s.pln ∧ s.plannersOnly t ∧ t.graphs = s.graphs)) ∧
  (∀ (f : Nat) (s : State) (gr : Graph) (fr : Frame),
    let h := s.planLeader
    let c := s.reg (ra .PLN_CFG h)
    let g := bits c 29 24
    let base := editionCopy (gr.edgeBuffer (bits c 15 0)) f
    let b := s.readMem base 64
    let u := s.modFrame g f fun fr => { fr with planned := true }
    let j : StageJob := { edition := nextEdition s.pln.lastNumber, planners := 3, what := .graph g f base (readEditionHdr b.1) s.now }
    s.graph? g = some gr → gr.frame? f = some fr → c.getLsbD 31 = true → s.plannerRuns h = true → fr.withheld = false →
    fr.planned = false → fr.tokens.contains (bits c 15 0, 0) = true → s.letThrough gr f = true →
    (b.2 = false → s.editionOk h f b.1 = true →
      ∃ t, exec (.editionToken f) s = .next t ∧ t.pln.lastNumber = nextEdition s.pln.lastNumber ∧
        (t.planner h).staging = (s.planner h).staging ++ [j] ∧
        t.pln.orders = s.pln.orders ++ (s.plannersOn.filter (· != h)).map (fun o => (o, j)) ∧ t.graphs = u.graphs ∧ s.plannersOnly t ∧
        s.sameRegs t ∧ s.sameHost t) ∧
    (b.2 = false → s.editionOk h f b.1 = false →
      exec (.editionToken f) s = .next ((u.withhold g f Status.INVALID).log .EDITION_BAD (4 + h) [g, f])) ∧
    (b.2 = true → exec (.editionToken f) s = .next (u.withhold g f Status.DATA_POISON))) ∧
  (∀ (f : Nat) (s : State), ((s.reg (ra .PLN_CFG s.planLeader)).getLsbD 31 = false ∨ s.plannerRuns s.planLeader = false ∨
    s.graph? (bits (s.reg (ra .PLN_CFG s.planLeader)) 29 24) = none) → exec (.editionToken f) s = .next s) ∧
  (∀ (h : Fin 2) (s : State),
    (∀ k j rest, takeFirst (fun (x : Nat × StageJob) => x.1 == h) s.pln.orders = some ((k, j), rest) →
      ∃ t, exec (.editionOrder h) s = .next t ∧ t.pln.orders = rest ∧ (t.planner h).staging = (s.planner h).staging ++ [j] ∧
        (∀ o : Nat, o ≠ h → t.planner o = s.planner o) ∧ s.plannersOnly t ∧ s.sameRegs t ∧ t.graphs = s.graphs ∧ s.sameHost t) ∧
    ((∀ x ∈ s.pln.orders, x.1 ≠ h.val) → exec (.editionOrder h) s = .next s)) ∧
  (∀ (h : Fin 2) (s : State) (j : StageJob) (rest : List StageJob), (s.planner h).staging = j :: rest → s.plannerRuns h = true →
    ((s.planner h).banks.filter fun x => (s.planner h).keeps h x.edition).length < 3 →
    (∀ es, j.what = .delta es → bitN j.planners h = true →
      ∃ t, ∃ b : Bank, exec (.editionStageDone h) s = .next t ∧ (t.planner h).staging = rest ∧ (t.planner h).newest = j.edition ∧
        (t.planner h).overlay = es.foldl (fun o e => tblSet 0 o (deltaCell e).1 (deltaCell e).2) (s.planner h).overlay ∧
        (t.planner h).banks.getLast? = some b ∧ b.edition = j.edition ∧ b.overlay = (t.planner h).overlay ∧
        (∀ p, s.pln.waiting = [(j.edition, p, [h.val])] → t.pln.waiting = []) ∧
        s.plannersOnly t ∧ s.sameRegs t ∧ t.graphs = s.graphs) ∧
    (∀ g f base hdr at_, j.what = .graph g f base hdr at_ → (s.readMem (base + 0x1000) ((s.planSetNow h).n * 1048576)).2 = false →
      ∃ t, exec (.editionStageDone h) s = .next t ∧ (t.planner h).staging = rest ∧ (t.planner h).newest = j.edition ∧
        (t.planner h).banks.getLast? = some { edition := j.edition, hdr := hdr, overlay := (s.planner h).overlay
                                              cells := sliceCells (s.readMem (base + 0x1000) ((s.planSetNow h).n * 1048576)).1 } ∧
        (t.planner h).frameRounds = (s.planner h).frameRounds ++ [(g, f, j.edition, at_)] ∧ s.plannersOnly t ∧ s.sameRegs t ∧
        t.graphs = s.graphs) ∧
    (∀ m, j.what = .roadmap m → bitN j.planners h = true → (s.planner h).round = none →
      ∃ t, exec (.editionStageDone h) s = .next t ∧ (t.planner h).staging = rest ∧ (t.planner h).newest = j.edition ∧
        (t.planner h).map = m ∧ (t.planner h).run = .READY ∧ s.plannersOnly t ∧ s.sameRegs t ∧ t.graphs = s.graphs)) ∧
  (∀ (h : Fin 2) (s : State), ((s.planner h).staging = [] ∨ s.plannerRuns h = false ∨
    3 ≤ ((s.planner h).banks.filter fun x => (s.planner h).keeps h x.edition).length) → exec (.editionStageDone h) s = .next s)

/-- R355, R357, R360 … R362, R366, R370, R371, R375 … R378, R380: a round starts for the oldest frame, or for a request when no frame waits; it
passes its phases, the leader cutting the editions for its follower; it hands its record over, and the pair's digests are compared. -/
def Obligations.roundsRun : Prop :=
  (∀ (h : Fin 2) (s : State), s.plannerRuns h = true → (s.planner h).round = none →
    let p := s.planner h
    (∀ g f e at_ rest, sortBy (fun (x : Nat × Nat × Nat × Nat) => x.2.1) p.frameRounds = (g, f, e, at_) :: rest →
      let hdr := ((p.bank? e).getD {}).hdr
      p.run = .READY → (s.readMem p.map.addr p.map.len).2 = false → hdr.start < p.map.nodes → hdr.goal < p.map.nodes →
      ∃ t, ∃ r : Round, exec (.roundStart h) s = .next t ∧ (t.planner h).round = some r ∧ r.for_ = .frame g f ∧ r.phase = .check ∧ r.er = e ∧
        r.start = hdr.start ∧ r.goal = hdr.goal ∧ r.wanted = hdr.candidates ∧ r.limit = some (at_ + hdr.budget) ∧ r.missed = false ∧
        r.window = p.map.window (s.readMem p.map.addr p.map.len).1 hdr (s.planSet h).max ∧ (t.planner h).frameRounds = rest ∧
        (∀ o : Nat, o ≠ h → t.planner o = s.planner o) ∧ s.plannersOnly t ∧ s.sameRegs t ∧ t.graphs = s.graphs ∧ s.sameHost t) ∧
    (∀ q rest, p.frameRounds = [] → p.requests = q :: rest → ((s.namedPlanners q.planners).length ≠ 2 ∨ s.planLeader = h) →
      (s.requestStatus h q.pkt = 0 → (s.readMem p.map.addr p.map.len).2 = false →
        ∃ t, ∃ r : Round, exec (.roundStart h) s = .next t ∧ (t.planner h).round = some r ∧ r.for_ = .request q.id ∧ r.er = p.newest ∧
          r.start = leAt q.pkt.header 20 4 ∧ r.goal = leAt q.pkt.header 24 4 ∧ r.wanted = leAt q.pkt.header 18 2 ∧
          (t.planner h).requests = p.requests.filter (fun x => x.id != q.id) ∧ s.plannersOnly t ∧ s.sameRegs t ∧ t.graphs = s.graphs ∧
          s.sameHost t) ∧
      (s.requestStatus h q.pkt ≠ 0 → exec (.roundStart h) s = .next (s.endRequest q (s.requestStatus h q.pkt) []))) ∧
    (p.frameRounds = [] → p.requests = [] → exec (.roundStart h) s = .next s)) ∧
  (∀ (h : Fin 2) (s : State), (s.plannerRuns h = false ∨ (s.planner h).round ≠ none) → exec (.roundStart h) s = .next s) ∧
  (∀ (h : Fin 2) (s : State) (r : Round), (s.planner h).round = some r → s.plannerRuns h = true →
    let p := s.planner h
    let cuts (k : CutKind) (v : Nat) := s.pln.cuts ++ if r.paired = true ∧ r.leader = h then [(1 - h.val, { for_ := r.for_, kind := k, value := v })] else []
    let costs (e : Nat) (x : ActiveEdge) := ((p.bank? e).getD {}).edgeCosts r.set x
    (r.phase = .check → r.follows h = false → ∃ t, exec (.checkRoundEnd h .ok) s = .next t ∧ (t.planner h).round = some { r with
        costs := r.window.map (fun x => (x.num, costs r.er x)), es := p.newest, phase := if p.newest = r.er then .wavefront else .recheck } ∧
      t.pln.cuts = cuts .es p.newest ∧ s.plannersOnly t ∧ s.sameRegs t ∧ t.graphs = s.graphs ∧ s.sameHost t) ∧
    (r.phase = .check → ∃ t, exec (.checkRoundEnd h .ce) s = .next t ∧ t.reg (ra .PLN_CE_COUNT h) = satInc (s.reg (ra .PLN_CE_COUNT h)) 1 ∧
      (t.reg (ra .PLN_ERR_STATUS h)).getLsbD 0 = true) ∧
    (r.phase = .check → s.mgt.active < 2 → ∃ t, exec (.checkRoundEnd h .ue) s = .next t ∧ (t.reg (ra .PLN_ERR_STATUS h)).getLsbD 1 = true ∧
      (∀ x, (t.planner h).round = some x → x.for_ ≠ r.for_) ∧ ∃ q ∈ t.graphs.tests, q.unit = 36 + h.val ∧ q.cause = 1) ∧
    (r.phase = .recheck → ∃ t, exec (.recheckEnd h .ok) s = .next t ∧ (t.planner h).round = some { r with
        costs := r.costs.map (fun c => match (r.window.filter (p.dirty r.er r.es)).find? (fun e => e.num == c.1) with
          | some e => (c.1, costs r.es e)
          | none => c)
        phase := .wavefront } ∧
      t.reg (ra .PLN_RECHECKS h) = s.reg (ra .PLN_RECHECKS h) + word (r.window.filter (p.dirty r.er r.es)).length ∧ s.plannersOnly t ∧
      t.graphs = s.graphs ∧ s.sameHost t) ∧
    (r.phase = .wavefront → ∃ t, ∃ x : Round, exec (.wavefrontDone h .ok) s = .next t ∧ (t.planner h).round = some x ∧ x.phase = .search ∧
      x.passes ≤ r.set.maxPasses ∧ x = { r with wave := x.wave, passes := x.passes, incomplete := x.incomplete, phase := .search } ∧
      s.plannersOnly t ∧ s.sameRegs t ∧ t.graphs = s.graphs ∧ s.sameHost t) ∧
    (r.phase = .search → r.follows h = false → ∃ t, exec (.searchEnd h .ok) s = .next t ∧ (t.planner h).round = some
        { r.runSearch (s.searchHdr h r) (r.set.maxExpand * 1024) false with phase := .output, eout := p.newest } ∧
      t.pln.cuts = cuts .eout p.newest ∧ s.plannersOnly t ∧ s.sameRegs t ∧ t.graphs = s.graphs ∧ s.sameHost t) ∧
    (∀ l n, r.limit = some l → r.follows h = false → r.phase = .check →
      (l ≤ s.now + r.set.guard → ∃ t, exec (.roundLimit h n) s = .next t ∧ (t.planner h).round = some
          { r with missed := true, es := r.er, phase := .output, eout := p.newest } ∧ s.plannersOnly t ∧ s.sameRegs t ∧
          t.graphs = s.graphs ∧ s.sameHost t) ∧
      (s.now + r.set.guard < l → exec (.roundLimit h n) s = .next s)) ∧
    (r.phase = .output → r.follows h = false → r.paired = false →
      let e := if r.eout = 0 then p.newest else r.eout
      let x := { r with eout := e }.output p (r.limit.any (· < s.now) || r.missed)
      ∃ t, exec (.outputHandover h .ok) s = .next t ∧ t.reg (ra .PLN_ROUNDS h) = s.reg (ra .PLN_ROUNDS h) + 1 ∧
        t.reg (ra .PLN_LAST_TIME h) = word (s.now - r.startedAt) ∧
        (∀ g f, r.for_ = .frame g f → (t.planner h).round = none ∧ t.frame? g f = (s.frame? g f).map (fun fr =>
          if fr.withheld = true then fr
          else { fr with trajectory := x.1.bytes, edition := e, coverage := x.1.coverage
                         codes := if x.2.1 = 0 then fr.codes else addNew fr.codes x.2.1 })) ∧ s.plannersOnly t)) ∧
  (∀ (h : Fin 2) (ecc : EccHw) (n : Nat) (s : State), (s.planner h).round = none → exec (.checkRoundEnd h ecc) s = .next s ∧
    exec (.recheckEnd h ecc) s = .next s ∧ exec (.wavefrontDone h ecc) s = .next s ∧ exec (.searchEnd h ecc) s = .next s ∧
    exec (.roundLimit h n) s = .next s ∧ exec (.outputHandover h ecc) s = .next s) ∧
  (∀ (h : Fin 2) (s : State),
    (∀ k c rest, takeFirst (fun (x : Nat × Cut) => x.1 == h) s.pln.cuts = some ((k, c), rest) →
      ∃ t, exec (.roundCut h) s = .next t ∧ t.pln.cuts = rest ∧ (t.planner h).cuts = (s.planner h).cuts ++ [c] ∧
        (∀ r, (s.planner h).round = some r → (t.planner h).round = some (if c.kind = .missed ∧ r.for_ = c.for_ then
          { r with phase := .output, missed := true, es := c.value, found := [], partialPath := none } else r)) ∧
        s.plannersOnly t ∧ s.sameRegs t ∧ t.graphs = s.graphs ∧ s.sameHost t) ∧
    ((∀ x ∈ s.pln.cuts, x.1 ≠ h.val) → exec (.roundCut h) s = .next s)) ∧
  (∀ (s : State) (w : RoundFor) (d : Option (List Byte)) (rest : List (RoundFor × Option (List Byte))) (y : Handed),
    takeFirst (fun (d : RoundFor × Option (List Byte)) => s.pln.handed.any fun y => y.for_ == d.1) s.pln.digests = some ((w, d), rest) →
    s.pln.handed.find? (fun y => y.for_ == w) = some y →
    (∀ g f, w = .frame g f → d = some (shake256 y.record) → ∃ t, exec .planDigestRx s = .next t ∧ t.pln.digests = rest ∧
      t.pln.handed = s.pln.handed.filter (fun z => z.for_ != w) ∧ s.sameRegs t ∧ s.sameHost t ∧ s.sameManagement t ∧ s.sameData t ∧
      t.frame? g f = (s.frame? g f).map (fun fr => { fr with pairDone := true, pairMatched := true })) ∧
    (d ≠ some (shake256 y.record) → y.hub < 2 → s.mgt.active < 2 → ∃ t, exec .planDigestRx s = .next t ∧
      (t.reg (ra .PLN_ERR_STATUS y.hub)).getLsbD 2 = true ∧ t.reg (ra .PLN_MISMATCH y.hub) = satInc (s.reg (ra .PLN_MISMATCH y.hub)) 1)) ∧
  (∀ s : State, s.pln.digests = [] → exec .planDigestRx s = .next s)

/-! ### Safety (spec/12_safety.md) -/

/-- R383 … R387, R396, R410, R417, R418, R458: a lantern starts with FAULT held for its boot, stops at its own fault, and watches its twin, its
clock and the management processor. -/
def Obligations.lanternsWatch : Prop :=
  (∀ (l : Fin 2) (c : LnfConfig) (s : State),
    (nth false s.pins.lanRstHigh l = true → exec (.lanternResetRelease l c) s = .next s) ∧
    (nth false s.pins.lanRstHigh l = false → s.railGood (6 + l) = true →
      ∃ t, exec (.lanternResetRelease l c) s = .next t ∧ (t.lantern l).run = .RUNNING ∧ (t.lantern l).since = s.now ∧
        (t.lantern l).fault = true ∧ (t.lantern l).causes = [causeBoot] ∧ (t.lantern l).boots = (s.lantern l).boots + 1 ∧
        (t.lantern l).config = c ∧ s.lanternsOnly t) ∧
    ∃ t, exec (.lanRstAssert l) s = .next t ∧ (t.lantern l).run = .RESET ∧ (t.lantern l).fault = true ∧ (t.lantern l).frames = [] ∧
      (t.lantern l).record = (s.lantern l).record ∧ (t.lantern l).config = (s.lantern l).config ∧ s.lanternsOnly t) ∧
  (∀ (l : Fin 2) (k : LanternHw) (s : State),
    ((s.lantern l).run ≠ .RESET → (s.lantern l).run ≠ .FAILED →
      (k ≠ .sramCe → ∃ t, exec (.lockstepMismatch l k) s = .next t ∧ (t.lantern l).run = .FAILED ∧ (t.lantern l).fault = true ∧
        (t.lantern l).active = true ∧ s.lanternsOnly t) ∧
      ∃ t, exec (.lockstepMismatch l .sramCe) s = .next t ∧ (t.lantern l).run = (s.lantern l).run ∧
        (t.lantern l).sramCe = min ((s.lantern l).sramCe + 1) 0xFFFFFFFF ∧ s.lanternsOnly t ∧ s.sameManagement t) ∧
    (((s.lantern l).run = .RESET ∨ (s.lantern l).run = .FAILED) → exec (.lockstepMismatch l k) s = .next s)) ∧
  (∀ (l : Fin 2) (s : State), (s.lantern l).works = true →
    (∃ t, exec (.lanternHbToggle l) s = .next t ∧ (t.lantern l).hbOut = !(s.lantern l).hbOut ∧ s.lanternsOnly t ∧ s.sameRegs t ∧ s.sameHost t ∧
      s.sameManagement t ∧ ∀ o : Nat, o ≠ l → t.lantern o = s.lantern o) ∧
    (∃ t, exec (.lanternCompareTest l) s = .next t ∧ (t.lantern l).compareTest = false ∧ s.lanternsOnly t ∧ s.sameRegs t) ∧
    (∀ p, 450000 ≤ p → p ≤ 550000 → ∃ t, exec (.peerHbEdge l p) s = .next t ∧ (t.lantern l).peerHeard = some s.now ∧
      (t.lantern l).peerLost = false ∧ (t.lantern l).badPeriods = 0 ∧ s.lanternsOnly t ∧ s.sameManagement t) ∧
    (∀ p, (p < 450000 ∨ 550000 < p) → (s.lantern l).badPeriods < 3 → ∃ t, exec (.peerHbEdge l p) s = .next t ∧
      (t.lantern l).badPeriods = (s.lantern l).badPeriods + 1 ∧ (t.lantern l).run = (s.lantern l).run ∧ s.lanternsOnly t) ∧
    (∀ p, (p < 450000 ∨ 550000 < p) → (s.lantern l).badPeriods = 3 → (s.lantern l).clockOut = true → ∃ t, exec (.peerHbEdge l p) s = .next t ∧
      (t.lantern l).run = .FAILED ∧ (t.lantern l).fault = true ∧ s.lanternsOnly t) ∧
    ((s.lantern l).peerLost = false → (s.lantern l).peerHeard.getD (s.lantern l).since + 1000 ≤ s.now →
      ∃ t, exec (.peerHbTimeout l) s = .next t ∧ (t.lantern l).peerLost = true ∧ 8 ∈ (t.lantern l).errLast ∧ s.lanternsOnly t ∧ s.sameManagement t) ∧
    (∀ ppm : Int, ∃ t, exec (.lanternClockWindow l ppm) s = .next t ∧ (t.lantern l).clockDev = ppm ∧
      (4 ∈ (t.lantern l).errLast ↔ ppm < -5000 ∨ 5000 < ppm) ∧ s.lanternsOnly t ∧ s.sameManagement t) ∧
    (s.mgt.beats.contains l.val = true → ∃ t, exec (.mpHeartbeatRx l) s = .next t ∧ (t.lantern l).mpHeard = some s.now ∧
      (t.lantern l).mpSilentAt = none ∧ 7 ∉ (t.lantern l).errLast ∧ t.mgt.beats = s.mgt.beats.filter (· != l.val) ∧ s.lanternsOnly t) ∧
    (∀ h, (s.lantern l).mpHeard = some h → (s.lantern l).mpSilentAt = none → s.recovery.phase = .running →
      (h + 5000 ≤ s.now → ∃ t, exec (.mpHeartbeatTimeout l) s = .next t ∧ (t.lantern l).mpSilentAt = some s.now ∧ 7 ∈ (t.lantern l).errLast ∧
        s.lanternsOnly t ∧ s.sameManagement t) ∧
      (s.now < h + 5000 → exec (.mpHeartbeatTimeout l) s = .next s)) ∧
    (∀ h, (s.lantern l).mpSilentAt = some h → s.recovery.phase = .running →
      (h + 50000 ≤ s.now → ∃ t, exec (.mpTakeoverTimeout l) s = .next t ∧ (t.lantern l).run = .SAFE ∧ (t.lantern l).fault = true ∧
        causeMpLost ∈ (t.lantern l).causes ∧ (∃ x ∈ t.recovery.down, x.1 = l.val) ∧
        (((s.lantern l).warmRequests.filter fun t => s.now < t + requestWindow).length < 3 → t.recovery.phase = .warmRequested)) ∧
      (s.now < h + 50000 → exec (.mpTakeoverTimeout l) s = .next s))) ∧
  (∀ (l : Fin 2) (p : Nat) (s : State), (s.lantern l).works = false → exec (.lanternHbToggle l) s = .next s ∧ exec (.peerHbEdge l p) s = .next s ∧
    exec (.peerHbTimeout l) s = .next s ∧ ∀ ppm, exec (.lanternClockWindow l ppm) s = .next s) ∧
  (∀ (l : Fin 2) (b : Fin 11) (s : State),
    (tblGet 0 (s.lantern l).errHold b ≤ s.now → (s.lantern l).errLast.contains b.val = false →
      ∃ t, exec (.lanErrHoldExpiry l b) s = .next t ∧ tblGet 0 (t.lantern l).errHold b = 0 ∧
        (∀ c : Nat, c ≠ b → tblGet 0 (t.lantern l).errHold c = tblGet 0 (s.lantern l).errHold c) ∧ s.lanternsOnly t ∧ s.sameManagement t) ∧
    (s.now < tblGet 0 (s.lantern l).errHold b → exec (.lanErrHoldExpiry l b) s = .next s)) ∧
  (∀ (l : Fin 2) (s : State) (a : Nat), (s.lantern l).ratingsSince = some a →
    (a + 10000000 ≤ s.now → s.outOfRatings = false → ∃ t, exec (.ratingsHoldExpiry l) s = .next t ∧ (t.lantern l).withinRatings = true ∧
      (t.lantern l).ratingsSince = none ∧ s.lanternsOnly t) ∧
    ((s.now < a + 10000000 ∨ s.outOfRatings = true) → exec (.ratingsHoldExpiry l) s = .next s))

/-- R26, R387 … R396, R398: a lantern times a frame from its start message, judges it at the hand-over or at its deadline, and compares the copies'
signatures; the comparators test the envelopes; the output stage takes the verdicts. -/
def Obligations.framesJudged : Prop :=
  (∀ (l : Fin 2) (g : Fin 64) (f : Nat) (s : State), (s.lantern l).works = true → s.startable g f = true →
    ((s.lantern l).frame? g f).any (·.start.isSome) = false →
    (∃ t, exec (.lanternFrameStart l g f true) s = .next t ∧ ((t.lantern l).frame? g f).bind (·.start) = some s.now ∧ s.lanternsOnly t ∧
      s.sameRegs t ∧ s.sameHost t ∧ s.sameManagement t) ∧
    (∃ t, exec (.lanternFrameStart l g f false) s = .next t ∧ (t.lantern l).gaps = min ((s.lantern l).gaps + 1) 0xFFFFFFFF ∧
      (t.lantern l).frames = (s.lantern l).frames ∧ s.lanternsOnly t ∧ s.sameManagement t)) ∧
  (∀ (l : Fin 2) (g : Fin 64) (f : Nat) (ok : Bool) (s : State), ((s.lantern l).works = false ∨ s.startable g f = false ∨
    ((s.lantern l).frame? g f).any (·.start.isSome) = true) → exec (.lanternFrameStart l g f ok) s = .next s) ∧
  (∀ (l : Fin 2) (g : Fin 64) (f : Nat) (s : State) (gr : Graph) (fr : Frame), s.graph? g = some gr → gr.frame? f = some fr →
    fr.handedOver = true → s.judges l gr fr = true → ((s.lantern l).frame? g f).any (·.handed) = false →
    let x := ((s.lantern l).frame? g f).getD { graph := g, frame := f }
    let lat := (x.start.map fun t => s.now - t).getD 0
    let onTime := x.start.isSome && decide (lat ≤ gr.bundle.header.deadline) && !x.late
    let pass := !x.failed && s.checksPass gr x
    (∃ t, ∃ y : LanFrame, exec (.lanternHandoverRx l g f true) s = .next t ∧ (t.lantern l).frame? g f = some y ∧ y.handed = true ∧
      y.verdict = some { onTime := onTime, latency := lat, passed := pass } ∧ (t.lantern l).lastJudged = f ∧ (t.lantern l).lastLat = lat ∧
      (x.late = false → (t.lantern l).verdicts = ((s.lantern l).verdicts + 1) % 2 ^ 32) ∧
      (onTime = false → x.late = false → (t.lantern l).late = min ((s.lantern l).late + 1) 0xFFFFFFFF)) ∧
    (∃ t, exec (.lanternHandoverRx l g f false) s = .next t ∧ (t.lantern l).gaps = min ((s.lantern l).gaps + 1) 0xFFFFFFFF ∧
      (t.lantern l).frames = (s.lantern l).frames ∧ s.lanternsOnly t)) ∧
  (∀ (l : Fin 2) (g : Fin 64) (f : Nat) (s : State) (gr : Graph) (x : LanFrame) (a : Nat), s.graph? g = some gr →
    (s.lantern l).frame? g f = some x → x.start = some a →
    ((s.lantern l).works = true → x.handed = false → x.late = false → a + gr.bundle.header.deadline ≤ s.now →
      ∃ t, exec (.deadlineExpiry l g f) s = .next t ∧ (t.lantern l).frame? g f = some { x with
          late := true, verdict := some { onTime := false, latency := s.now - a, passed := !x.failed } } ∧
        (t.lantern l).verdicts = ((s.lantern l).verdicts + 1) % 2 ^ 32 ∧ (t.lantern l).late = min ((s.lantern l).late + 1) 0xFFFFFFFF ∧
        s.lanternsOnly t ∧ s.sameManagement t) ∧
    ((x.handed = true ∨ x.late = true ∨ s.now < a + gr.bundle.header.deadline) → exec (.deadlineExpiry l g f) s = .next s)) ∧
  (∀ (l : Fin 2) (g : Fin 64) (f : Nat) (s : State) (fr : Frame) (x : LanFrame) (v : Verdict), s.frame? g f = some fr →
    (s.lantern l).frame? g f = some x → x.verdict = some v →
    ((fr.verdictOf l).back = false → ∃ t, ∃ y : Frame, exec (.verdictRx l g f) s = .next t ∧ t.frame? g f = some y ∧ y.verdictOf l =
        ({ fr.verdictOf l with judged := true, onTime := v.onTime, latency := v.latency, back := x.handed
                               checkFail := x.handed && !v.passed } : VerdictRec) ∧
      (v.onTime = false → Status.LATE ∈ y.codes) ∧ (v.onTime = true → y.codes = fr.codes) ∧ t = { s with graphs := t.graphs }) ∧
    ((fr.verdictOf l).back = true → exec (.verdictRx l g f) s = .next s)) ∧
  (∀ (l : Fin 2) (g : Fin 64) (f : Nat) (s : State) (gr : Graph) (fr : Frame), s.graph? g = some gr → gr.frame? f = some fr →
    (fr.handedOver = true → fr.handoverAt + 200 ≤ s.now → s.judges l gr fr = true → (fr.verdictOf l).back = false →
      ∃ t, ∃ y : Frame, exec (.verdictTimeout l g f) s = .next t ∧ t.frame? g f = some y ∧
        y.verdictOf l = { fr.verdictOf l with back := true, onTime := false } ∧ Status.LATE ∈ y.codes ∧ t = { s with graphs := t.graphs }) ∧
    ((fr.handedOver = false ∨ s.now < fr.handoverAt + 200 ∨ s.judges l gr fr = false ∨ (fr.verdictOf l).back = true) →
      exec (.verdictTimeout l g f) s = .next s)) ∧
  (∀ (l : Fin 2) (s : State) (m : SigMsg) (rest : List SigMsg), takeFirst (fun (m : SigMsg) => m.lantern == l) s.lan.sigs = some (m, rest) →
    (s.lantern l).works = true →
    let old := ((s.lantern l).frame? m.graph m.frame).getD { graph := m.graph, frame := m.frame }
    let x := { old with signatures := old.signatures ++ [(m.station, m.copy, m.sum, m.lines, m.widened)] }
    (x.signaturePair m.station ≠ some false → ∃ t, exec (.signatureRx l) s = .next t ∧ t.lan.sigs = rest ∧
      (t.lantern l).frame? m.graph m.frame = some x ∧ s.lanternsOnly t ∧ s.sameRegs t ∧ s.sameHost t ∧ s.sameManagement t) ∧
    (x.signaturePair m.station = some false → (s.graph? m.graph).isSome = true → x.kinds.contains (Failed.ctorIdx .signature) = false →
      ∃ t, ∃ y : LanFrame, exec (.signatureRx l) s = .next t ∧ (t.lantern l).frame? m.graph m.frame = some y ∧ y.failed = true ∧
        Failed.ctorIdx .signature ∈ y.kinds ∧ (t.lantern l).mismatch = min ((s.lantern l).mismatch + 1) 0xFFFFFFFF)) ∧
  (∀ (l : Fin 2) (s : State), (∀ m ∈ s.lan.sigs, m.lantern ≠ l.val) → exec (.signatureRx l) s = .next s) ∧
  (∀ (h : Fin 2) (g : Fin 64) (f : Nat) (i : Fin 16) (s : State) (gr : Graph) (fr : Frame) (x : Envelope), s.graph? g = some gr →
    gr.frame? f = some fr → (s.envelopesOf gr)[i.val]? = some x →
    let n := x.outside (s.envData gr fr x.primary (envElem x.fmt)) (s.envData gr fr x.shadow (envElem x.fmt))
    let m (l : Nat) : EnvMsg := { lantern := l, graph := g, frame := f, entry := i, hub := h, outside := n, passed := decide (n ≤ x.maxOut) }
    (s.comparatorRuns h = true → gr.bundle.header.checking = 2 → fr.compared.contains (i.val, h.val) = false → fr.withheld = false →
      gr.outputThere fr x.primary = true → gr.outputThere fr x.shadow = true →
      ∃ t, exec (.envelopeCompare h g f i) s = .next t ∧ t.lan.envs = s.lan.envs ++ [m 0, m 1] ∧
        (∃ y : Frame, t.frame? g f = some y ∧ y.compared = fr.compared ++ [(i.val, h.val)]) ∧ t.lan.lanterns = s.lan.lanterns ∧ s.sameData t ∧
        t.cores = s.cores ∧ s.sameRegs t ∧ s.sameHost t ∧ s.sameManagement t) ∧
    ((s.comparatorRuns h = false ∨ gr.bundle.header.checking ≠ 2 ∨ fr.withheld = true ∨ gr.outputThere fr x.primary = false ∨
      gr.outputThere fr x.shadow = false) → exec (.envelopeCompare h g f i) s = .next s)) ∧
  (∀ (l : Fin 2) (s : State) (m : EnvMsg) (rest : List EnvMsg), takeFirst (fun (m : EnvMsg) => m.lantern == l) s.lan.envs = some (m, rest) →
    (s.lantern l).works = true →
    let old := ((s.lantern l).frame? m.graph m.frame).getD { graph := m.graph, frame := m.frame }
    let x := { old with envelopes := old.envelopes ++ [(m.entry, m.hub, m.outside, m.passed)] }
    ((s.entryResult x m.entry = none ∨ s.entryResult x m.entry = some (true, true)) → ∃ t, exec (.envelopeResultRx l) s = .next t ∧
      t.lan.envs = rest ∧ (t.lantern l).frame? m.graph m.frame = some x ∧ s.lanternsOnly t ∧ s.sameRegs t ∧ s.sameHost t ∧ s.sameManagement t) ∧
    (s.entryResult x m.entry = some (false, true) → (s.graph? m.graph).isSome = true → x.kinds.contains (Failed.ctorIdx .envelope) = false →
      ∃ t, ∃ y : LanFrame, exec (.envelopeResultRx l) s = .next t ∧ (t.lantern l).frame? m.graph m.frame = some y ∧ y.failed = true ∧
        (t.lantern l).mismatch = min ((s.lantern l).mismatch + 1) 0xFFFFFFFF))

/-- R402 … R406, R410, R414 … R416, R424: the in-field self-test runs chunks in the windows that a lantern grants; a lantern asserts FAULT at a gap,
enters safe state at an outage or a cause beyond a fence, and sends its status, its trajectory and its record. -/
def Obligations.lanternsAct : Prop :=
  (∀ (l : Fin 2) (u : Fin 42) (us : Nat) (s : State),
    ((s.lantern l).works = true → s.granter u = l → s.testable u = true → 170 ≤ us → ∃ t, exec (.windowGrant l u us) s = .next t ∧
      t.testUnit u = { s.testUnit u with windowEnd := s.now + us } ∧ (∀ v : Nat, v ≠ u → t.testUnit v = s.testUnit v) ∧ s.lanternsOnly t ∧
      s.sameRegs t ∧ t.lan.lanterns = s.lan.lanterns) ∧
    (((s.lantern l).works = false ∨ s.granter u ≠ l ∨ s.testable u = false ∨ us < 170) → exec (.windowGrant l u us) s = .next s)) ∧
  (∀ (u : Fin 42) (s : State),
    (s.testable u = true → (s.testUnit u).running = false → (s.testUnit u).passed < unitChunks u → s.now + 170 ≤ (s.testUnit u).windowEnd →
      s.unitIdle u = true → ∃ t, exec (.chunkStart u) s = .next t ∧ t.testUnit u = { s.testUnit u with running := true } ∧
        (u.val < 32 → (t.core u).run = .SELFTEST) ∧ (∀ c : Nat, c ≠ u → t.core c = s.core c) ∧ s.sameData t ∧ s.sameRegs t ∧
        t.lan.lanterns = s.lan.lanterns) ∧
    ((s.testable u = false ∨ (s.testUnit u).running = true ∨ unitChunks u ≤ (s.testUnit u).passed ∨ (s.testUnit u).windowEnd < s.now + 170 ∨
      s.unitIdle u = false) → exec (.chunkStart u) s = .next s)) ∧
  (∀ (u : Fin 42) (s : State),
    ((s.testUnit u).running = true → (s.testUnit u).rerun = false →
      (∃ t, exec (.chunkDone u true) s = .next t ∧ t.testUnit u = { s.testUnit u with running := false, passed := (s.testUnit u).passed + 1 } ∧
        ((s.lantern (s.granter u)).works = true → (t.lantern (s.granter u)).chunks = ((s.lantern (s.granter u)).chunks + 1) % 2 ^ 32) ∧
        s.sameData t ∧ s.sameRegs t ∧ t.graphs = s.graphs ∧ s.sameManagement t) ∧
      (∃ t, exec (.chunkDone u false) s = .next t ∧ t.testUnit u = { s.testUnit u with rerun := true } ∧ s.lanternsOnly t ∧ s.sameRegs t) ∧
      (∃ t, exec (.chunkAbort u) s = .next t ∧ t.testUnit u = { s.testUnit u with running := false } ∧
        ((s.lantern (s.granter u)).works = true → (t.lantern (s.granter u)).aborts = min ((s.lantern (s.granter u)).aborts + 1) 0xFFFFFFFF) ∧
        s.sameData t ∧ s.sameRegs t ∧ t.graphs = s.graphs ∧ s.sameManagement t)) ∧
    ((s.testUnit u).running = false → (∀ p, exec (.chunkDone u p) s = .next s) ∧ exec (.chunkAbort u) s = .next s)) ∧
  (∀ (l : Fin 2) (s : State),
    ((s.lantern l).works = true → (s.lantern l).periodAt + (s.lantern l).periodMs * 1000 ≤ s.now →
      let us := s.testUnits.filter fun u => s.granter u == l
      ∃ t, exec (.coveragePeriodEnd l) s = .next t ∧ (∀ u ∈ us, (t.testUnit u).passed = 0) ∧
        (t.lantern l).coveredUnits = (us.filter fun u => (s.testUnit u).passed == unitChunks u).length ∧
        (t.lantern l).periods = ((s.lantern l).periods + 1) % 65536 ∧ (t.lantern l).periodAt = s.now ∧ s.lanternsOnly t) ∧
    (((s.lantern l).works = false ∨ s.now < (s.lantern l).periodAt + (s.lantern l).periodMs * 1000) → exec (.coveragePeriodEnd l) s = .next s)) ∧
  (∀ (l : Fin 2) (g : Fin 64) (s : State),
    (s.gapOver l g (s.lantern l).config.gapMs = true → ∃ t, exec (.faultGapExpiry l g) s = .next t ∧ (t.lantern l).fault = true ∧
      causeGap ∈ (t.lantern l).causes ∧ (t.lantern l).run = (s.lantern l).run ∧ s.lanternsOnly t ∧ s.sameRegs t ∧ s.sameHost t ∧
      s.sameManagement t) ∧
    (s.gapOver l g (s.lantern l).config.gapMs = false → exec (.faultGapExpiry l g) s = .next s) ∧
    (s.gapOver l g (s.lantern l).config.outageMs = true → (s.lantern l).run = .RUNNING → ∃ t, exec (.outageExpiry l g) s = .next t ∧
      (t.lantern l).run = .SAFE ∧ (t.lantern l).fault = true ∧ causeOutage ∈ (t.lantern l).causes ∧ ∃ x ∈ t.recovery.down, x.1 = l.val) ∧
    ((s.gapOver l g (s.lantern l).config.outageMs = false ∨ (s.lantern l).run ≠ .RUNNING) → exec (.outageExpiry l g) s = .next s)) ∧
  (∀ (l : Fin 2) (s : State),
    (∀ c g, s.safeCause l = some (c, g) → (s.lantern l).run = .RUNNING → ∃ t, exec (.safeStateEntry l.castSucc) s = .next t ∧
      (t.lantern l).run = .SAFE ∧ (t.lantern l).fault = true ∧ c ∈ (t.lantern l).causes ∧ ∃ x ∈ t.recovery.down, x.1 = l.val) ∧
    (s.managed = true → s.recovery.phase = .running → (s.lantern l).works = true → ∃ t, exec (.safeStateEntry 2) s = .next t ∧
      (t.lantern l).run = .SAFE ∧ (t.lantern l).fault = true ∧ t.recovery.phase = .warmRequested ∧ t.recovery.requester = 2) ∧
    (s.safeCause l = none → exec (.safeStateEntry l.castSucc) s = .next s) ∧ (s.managed = false → exec (.safeStateEntry 2) s = .next s)) ∧
  (∀ (l : Fin 2) (s : State), (s.lantern l).works = true →
    (exec (.statusEmit l) s = .next (s.emit (.can l (s.lantern l).config.canBase
      (toLe 1 (s.lantern l).run.ctorIdx ++ toLe 1 ((s.lantern l).cause % 256) ++ toLe 1 (s.promise l % 256) ++ toLe 1 (s.lantern l).peerCode ++
        toLe 4 (s.lantern l).lastJudged ++ toLe 4 (s.trajAge l) ++ toLe 4 0)))) ∧
    (∃ t, exec (.trajHeadEmit l) s = .next t ∧ t.outputs = s.outputs ++
        [.can l ((s.lantern l).config.canBase + 1) (toLe 2 (s.lantern l).trajSeq ++ toLe 1 (s.emission l).1 ++ toLe 1 0 ++ toLe 4 (s.trajAge l) ++
          toLe 4 (s.lantern l).storedFrame ++ toLe 4 (crc32 (s.emission l).2).toNat)] ++
        (List.range 16).map (fun k => .can l ((s.lantern l).config.canBase + (2 + k)) (((s.emission l).2.drop (64 * k)).take 64)) ∧
      (t.lantern l).trajSeq = ((s.lantern l).trajSeq + 1) % 65536 ∧ (t.lantern l).stored = (s.lantern l).stored ∧ s.lanternsOnly t ∧
      s.sameRegs t ∧ s.sameHost t ∧ s.sameManagement t)) ∧
  (∀ (l : Fin 2) (d : List Byte) (s : State),
    ((s.lantern l).run ≠ .RESET → (s.lantern l).run ≠ .FAILED → d.length = 8 →
      let n := leAt d 4 2
      let found := if n = 0 ∨ 64 < n then [] else (List.range n).filterMap fun k => (s.lantern l).entry? (leAt d 0 4 + k)
      ∃ t, exec (.recReq l d) s = .next t ∧ t = { s with outputs := t.outputs } ∧ t.outputs = s.outputs ++
        found.map (fun e => .can l ((s.lantern l).config.canBase + 19) (e.bytes l)) ++
        [.can l ((s.lantern l).config.canBase + 20)
          (toLe 4 (leAt d 0 4 + found.length) ++ toLe 2 found.length ++ toLe 2 (b2n (found.length != n || n == 0)))]) ∧
    (((s.lantern l).run = .RESET ∨ (s.lantern l).run = .FAILED ∨ d.length ≠ 8) → exec (.recReq l d) s = .next s))

/-! ### Recovery and the twin (spec/13_recovery_twin.md) -/

/-- R418, R420 … R427, R436: PORST_N takes everything but flash, OTP and the lanterns' own state; its release runs the steps of the cold boot; a warm
reset is requested, asserted 1 ms later with HBM kept, and ends in the warm restart. -/
def Obligations.packageResets : Prop :=
  (∀ s : State,
    (s.pins.porst = true → tblWf {} s.mgt.hubs = true → tblWf {} s.lan.lanterns = true → ∃ t, exec .porstAssert s = .next t ∧
      t.pins.porst = false ∧ t.regs = State.reset.regs ∧ t.mem = State.reset.mem ∧ t.cores = State.reset.cores ∧
      t.graphs = State.reset.graphs ∧ t.cache = State.reset.cache ∧ t.net = State.reset.net ∧ t.aln = State.reset.aln ∧
      t.pln = State.reset.pln ∧ t.hif.hostReady = false ∧ t.mgt.otp = s.mgt.otp ∧ t.mgt.bootCount = s.mgt.bootCount ∧
      (∀ h : Fin 2, (t.hubMgt h).flash = (s.hubMgt h).flash) ∧
      (∀ l : Fin 2, (t.lantern l).run = (s.lantern l).run ∧ (t.lantern l).config = (s.lantern l).config ∧
        ((s.lantern l).works = true → (t.lantern l).fault = true ∧ causeBoot ∈ (t.lantern l).causes))) ∧
    (s.pins.porst = false → exec .porstAssert s = .next s)) ∧
  (∀ (hw : BootHw) (s : State),
    (s.pins.porst = false → exec (.porstRelease hw) s = .next (runSteps hw coldSteps (s.bootBegin hw))) ∧
    (s.pins.porst = false → (s.pgoodLow = true ∨ hw.clocks = false) → ∃ t, exec (.porstRelease hw) s = .next t ∧ t.pins.porst = true ∧
      t.recovery.phase = .coldBoot ∧ t.hif.stage = .BOOT ∧ t.hif.bootStage = 1 ∧ t.hif.hostReady = s.hif.hostReady ∧
      t.thermal.powerCycles = s.thermal.powerCycles + 1) ∧
    (s.pins.porst = false → s.pgoodLow = false → hw.clocks = true → (s.lantern 0).works = false → (s.lantern 1).works = false →
      ∃ t, exec (.porstRelease hw) s = .next t ∧ t.recovery.phase = .stopped ∧ t.hif.stage = .STOPPED ∧ t.hif.bootStage = 2) ∧
    (s.pins.porst = false → ∃ t, exec (.porstRelease hw) s = .next t ∧ (t.recovery.phase = .running → t.hif.hostReady = true ∧
      t.hif.stage = .READY)) ∧
    (s.pins.porst = true → s.recovery.phase ≠ .coldBoot → exec (.porstRelease hw) s = .next s)) ∧
  (∀ (l : Fin 2) (s : State), (s.lantern l).works = true →
    let near := (s.lantern l).warmRequests.filter fun t => s.now < t + 600000000
    (near.length < 3 → s.recovery.phase = .running → ∃ t, exec (.warmResetRequest (l.castLE (by decide))) s = .next t ∧
      t.recovery.phase = .warmRequested ∧ t.recovery.requester = l.val ∧ t.recovery.requestedAt = s.now ∧
      (t.lantern l).warmRequests = s.now :: near ∧ (t.lantern l).warmWait = some s.now) ∧
    (3 ≤ near.length → ∃ t, exec (.warmResetRequest (l.castLE (by decide))) s = .next t ∧ (t.lantern l).pwrOff.isSome = true ∧
      t.recovery.phase = s.recovery.phase)) ∧
  (∀ (x : Fin 5) (s : State), 2 ≤ x.val →
    (s.managed = true → s.recovery.phase = .running → ∃ t, exec (.warmResetRequest x) s = .next t ∧ t.recovery.phase = .warmRequested ∧
      t.recovery.requester = x.val ∧ t.recovery.requestedAt = s.now) ∧
    ((s.managed = false ∨ s.recovery.phase ≠ .running) → exec (.warmResetRequest x) s = .next s)) ∧
  (∀ s : State,
    (s.recovery.phase = .warmRequested → s.recovery.requestedAt + 1000 ≤ s.now → s.recovery.down = [] → tblWf {} s.mgt.hubs = true →
      ∃ t, exec .warmResetAssert s = .next t ∧ t.recovery.phase = .warmRestart ∧ t.recovery.assertedAt = s.now ∧ t.hif.stage = .RESTARTING ∧
        t.hif.hostReady = false ∧ t.hif.locked = false ∧ (∀ a, a < hbmEnd → memGet t.mem a = memGet s.mem a) ∧
        (∀ a, hbmEnd ≤ a → memGet t.mem a = unlistedByte) ∧ t.hbmPoison = s.hbmPoison ∧ t.recovery.keepers = s.recovery.keepers ∧
        t.graphs = State.reset.graphs ∧ t.pln = State.reset.pln ∧ t.mgt.otp = s.mgt.otp ∧ (∀ c : Fin 32, (t.core c).run = .RESET) ∧
        (∀ h : Fin 2, t.reg (ra .HIF_ERR_STATUS h) = 0 ∧ (t.hubMgt h).flash = (s.hubMgt h).flash ∧
          ∀ (v : Fin 64) (w : Fin 4), t.reg (ra .MSIX_TABLE h v w) = s.reg (ra .MSIX_TABLE h v w))) ∧
    ((s.recovery.phase ≠ .warmRequested ∨ s.now < s.recovery.requestedAt + 1000 ∨ s.recovery.down ≠ []) →
      exec .warmResetAssert s = .next s)) ∧
  (∀ (hw : BootHw) (s : State),
    (s.recovery.phase = .warmRestart → (∃ t, exec (.warmRestart hw) s = .next t ∧ (t.recovery.phase = .running → t.hif.hostReady = true ∧
        t.hif.stage = .READY)) ∧
      (s.hif.bootStage ≤ 1 → (s.pgoodLow = true ∨ hw.clocks = false) → ∃ t, exec (.warmRestart hw) s = .next t ∧
        t.recovery.phase = .warmRestart ∧ t.hif.bootStage = 1)) ∧
    (s.recovery.phase ≠ .warmRestart → exec (.warmRestart hw) s = .next s)) ∧
  (∀ (l : Fin 2) (s : State) (a : Nat), (s.lantern l).warmWait = some a →
    let near := (s.lantern l).warmRequests.filter fun t => s.now < t + 600000000
    ((s.lantern l).works = true → a + 10000000 ≤ s.now → (s.lantern l).pwrOff = none →
      (near.length < 3 → s.recovery.phase = .running → ∃ t, exec (.restartRetryExpiry l) s = .next t ∧ t.recovery.phase = .warmRequested ∧
        t.recovery.requester = l.val) ∧
      (3 ≤ near.length → ∃ t, exec (.restartRetryExpiry l) s = .next t ∧ (t.lantern l).pwrOff = some s.now ∧ t.pins.pwrOff = true)) ∧
    (s.now < a + 10000000 → exec (.restartRetryExpiry l) s = .next s) ∧
    (s.recovery.phase = .warmRestart → s.hif.bootStage ≤ 1 → s.recovery.assertedAt + 1000000 ≤ s.now → s.pgoodLow = true →
      (s.lantern l).works = true → (s.lantern l).pwrOff = none → ∃ t, exec (.warmRestartPgoodTimeout l) s = .next t ∧
        (t.lantern l).pwrOff = some s.now ∧ t.pins.pwrOff = true) ∧
    ((s.recovery.phase ≠ .warmRestart ∨ s.pgoodLow = false) → exec (.warmRestartPgoodTimeout l) s = .next s))

/-- R146, R160, R418 … R420, R466, R485: one die or one lantern is reset and rejoins, or does not within its time; the keeper stores are refreshed; a die
gets its catalogue region. -/
def Obligations.unitsRejoin : Prop :=
  (∀ (d : Fin 4) (s : State),
    (s.managed = true → s.recovery.phase = .running → (∀ x ∈ s.recovery.dieResets, x.1 ≠ d.val) → s.scopeRuns 1 = false →
      ∃ t, exec (.dieReset d) s = .next t ∧ t.dieFenced d = true ∧ (d.val, s.now, false) ∈ t.recovery.dieResets ∧
        ∀ i : Fin 8, (t.core (8 * d.val + i.val)).run = .RESET) ∧
    ((s.managed = false ∨ s.recovery.phase ≠ .running ∨ ∃ x ∈ s.recovery.dieResets, x.1 = d.val) → exec (.dieReset d) s = .next s)) ∧
  (∀ (d : Fin 4) (x y : Bool) (s : State), (∃ r ∈ s.recovery.dieResets, r.1 = d.val) →
    (s.widthsAgreed d = true → ∃ t, exec (.dieRejoin d true true) s = .next t ∧ t.dieFenced d = false ∧
      (∀ r ∈ t.recovery.dieResets, r.1 ≠ d.val) ∧ (s.scopeRuns 1 = false → ∀ k : Fin 4, k ≠ d → t.dieFenced k = s.dieFenced k)) ∧
    ((x = false ∨ y = false ∨ s.widthsAgreed d = false) → exec (.dieRejoin d x y) s = .next s)) ∧
  (∀ (d : Fin 4) (s : State) (r : Nat × Nat × Bool), s.recovery.dieResets.find? (fun x => x.1 == d.val) = some r →
    (r.2.1 + 300000 ≤ s.now → s.scopeRuns 1 = false → ∃ t, exec (.dieRejoinTimeout d) s = .next t ∧
      t.recovery.dieResets = s.recovery.dieResets.filter (fun x => x.1 != d.val) ∧ t.graphs = s.graphs ∧
      (s.ledgerRoom → s.logged t .DIE_REJOIN_FAIL d [d.val]) ∧ s.sameData t ∧ s.sameCompute t ∧ s.sameSensing t) ∧
    (s.now < r.2.1 + 300000 → exec (.dieRejoinTimeout d) s = .next s)) ∧
  (∀ (d : Fin 4) (x y : Bool) (s : State), (∀ r ∈ s.recovery.dieResets, r.1 ≠ d.val) → exec (.dieRejoin d x y) s = .next s ∧
    exec (.dieRejoinTimeout d) s = .next s) ∧
  (∀ (l : Fin 2) (c : LnfConfig) (s : State),
    ((s.lantern l).run = .UPDATING → ∃ t, exec (.lanternRestart l c) s = .next t ∧ (t.lantern l).run = .RUNNING ∧ (t.lantern l).since = s.now ∧
      (t.lantern l).config = c ∧ (t.lantern l).boots = (s.lantern l).boots + 1 ∧ (t.lantern l).fault = (s.lantern l).fault ∧
      (t.lantern l).causes = (s.lantern l).causes ∧ (t.lantern l).active = (s.lantern l).active ∧
      (t.lantern l).stored = (s.lantern l).stored ∧ (∀ x ∈ t.recovery.lanRestarts, x.1 ≠ l.val) ∧ s.lanternsOnly t) ∧
    ((s.lantern l).run ≠ .UPDATING → exec (.lanternRestart l c) s = .next s)) ∧
  (∀ (l : Fin 2) (s : State) (r : Nat × Nat), s.recovery.lanRestarts.find? (fun x => x.1 == l.val) = some r →
    (r.2 + 300000 ≤ s.now → (s.lantern l).run ≠ .RESET → ∃ t, exec (.lanternRestartTimeout l) s = .next t ∧ (t.lantern l).fault = true ∧
      causeBoot ∈ (t.lantern l).causes ∧ (∀ x ∈ t.recovery.lanRestarts, x.1 ≠ l.val) ∧ s.lanternsOnly t) ∧
    (s.now < r.2 + 300000 → exec (.lanternRestartTimeout l) s = .next s)) ∧
  (∀ s : State,
    (s.scopeRuns 2 = true → s.mgt.update.unit = 8 → s.mgt.update.step = 3 → (s.lantern 0).run = .RUNNING → (s.lantern 1).run = .RUNNING →
      (s.lantern 0).since + 1000000 ≤ s.now → 8 ≤ (s.lantern 0).judged → ∃ t, exec .lanternUpdateSettle s = .next t ∧
        (t.lantern 1).run = .UPDATING ∧ (1, s.now) ∈ t.recovery.lanRestarts ∧ t.mgt.update.unit = 9 ∧ t.lantern 0 = s.lantern 0 ∧
        s.lanternsOnly t ∧ s.sameRegs t) ∧
    ((s.scopeRuns 2 = false ∨ s.now < (s.lantern 0).since + 1000000 ∨ (s.lantern 0).judged < 8) → exec .lanternUpdateSettle s = .next s)) ∧
  (∀ s : State,
    (s.managed = true → ∃ t, exec .keeperCopyRefresh s = .next t ∧ (∀ d ∈ s.liveTdies, s.reaches (4 + s.mgt.active) d = true →
        (tblGet {} t.recovery.keepers d).glints = s.lan.glints ∧
        (tblGet {} t.recovery.keepers d).record = (tblGet {} s.recovery.keepers d).record) ∧ t = { s with recovery := t.recovery }) ∧
    (s.managed = false → exec .keeperCopyRefresh s = .next s)) ∧
  (∀ (h : Fin 2) (d : Fin 4) (v : BitVec 32) (s : State), s.setupOpen →
    let base := bits v 31 25 * 0x2000000 + s.field (ra .CAT_REGION_BASE_HI d) 15 0 * 0x100000000
    (s.catRegion d = none → v.getLsbD 0 = true → stackOf base = d →
      ∃ t, exec (.catRegionEnable h d v) s = .next t ∧ t.catRegion d = some base ∧ (t.cache.cat d).run = 2 ∧
        (∀ b, (b < base ∨ base + 0x2000000 ≤ b) → memGet t.mem b = memGet s.mem b) ∧ t.cores = s.cores ∧ t.graphs = s.graphs ∧
        s.sameSensing t ∧ s.sameManagement t ∧ s.sameHost t) ∧
    (s.catRegion d = none → v.getLsbD 0 = true → stackOf base ≠ d →
      exec (.catRegionEnable h d v) s = .next (s.putReg (ra .CAT_REGION_BASE_LO d) (v &&& 0xFFFFFFFE))) ∧
    ((s.catRegion d).isSome = true → (∃ e ∈ s.cache.pools, e.2.exists_ = true ∧ e.2.die = d) →
      exec (.catRegionEnable h d v) s = .next s))

/-- R429 … R436, R438: what the mirror link sends and receives, and what becomes of the twin and of the roles. -/
def Obligations.mirrorLinkRuns : Prop :=
  (∀ (l : Fin 2) (s : State),
    (∀ n cause, s.recovery.down.find? (fun x => x.1 == l.val) = some (l.val, n, cause) → s.mirSends l = true →
      ∃ t, exec (.downFrameSend l) s = .next t ∧ t.outputs = s.outputs ++
          [.mirror l (s.mirFrame l (s.mirHeader l kindDown (s.mirPort l).seqDown (cause % 256) ++ []))] ∧
        (n + 1 = 3 → ∀ x ∈ t.recovery.down, x.1 ≠ l.val) ∧ (n + 1 ≠ 3 → (l.val, n + 1, cause) ∈ t.recovery.down) ∧
        (t.mirPort l).seqDown = ((s.mirPort l).seqDown + 1) % 2 ^ 32 ∧ t.reg (ra .MIR_TX_FRAMES l) = s.reg (ra .MIR_TX_FRAMES l) + 1 ∧
        s.sameData t ∧ s.sameCompute t ∧ s.sameSensing t ∧ s.sameManagement t) ∧
    ((∀ x ∈ s.recovery.down, x.1 ≠ l.val) → exec (.downFrameSend l) s = .next s)) ∧
  (∀ (h : Fin 2) (s : State),
    (s.firmware h = true → s.mirSends h = true → ∃ t, exec (.mirHeartbeatSend h) s = .next t ∧ t.outputs = s.outputs ++
        [.mirror h (s.mirFrame h (s.mirHeader h kindHeartbeat (s.mirPort h).seqHb 0 ++ []))] ∧
      (t.mirPort h).seqHb = ((s.mirPort h).seqHb + 1) % 2 ^ 32 ∧ t.reg (ra .MIR_TX_FRAMES h) = s.reg (ra .MIR_TX_FRAMES h) + 1 ∧
      s.sameData t ∧ s.sameCompute t ∧ s.sameSensing t ∧ s.sameManagement t) ∧
    ((s.firmware h = false ∨ s.mirSends h = false) → exec (.mirHeartbeatSend h) s = .next s)) ∧
  (∀ (h : Fin 2) (f : List Byte) (ok : Bool) (s : State), s.mirSends h = false → exec (.mirHeartbeatRx h f ok) s = .next s ∧
    exec (.mirExchangeRx h f ok) s = .next s ∧ exec (.mirDownRx h f ok) s = .next s) ∧
  (∀ (h : Fin 2) (f : List Byte) (ok crc : Bool) (s : State), s.mirSends h = true → s.mirParse h f ok = (none, crc) →
    ∃ t, exec (.mirHeartbeatRx h f ok) s = .next t ∧ exec (.mirExchangeRx h f ok) s = .next t ∧ exec (.mirDownRx h f ok) s = .next t ∧
      t.reg (ra .MIR_RX_DROP h) = satInc (s.reg (ra .MIR_RX_DROP h)) 1 ∧ (t.reg (ra .MIR_ERR_STATUS h)).getLsbD 0 = true ∧
      (crc = true → (t.reg (ra .MIR_ERR_STATUS h)).getLsbD 5 = true) ∧ t.mirror = s.mirror ∧ s.sameData t ∧ s.sameManagement t) ∧
  (∀ (h : Fin 2) (f p : List Byte) (ok crc : Bool) (s : State), s.mirSends h = true → s.mirParse h f ok = (some p, crc) → s.mgt.active < 2 →
    (leAt p 3 1 = 1 → ∃ t, exec (.mirHeartbeatRx h f ok) s = .next t ∧ (t.mirPort h).hbAt = some s.now ∧
      t.reg (ra .MIR_RX_FRAMES h) = s.reg (ra .MIR_RX_FRAMES h) + 1 ∧ t.reg (ra .MIR_PEER_HEALTH h) = word (leAt p 12 4) ∧
      (bitN (leAt p 12 4) 18 = true → t.mirror.leadHeard = some s.now) ∧ s.sameData t ∧ s.sameCompute t ∧ s.sameSensing t) ∧
    (leAt p 3 1 = 2 → (s.mirror.peerFrame ≤ leAt p 36 4 ∨ leAt p 8 4 ≠ s.mirror.peerBoot) → ∃ t, exec (.mirExchangeRx h f ok) s = .next t ∧
      t.mirror.peerFrame = leAt p 36 4 ∧ t.mirror.peerBoot = leAt p 8 4 ∧ t.mirror.heard = true ∧ (t.mirPort h).exAt = some s.now ∧
      (t.mirPort h).rxIndex = ((s.mirPort h).rxIndex + 1) % 2 ^ 32 ∧ t.reg (ra .MIR_PEER_FRAME h) = word (leAt p 36 4) ∧
      (∀ a, s.mirRing h = some a → t.mem = (s.writeMem (a + 2048 * ((s.mirPort h).rxIndex % 8)) (p.take 1120)).mem) ∧
      (s.mirRing h = none → s.sameData t) ∧ s.sameCompute t ∧ s.sameSensing t) ∧
    (leAt p 3 1 = 2 → leAt p 36 4 < s.mirror.peerFrame → leAt p 8 4 = s.mirror.peerBoot → ∃ t, exec (.mirExchangeRx h f ok) s = .next t ∧
      t.reg (ra .MIR_RX_DROP h) = satInc (s.reg (ra .MIR_RX_DROP h)) 1 ∧ t.mirror = s.mirror ∧ s.sameData t) ∧
    (leAt p 3 1 = 3 → s.twinLost = false → ∃ t, exec (.mirDownRx h f ok) s = .next t ∧ t.mirror.twin = .LOST ∧ t.mirror.lead = true ∧
      (t.reg (ra .MIR_ERR_STATUS h)).getLsbD 6 = true ∧ s.sameData t ∧ s.sameCompute t ∧ s.sameSensing t)) ∧
  (∀ s : State,
    (s.mirPorts ≠ [] → s.twinLost = false →
      (s.hbRecent = false → s.exRecent = false → s.mirWaited = true → ∃ t, exec .twinSilence s = .next t ∧ t.mirror.twin = .LOST ∧
        t.mirror.lead = true ∧ s.sameData t ∧ s.sameCompute t ∧ s.sameSensing t) ∧
      (s.hbRecent = true → 3 ≤ s.mirror.misses → ∃ t, exec .twinSilence s = .next t ∧ t.mirror.twin = .HUNG ∧ t.mirror.lead = true ∧
        s.sameData t ∧ s.sameCompute t ∧ s.sameSensing t) ∧
      (s.hbRecent = false → s.exRecent = true → ∃ t, exec .twinSilence s = .next t ∧ t.mirror.twin = .DEGRADED ∧
        t.mirror.lead = s.mirror.lead ∧ s.sameData t ∧ s.sameCompute t ∧ s.sameSensing t) ∧
      (s.hbRecent = true → s.mirror.misses < 3 → s.silentPort = none →
        exec .twinSilence s = .next { s with mirror := { s.mirror with twin := .ALIVE } })) ∧
    ((s.mirPorts = [] ∨ s.twinLost = true) → exec .twinSilence s = .next s)) ∧
  (∀ s : State,
    (s.mirPorts ≠ [] → s.mirror.roleSettled = false → max s.mirror.roleAt (s.mirror.leadHeard.getD 0) + 100000 ≤ s.now →
      ∃ t, exec .roleHearTimeout s = .next t ∧ t.mirror.roleSettled = true ∧
        t.mirror.lead = (s.mirror.lead || s.mirSetup.getLsbD 30) ∧ t = { s with mirror := t.mirror }) ∧
    ((s.mirPorts = [] ∨ s.mirror.roleSettled = true ∨ s.now < max s.mirror.roleAt (s.mirror.leadHeard.getD 0) + 100000) →
      exec .roleHearTimeout s = .next s)) ∧
  (∀ (h : Fin 2) (up : Bool) (s : State), ∃ t, exec (.mirPortLinkChange h up) s = .next t ∧ t.mirPort h = { s.mirPort h with up := up } ∧
    (∀ o : Nat, o ≠ h → t.mirPort o = s.mirPort o) ∧
    (up = false → (s.mirPort h).up = true → (t.reg (ra .MIR_ERR_STATUS h)).getLsbD 1 = true) ∧
    (up = true → s.sameRegs t) ∧ s.sameData t ∧ s.sameCompute t ∧ s.sameSensing t ∧ s.sameManagement t)

/-! ### Power and cooling (spec/14_thermal_power.md) -/

/-- R385, R413, R439 … R444, R460, R461: power-good and clock faults, AVSBus telemetry and requests, clock steps, the power limit and the life
counters. -/
def Obligations.suppliesWatched : Prop :=
  (∀ (r : Fin 13) (s : State),
    (s.railGood r = false → exec (.pgoodFall r) s = .next s) ∧
    (s.railGood r = true → s.mgt.active < 2 → ∃ t, exec (.pgoodFall r) s = .next t ∧ t.railGood r = false ∧
      (∀ o : Nat, o ≠ r → t.rail o = s.rail o) ∧ (∀ l : Fin 2, (t.lantern l).withinRatings = false) ∧
      (∀ l : Fin 2, (s.lantern l).works = true → 6 + l.val ≠ r.val → 5 ∈ (t.lantern l).errLast) ∧
      (∀ l : Fin 2, 6 + l.val = r.val → (t.lantern l).run = .RESET ∧ (t.lantern l).fault = true) ∧
      (s.alive = true → (t.reg (ra .PWR_ERR_STATUS 0)).getLsbD 2 = true) ∧
      (s.alive = true → s.ledgerRoom → ∃ e ∈ t.mgt.queue, e.ev = .RAIL_PGOOD_LOW ∧ e.detail = [r.val] ∧ e.at_ = s.now) ∧
      (r.val < 4 → s.managed = true → s.recovery.phase = .running → t.dieFenced r = true ∧ tblGet {} t.recovery.keepers r = {}) ∧
      ((r.val = 4 ∨ r.val = 5) → s.alive = true → (t.link (r - 4)).lost = true))) ∧
  (∀ (r : Fin 13) (s : State),
    (s.railGood r = true → exec (.pgoodRise r) s = .next s) ∧
    (s.railGood r = false → ∃ t, exec (.pgoodRise r) s = .next t ∧ t.railGood r = true ∧ (∀ o : Nat, o ≠ r → t.rail o = s.rail o) ∧
      (r.val < 6 → t.pins.railsFellAt = none) ∧
      (∀ l : Fin 2, 6 + l.val = r.val → nth false s.pins.lanRstHigh l = true →
        (t.lantern l).run = .RUNNING ∧ (t.lantern l).since = s.now ∧ (t.lantern l).fault = true) ∧
      s.sameData t ∧ s.sameCompute t ∧ s.sameSensing t ∧ t.mirror = s.mirror ∧ t.recovery = s.recovery)) ∧
  (∀ (d : Fin 6) (p : Option (Fin 2)) (s : State),
    (s.alive = false → exec (.dieClockFault d p) s = .next s) ∧
    (s.alive = true → ∃ t, exec (.dieClockFault d p) s = .next t ∧
      (∀ l : Fin 2, (s.lantern l).works = true → tblGet 0 (t.lantern l).errHold 4 = s.now + 1000000) ∧
      (p = none → d.val ∈ t.pins.clockBad ∧
        (d.val < 4 → s.managed = true → s.recovery.phase = .running → t.dieFenced d = true) ∧ (4 ≤ d.val → (t.link (d - 4)).lost = true)) ∧
      (∀ j : Fin 2, p = some j → d.val < 4 → s.managed = true → s.recovery.phase = .running →
        t.pins.clockBad = s.pins.clockBad ∧ ∀ c : Fin 4, t.coreFenced (8 * d.val + 4 * j.val + c.val) = true))) ∧
  (∀ (r : Fin 6) (x : Option (Nat × Nat)) (s : State), s.managed = false → exec (.avsTelemetryPoll r x) s = .next s) ∧
  (∀ (r : Fin 6) (s : State), s.managed = true →
    ((s.rail r).telemetryAt + 10000 ≤ s.now → ∃ t, exec (.avsTelemetryPoll r none) s = .next t ∧
      (t.reg (ra .PWR_ERR_STATUS 0)).getLsbD 3 = true ∧ t.thermal = s.thermal ∧ s.sameData t ∧ s.sameCompute t ∧ s.sameSensing t ∧
      s.sameManagement t ∧ t.lan = s.lan) ∧
    (s.now < (s.rail r).telemetryAt + 10000 → exec (.avsTelemetryPoll r none) s = .next s) ∧
    (∀ mv i : Nat, ∃ t, exec (.avsTelemetryPoll r (some (mv, i))) s = .next t ∧ (t.rail r).measured = mv ∧ (t.rail r).current = i ∧
      (t.rail r).peak = max (s.rail r).peak i ∧ (t.rail r).telemetryAt = s.now ∧ (t.rail r).requested = (s.rail r).requested ∧
      ((s.rail r).requested ≠ 0 → mv ≤ (s.rail r).requested + 10 → (s.rail r).requested ≤ mv + 10 →
        (t.rail r).confirmed = (s.rail r).requested ∧ ((s.rail r).held = false → (t.rail r).fails = 0)) ∧
      ((s.rail r).requested ≠ 0 → ((s.rail r).requested + 10 < mv ∨ mv + 10 < (s.rail r).requested) →
        (t.rail r).confirmed = (s.rail r).confirmed ∧ (t.rail r).fails = (s.rail r).fails) ∧
      (∀ o : Nat, o ≠ r → t.rail o = s.rail o) ∧ t = { s with thermal := t.thermal, free := t.free } ∧
      (r.val = 5 → t.thermal.samples = (({ t with free := s.free } : State).packagePower :: s.thermal.samples).take 100 ∧
        t.thermal.pkg100 = mean t.thermal.samples ∧ t.thermal.pkg10 = mean (t.thermal.samples.take 10) ∧
        (t.thermal.overSince = none ↔ 100 * t.thermal.pkg100 ≤ 102 * s.pLim)))) ∧
  (∀ (r : Fin 6) (a b : Bool) (s : State),
    ((s.managed = false ∨ (s.rail r).requested = s.railNeed r ∨ ((s.rail r).held = true ∧ (s.rail r).confirmed < s.railNeed r)) →
      exec (.avsRequest r a b) s = .next s)) ∧
  (∀ (r : Fin 6) (b : Bool) (s : State), s.managed = true → (s.rail r).requested ≠ s.railNeed r → (s.rail r).held = false →
    ((s.rail r).requested = 0 ∨ (s.rail r).confirmed = (s.rail r).requested) →
    (∃ t, exec (.avsRequest r true b) s = .next t ∧ t.outputs = s.outputs ++ [.avs r (s.railNeed r)] ∧
      t.rail r = { s.rail r with requested := s.railNeed r } ∧ (∀ o : Nat, o ≠ r → t.rail o = s.rail o) ∧
      t = { s with outputs := t.outputs, thermal := t.thermal }) ∧
    (∃ t, exec (.avsRequest r false true) s = .next t ∧
      t.rail r = { s.rail r with requested := s.railNeed r, nacks := min ((s.rail r).nacks + 1) 255 } ∧
      (t.reg (ra .PWR_ERR_STATUS 0)).getLsbD 0 = true ∧ s.sameData t ∧ s.sameCompute t ∧ s.sameManagement t) ∧
    (s.mgt.active < 2 → ∃ t, exec (.avsRequest r false false) s = .next t ∧ (t.rail r).requested = (s.rail r).requested ∧
      (t.rail r).fails = (s.rail r).fails + 1 ∧ ((t.rail r).held = true ↔ (s.rail r).fails = 2) ∧
      (t.reg (ra .PWR_ERR_STATUS 0)).getLsbD 0 = true ∧ ((s.rail r).fails = 2 → (t.reg (ra .PWR_ERR_STATUS 0)).getLsbD 1 = true) ∧
      s.sameData t ∧ s.sameCompute t)) ∧
  (∀ (r : Fin 6) (b : Bool) (s : State), s.managed = true → (s.rail r).requested ≠ s.railNeed r → (s.rail r).held = false →
    (s.rail r).requested ≠ 0 → (s.rail r).confirmed ≠ (s.rail r).requested → s.mgt.active < 2 →
    ∃ t, exec (.avsRequest r true b) s = .next t ∧ (t.rail r).requested = s.railNeed r ∧ (t.rail r).fails = (s.rail r).fails + 1 ∧
      ((t.rail r).held = true ↔ (s.rail r).fails = 2) ∧ ((s.rail r).fails = 2 → (t.reg (ra .PWR_ERR_STATUS 0)).getLsbD 1 = true) ∧
      s.sameData t ∧ s.sameCompute t) ∧
  (∀ (k : Fin 8) (s : State),
    ((s.clusterClock k).target = none → exec (.dvfsStepDone k) s = .next s) ∧
    (∀ n, (s.clusterClock k).target = some n → ∃ t, exec (.dvfsStepDone k) s = .next t ∧ t.clusterClock k = { step := n, target := none } ∧
      (∀ o : Nat, o ≠ k → t.clusterClock o = s.clusterClock o) ∧ (n = 0 → t.cores = s.cores) ∧
      (n ≠ 0 → ∀ c : Fin 32, c.val / 4 = k.val → (t.core c).run ≠ .DVFS) ∧ (∀ c : Nat, c / 4 ≠ k → t.core c = s.core c) ∧
      t = { s with thermal := t.thermal, cores := t.cores })) ∧
  (∀ s : State,
    (s.thermal.overSince = none → exec .powerOverLimit s = .next s) ∧
    (∀ a, s.thermal.overSince = some a → (s.now < a + 1000000 → exec .powerOverLimit s = .next s) ∧
      (a + 1000000 ≤ s.now → ∃ t, exec .powerOverLimit s = .next t ∧ (t.reg (ra .PWR_ERR_STATUS 0)).getLsbD 4 = true ∧ s.sameData t ∧
        s.sameCompute t ∧ s.sameSensing t ∧ s.sameSafety t ∧ s.sameManagement t))) ∧
  (∀ s : State,
    (s.managed = true → s.thermal.lifeWritten + 600000000 ≤ s.now → ∃ t, exec .lifeCounterWrite s = .next t ∧
      t.thermal = { s.thermal with lifeWritten := s.now, lifeMark := max s.thermal.lifeMark (s.life / 1000) } ∧
      (∀ h : Fin 2, (s.link h).lost = false → (t.hubMgt h).flash.life = s.lifeCounters) ∧ s.sameData t ∧ s.sameCompute t ∧ s.sameSensing t) ∧
    ((s.managed = false ∨ s.now < s.thermal.lifeWritten + 600000000) → exec .lifeCounterWrite s = .next s)) ∧
  (∀ s : State,
    (s.managed = true → ∃ t, exec .thermalCycleSample s = .next t ∧
      (∀ d : Fin 6, tblGet {} t.thermal.rain d = (tblGet ({} : Rainflow) s.thermal.rain d).push (s.junction d)) ∧
      t.thermal = { s.thermal with rain := t.thermal.rain, lifeMark := t.thermal.lifeMark } ∧ s.sameData t ∧ s.sameCompute t ∧
      s.sameSensing t ∧ t.lan = s.lan) ∧
    (s.managed = false → exec .thermalCycleSample s = .next s))

/-- R445 … R457: hot spots and stacks, the tray, slow and sudden flow loss, the resistance estimate, the forecast and the levels, the hard limit.
Temperatures stand in 0.125 °C, the tray's values in 0.01 units. -/
def Obligations.temperaturesHeld : Prop :=
  (∀ (h : Fin 22) (a b : Int) (s : State),
    (s.alive = false → exec (.hotspotSample h a b) s = .next s) ∧
    (s.alive = true → s.mgt.active < 2 →
      let x := tblGet ({} : SpotState) s.thermal.spots h
      let okA := plausible x.seenA x.a a 40
      let okB := plausible x.seenB x.b b 40
      ∃ t, ∃ z : SpotState, exec (.hotspotSample h a b) s = .next t ∧ tblGet ({} : SpotState) t.thermal.spots h = z ∧ z.a = a ∧ z.b = b ∧
        z.seenA = true ∧ z.seenB = true ∧ z.badA = !okA ∧ z.badB = !okB ∧
        (okA = true → okB = true → z.value = max a b ∧ (z.status = 0 ↔ (a - b).natAbs ≤ 24) ∧ z.status ≤ 1) ∧
        (okA = true → okB = false → z.value = a ∧ z.status = 2) ∧ (okA = false → okB = true → z.value = b ∧ z.status = 2) ∧
        (okA = false → okB = false → z.value = 920 ∧ z.status = 3 ∧ h.val ∈ t.thermal.trips ∧
          (x.status ≠ 3 → (t.reg (ra .THM_ERR_STATUS 0)).getLsbD 2 = true)) ∧
        (x.badA = false → okA = false → (t.reg (ra .THM_ERR_STATUS 0)).getLsbD 1 = true) ∧
        (z.status = 1 → x.splitAt = none → (t.reg (ra .THM_ERR_STATUS 0)).getLsbD 0 = true) ∧
        (∀ o : Nat, o ≠ h → tblGet ({} : SpotState) t.thermal.spots o = tblGet {} s.thermal.spots o) ∧ s.sameData t ∧ s.sameCompute t ∧
        s.sameSensing t ∧ t.recovery = s.recovery ∧ t.mirror = s.mirror)) ∧
  (∀ (n : Fin 4) (v : Int) (s : State),
    (s.alive = false → exec (.hbmDiodeSample n v) s = .next s ∧ exec (.hbmTempReadout n v) s = .next s) ∧
    (s.alive = true →
      let x := tblGet ({} : SpotState) s.thermal.spots (22 + n)
      (∃ t, exec (.hbmDiodeSample n v) s = .next t ∧ (tblGet ({} : SpotState) t.thermal.spots (22 + n)).b = v ∧
        (plausible x.seenB x.b v 40 = true → x.seenA = true → x.badA = false → t.stackTemp n = max x.a v) ∧
        (plausible x.seenB x.b v 40 = false → x.seenA = true → x.badA = false → t.stackTemp n = x.a) ∧
        (plausible x.seenB x.b v 40 = false → x.seenA = true → x.badA = true → t.stackTemp n = 840 ∧ 22 + n.val ∈ t.thermal.trips) ∧
        (t.mc n).refresh = max (s.mc n).refresh (refreshRate (t.stackTemp n)) ∧ (t.mc n).temp = t.stackTemp n / 8 ∧ s.sameData t ∧
        t.cores = s.cores ∧ t.graphs = s.graphs ∧ t.cache = s.cache ∧ s.sameSensing t ∧ t.recovery = s.recovery) ∧
      ∃ t, exec (.hbmTempReadout n v) s = .next t ∧ (tblGet ({} : SpotState) t.thermal.spots (22 + n)).a = v ∧
        (plausible x.seenA x.a v 12800 = true → x.seenB = true → x.badB = false → t.stackTemp n = max v x.b) ∧
        (plausible x.seenA x.a v 12800 = false → x.seenB = true → x.badB = false → t.stackTemp n = x.b) ∧
        (plausible x.seenA x.a v 12800 = false → x.seenB = true → x.badB = true → t.stackTemp n = 840 ∧ 22 + n.val ∈ t.thermal.trips) ∧
        (t.mc n).refresh = max (s.mc n).refresh (refreshRate (t.stackTemp n)) ∧ (t.mc n).temp = t.stackTemp n / 8 ∧ s.sameData t ∧
        t.cores = s.cores ∧ t.graphs = s.graphs ∧ t.cache = s.cache ∧ s.sameSensing t ∧ t.recovery = s.recovery)) ∧
  (∀ (x : Option (Int × Int × Nat × Nat)) (s : State),
    ((s.managed = false ∨ s.trayOn = false) → exec (.trayRead x) s = .next s) ∧
    (s.managed = true → s.trayOn = true → (x = none ∨ ∃ i o f st, x = some (i, o, f, st) ∧ bitN st 1 = true) → s.mgt.active < 2 →
      ∃ t, exec (.trayRead x) s = .next t ∧ t.thermal.trayFails = s.thermal.trayFails + 1 ∧ t.thermal.trayGood = 0 ∧
        (s.thermal.trayFails = 2 → s.thermal.trayLost = false → t.thermal.trayLost = true ∧ t.thermal.trayOk = false ∧
          (t.reg (ra .THM_ERR_STATUS 0)).getLsbD 3 = true) ∧
        (s.thermal.trayFails ≠ 2 → t.thermal.trayOk = s.thermal.trayOk ∧ t.thermal.trayLost = s.thermal.trayLost) ∧ s.sameData t ∧
        s.sameCompute t ∧ s.sameSensing t)) ∧
  (∀ (i o : Int) (f st : Nat) (s : State), s.managed = true → s.trayOn = true → bitN st 1 = false →
    (∃ t, exec (.trayRead (some (i, o, f, st))) s = .next t ∧ t.thermal.inlet = i ∧ t.thermal.outlet = o ∧ t.thermal.flow = f ∧
      t.thermal.pumpOn = bitN st 0 ∧ t.thermal.trayFails = 0 ∧ t.thermal.trayLost = (s.thermal.trayLost && decide (s.thermal.trayGood < 9)) ∧
      t.thermal.trayOk = !t.thermal.trayLost ∧ s.sameData t ∧ s.sameSensing t) ∧
    (s.thermal.trayLost = false →
      (f < 3 * s.flowNom → -1000 ≤ i → s.thermal.flowSt ≠ 2 → ∃ t, exec (.trayRead (some (i, o, f, st))) s = .next t ∧
        t.thermal.flowSt = 2 ∧ t.thermal.shade = 3 ∧ t.thermal.cause = 5 ∧
        ∀ l : Fin 2, (s.lantern l).powered = true → (t.lantern l).lossAt = some s.now) ∧
      (3 * s.flowNom ≤ f → f < 300 → s.thermal.flowSt = 0 → s.mgt.active < 2 → ∃ t, exec (.trayRead (some (i, o, f, st))) s = .next t ∧
        t.thermal.flowSt = 1 ∧ (t.reg (ra .THM_ERR_STATUS 0)).getLsbD 4 = true) ∧
      (3 * s.flowNom ≤ f → 300 ≤ f → s.thermal.flowSt = 2 → ∃ t, exec (.trayRead (some (i, o, f, st))) s = .next t ∧
        t.thermal.flowSt = 0 ∧ ∀ l : Fin 2, (t.lantern l).lossAt = none) ∧
      (3 * s.flowNom ≤ f → 7500 < i → s.thermal.flowSt ≠ 2 → ∃ t, exec (.trayRead (some (i, o, f, st))) s = .next t ∧
        t.thermal.shade = 3 ∧ t.thermal.cause = 3))) ∧
  (∀ s : State,
    (∀ a, s.thermal.flowOkSince = some a → s.thermal.flowSt = 1 → s.flowFine = true → a + 60000000 ≤ s.now →
      ∃ t, exec .flowLowClear s = .next t ∧ t.thermal = { s.thermal with flowSt := 0 } ∧ s.sameData t ∧ s.sameCompute t ∧ s.sameSensing t) ∧
    ((s.thermal.flowOkSince = none ∨ s.thermal.flowSt ≠ 1 ∨ s.flowFine = false) → exec .flowLowClear s = .next s) ∧
    (∀ a, s.thermal.flowOkSince = some a → s.now < a + 60000000 → exec .flowLowClear s = .next s)) ∧
  (∀ (l : Fin 2) (s : State),
    (∀ a, (s.lantern l).lossAt = some a →
      ((s.lantern l).works = true → a + 10000000 ≤ s.now → (s.lantern l).pwrOff = none → ∃ t, exec (.flowLossExpiry l) s = .next t ∧
        (t.lantern l).pwrOff = some s.now ∧ t.pins.pwrOff = true ∧ (s.ledgerRoom → s.logged t .POWER_OFF_REQ (4 + l) [causeThermal]) ∧
        s.sameData t ∧ s.sameCompute t ∧ s.sameSensing t ∧ t.thermal = s.thermal) ∧
      (((s.lantern l).works = false ∨ s.now < a + 10000000) → exec (.flowLossExpiry l) s = .next s)) ∧
    ((s.lantern l).lossAt = none → exec (.flowLossExpiry l) s = .next s)) ∧
  (∀ s : State,
    (s.managed = false → exec .junctionSlopeFit s = .next s ∧ exec .thermalResistanceUpdate s = .next s ∧
      exec .forecastRefresh s = .next s) ∧
    (s.managed = true →
      let js := (s.now, s.hottest * 125) :: s.thermal.junctions.filter fun x => s.now ≤ x.1 + 50000
      (fitSlope s.now js = none → exec .junctionSlopeFit s = .next { s with thermal := { s.thermal with junctions := js } }) ∧
      (∀ m, fitSlope s.now js = some m →
        let ms := (m :: s.thermal.slopes).take 20
        ∃ t, exec .junctionSlopeFit s = .next t ∧ t.thermal.junctions = js ∧ t.thermal.slopes = ms ∧
          (s.thermal.flowSt = 2 → s.thermal.trayOk = false → s.thermal.shade = 3 → m < 200 →
            (∃ a, s.thermal.slowSince = some a ∧ a + 2000000 ≤ s.now) → t.thermal.flowSt = 0) ∧
          (s.thermal.flowSt ≠ 2 → ms.length = 20 → (∀ x ∈ ms, 1500 < x) → steadyWork s.thermal.predicted = true →
            t.thermal.flowSt = 2 ∧ t.thermal.shade = 3 ∧ t.thermal.cause = 5) ∧
          (s.thermal.flowSt ≠ 2 → (ms.length ≠ 20 ∨ (∃ x ∈ ms, x ≤ 1500) ∨ steadyWork s.thermal.predicted = false) →
            t.thermal.flowSt = s.thermal.flowSt ∧ t.thermal.shade = s.thermal.shade) ∧ s.sameData t ∧ s.sameSensing t) ∧
      (let p := mean (s.thermal.history.map (·.2.2))
       let x := min ((meanInt (s.thermal.history.map (·.1)) - 10 * meanInt (s.thermal.history.map (·.2.1))) * 100 / (p : Int)).toNat 65535
       ∃ t, exec .thermalResistanceUpdate s = .next t ∧
        (s.thermal.trayOk = true → t.thermal.rStep = none ∧
          (s.thermal.history.length = 100 → 1000 ≤ p → t.thermal.rEst = mean (x :: s.thermal.rRaw) ∧
            t.thermal.rRaw = (x :: s.thermal.rRaw).take 3) ∧
          ((s.thermal.history.length ≠ 100 ∨ p < 1000) → t.thermal.rEst = s.thermal.rEst)) ∧
        (s.thermal.trayOk = false → s.thermal.rStep = none → s.thermal.history.length = 100 →
          (s.thermal.lastPower + 400 ≤ p ∨ p + 400 ≤ s.thermal.lastPower) →
          t.thermal.rStep = some (s.now, s.hottest * 125, s.thermal.lastPower) ∧ t.thermal.rEst = s.thermal.rEst) ∧
        (t.thermal.rEst ≤ 880 → t.thermal.rHighSince = none ∧ t.thermal.flowSt = s.thermal.flowSt) ∧
        (880 < t.thermal.rEst → (∃ a, s.thermal.rHighSince = some a ∧ a + 10000000 ≤ s.now) → s.thermal.flowSt = 0 → t.thermal.flowSt = 1) ∧
        s.sameData t ∧ s.sameCompute t ∧ s.sameSensing t) ∧
      (let ps := [0, 1, 2, 3].map s.predicted
       let u : State := { s with thermal := { s.thermal with spots := s.forecast ps } }
       let want := ([0, 1, 2].find? (u.levelOk ps)).getD 3
       ∃ t, exec .forecastRefresh s = .next t ∧ t.free = s.free + 1 ∧
        t.thermal.history = ((s.hottest * 125, s.thermal.inlet, s.thermal.pkg10) :: s.thermal.history).take 100 ∧
        t.thermal.spots = s.forecast ps ∧
        (s.thermal.flowSt = 2 → t.thermal.shade = 3 ∧ t.thermal.cause = 5) ∧
        (s.thermal.flowSt ≠ 2 → s.thermal.trayOk = true → 7500 < s.thermal.inlet → t.thermal.shade = 3 ∧ t.thermal.cause = 3) ∧
        (s.thermal.flowSt ≠ 2 → (s.thermal.trayOk = false ∨ s.thermal.inlet ≤ 7500) → s.thermal.shade < 3 →
          (s.thermal.shade < want → t.thermal.shade = s.thermal.shade + 1) ∧
          (want ≤ s.thermal.shade → t.thermal.shade = s.thermal.shade ∨ t.thermal.shade + 1 = s.thermal.shade) ∧
          (want ≤ s.thermal.shade → 0 < s.thermal.shade → u.levelOk ps (s.thermal.shade - 1) = true →
            (∃ a, s.thermal.lowerSince = some a ∧ a + 1000000 ≤ s.now) → t.thermal.shade + 1 = s.thermal.shade)) ∧
        s.sameData t ∧ s.sameSensing t))) ∧
  (∀ (h : Fin 26) (s : State),
    (h.val ∈ s.thermal.trips → exec (.thermalTrip h) s = .next s) ∧
    (h.val ∉ s.thermal.trips → s.mgt.active < 2 → ∃ t, exec (.thermalTrip h) s = .next t ∧
      t.thermal = { s.thermal with trips := s.thermal.trips ++ [h.val], tripLatch := true } ∧ t.pins.pwrOff = true ∧
      (∀ l : Fin 2, (s.lantern l).powered = true → (t.lantern l).fault = true ∧ causeThermal ∈ (t.lantern l).causes ∧
        (t.lantern l).pwrOff.isSome = true) ∧
      (s.alive = true → (t.reg (ra .THM_ERR_STATUS 0)).getLsbD 7 = true) ∧ s.sameData t ∧ s.sameCompute t ∧ s.sameSensing t ∧
      t.recovery = s.recovery ∧ t.mirror = s.mirror)) ∧
  (∀ s : State,
    (s.pins.railsFellAt = none → exec .pwrOffReqRelease s = .next s) ∧
    (∀ a, s.pins.railsFellAt = some a → (s.now < a + 10000 → exec .pwrOffReqRelease s = .next s) ∧
      (a + 10000 ≤ s.now → ∃ t, exec .pwrOffReqRelease s = .next t ∧ t.pins.pwrOff = false ∧ t.thermal.trips = [] ∧
        t.thermal.tripLatch = false ∧ (∀ l : Fin 2, (t.lantern l).pwrOff = none) ∧ s.sameData t ∧ s.sameCompute t ∧ s.sameSensing t ∧
        s.sameManagement t)))

/-! ### Management (spec/15_management_security.md) -/

/-- R465 … R467, R470 … R472, R267: which management processor is active, its heartbeats and takeover, and the ledger writer with its notices.
That the standby's word alone makes it active at once is the model's reading of R466. -/
def Obligations.processorsTakeOver : Prop :=
  (∀ s : State,
    let sel := b2n s.pins.primarySampled
    let o := 1 - sel
    (∀ a, (s.recovery.phase = .coldBoot ∨ s.recovery.phase = .warmRestart) → s.hif.bootStage = 4 → (s.hubMgt sel).announced = false →
      (s.hubMgt o).announced = true → (s.hubMgt o).role = .BOOT → (s.hubMgt o).startedAt = some a →
      (a + 100000 ≤ s.now → ∃ t, exec .primaryAbsent s = .next t ∧ t.mgt.active = o ∧ (t.hubMgt o).role = .ACTIVE ∧
        t.hubMgt sel = s.hubMgt sel ∧ (∀ d : Fin 4, tblGet 0 t.mgt.dieActive d = o) ∧ (s.ledgerRoom → s.logged t .PRIMARY_ABSENT (4 + o) [o]) ∧
        s.sameData t ∧ s.sameCompute t ∧ s.sameSensing t ∧ s.sameSafety t) ∧
      (s.now < a + 100000 → exec .primaryAbsent s = .next s)) ∧
    (((s.hubMgt sel).announced = true ∨ (s.hubMgt o).announced = false ∨ s.hif.bootStage ≠ 4) → exec .primaryAbsent s = .next s)) ∧
  (∀ s : State,
    (s.managed = false → exec .mpHeartbeatSend s = .next s) ∧
    (s.managed = true →
      let h := s.mgt.active
      let o := 1 - h
      let far := s.reaches (4 + h) (4 + o) = true ∧ (s.link o).lost = false
      ∃ t, exec .mpHeartbeatSend s = .next t ∧ h ∈ t.mgt.beats ∧ (far → o ∈ t.mgt.beats ∧ (t.hubMgt o).heardAt = some s.now) ∧
        (∀ d : Fin 4, s.reaches (4 + h) d = true → tblGet 0 s.mgt.dieActive d = h →
          tblGet 0 t.mgt.dieHeard d = s.now ∧ (t.hubMgt h).ackAt = some s.now) ∧
        (∀ d : Fin 4, (s.reaches (4 + h) d = false ∨ tblGet 0 s.mgt.dieActive d ≠ h) →
          tblGet 0 t.mgt.dieHeard d = tblGet 0 s.mgt.dieHeard d) ∧ t = { s with mgt := t.mgt })) ∧
  (∀ s : State,
    let old := s.mgt.active
    let h := 1 - old
    (∀ a, (s.hubMgt h).heardAt = some a →
      ((s.hubMgt h).role = .STANDBY → (s.hubMgt h).demoted = false → (s.link h).lost = false → s.recovery.phase = .running →
        a + 5000 ≤ s.now → ∃ t, exec .standbyTakeover s = .next t ∧ t.mgt.active = h ∧ (t.hubMgt h).role = .ACTIVE ∧
          t.mgt.takeovers = min (s.mgt.takeovers + 1) 0xFFFFFFFF ∧ t.mgt.takeover = some s.now ∧ t.mgt.accepted = [] ∧ h ∈ t.mgt.doneTo ∧
          (s.reaches (4 + h) (4 + old) = true → (s.link old).lost = false → old ∈ t.mgt.doneTo) ∧ t.lan.glints = s.glintCopy ∧
          (t.reg (ra .MGT_ERR_STATUS h)).getLsbD 3 = true ∧
          ((s.link old).lost = false → t.graphs.tests = s.graphs.testing ++ s.graphs.tests ∧ t.graphs.testing = []) ∧
          (s.mgt.update.phase = .PAUSED → t.mgt.update.phase = .ABORTED) ∧
          (s.mgt.update.phase = .ACTIVATING → t.mgt.update.stopAfter = true)) ∧
      (((s.hubMgt h).role ≠ .STANDBY ∨ (s.hubMgt h).demoted = true ∨ s.now < a + 5000) → exec .standbyTakeover s = .next s)) ∧
    ((s.hubMgt h).heardAt = none → exec .standbyTakeover s = .next s)) ∧
  (∀ (d : Fin 4) (s : State),
    let h := s.mgt.active
    (s.mgt.takeover.isSome = true → d.val ∉ s.mgt.accepted → s.reaches (4 + h) d = true → tblGet 0 s.mgt.dieHeard d + 5000 ≤ s.now →
      ∃ t, exec (.takeoverRx d) s = .next t ∧ t.mgt.accepted = s.mgt.accepted ++ [d.val] ∧ tblGet 0 t.mgt.dieActive d = h ∧
        (∀ o : Nat, o ≠ d → tblGet 0 t.mgt.dieActive o = tblGet 0 s.mgt.dieActive o) ∧ t = { s with mgt := t.mgt }) ∧
    ((s.mgt.takeover = none ∨ d.val ∈ s.mgt.accepted ∨ s.reaches (4 + h) d = false ∨ s.now < tblGet 0 s.mgt.dieHeard d + 5000) →
      exec (.takeoverRx d) s = .next s)) ∧
  (∀ (l : Fin 2) (s : State),
    (l.val ∈ s.mgt.doneTo → ∃ t, exec (.takeoverDoneRx l) s = .next t ∧ t.mgt.doneTo = s.mgt.doneTo.filter (· != l.val) ∧
      ((s.lantern l).works = true → (t.lantern l).mpHeard = some s.now ∧ (t.lantern l).mpSilentAt = none ∧ 7 ∉ (t.lantern l).errLast) ∧
      s.lanternsOnly t) ∧
    (l.val ∉ s.mgt.doneTo → exec (.takeoverDoneRx l) s = .next s)) ∧
  (∀ (h : Fin 2) (s : State),
    let told := s.mgt.active ≠ h ∧ s.mgt.takeover.isSome = true ∧ s.reaches (4 + s.mgt.active) (4 + h.val) = true
    let alone := ∃ a, (s.hubMgt h).ackAt = some a ∧ a + 5000 ≤ s.now
    ((s.hubMgt h).role = .ACTIVE → (s.link h).lost = false → (told ∨ alone) → ∃ t, exec (.mgtDemote h) s = .next t ∧
      (t.hubMgt h).role = .STANDBY ∧ (t.hubMgt h).demoted = true ∧ (t.hubMgt h).heardAt = some s.now ∧ t.mgt.active = s.mgt.active ∧
      (s.ledgerRoom → s.logged t .MGT_DEMOTED (4 + h) [h.val]) ∧ s.sameData t ∧ s.sameCompute t ∧ s.sameSensing t ∧ s.sameSafety t) ∧
    (((s.hubMgt h).role ≠ .ACTIVE ∨ ¬ (told ∨ alone)) → exec (.mgtDemote h) s = .next s)) ∧
  (∀ (bad : List (Fin 2)) (s : State),
    ((s.mgt.queue = [] ∨ s.managed = false) → exec (.ledgerWrite bad) s = .next s) ∧
    (∀ x rest, s.mgt.queue = x :: rest → s.managed = true → s.mgt.active < 2 →
      let bs := entryBytes s.mgt.nextSeq s.mgt.bootCount ((x.at_ - s.mgt.bootAt) % 2 ^ 48) x.ev x.die (2 * b2n s.mgt.takenOver) x.detail
      ∃ t, exec (.ledgerWrite bad) s = .next t ∧ t.mgt.nextSeq = s.mgt.nextSeq + 1 ∧ bs.length = 64 ∧
        (rest.length < 4096 → t.mgt.droppedPending = 0) ∧
        (∀ h : Fin 2, (s.link h).lost = false → h ∉ bad → tblGet [] (t.hubMgt h).flash.ring s.mgt.nextSeq = bs) ∧
        (∀ h : Fin 2, (s.link h).lost = false → h ∈ bad → (t.reg (ra .MGT_ERR_STATUS h)).getLsbD 0 = true ∧
          (t.hubMgt h).flash = (s.hubMgt h).flash) ∧
        (s.mgt.droppedPending = 0 → t.mgt.queue = rest) ∧
        (s.mgt.droppedPending ≠ 0 → rest.length < 4096 → t.mgt.queue = rest ++
          [{ ev := .LEDGER_DROPPED, die := 0xFF, detail := [s.mgt.droppedPending], at_ := s.now }]) ∧
        (∀ l : Fin 2,
          let v := s.reg (ra .HIF_NOTICE_RING l)
          v.getLsbD 31 = true → (s.cq l (bits v 5 0)).enabled = true → (s.link l).lost = false →
          (bits v 10 8 ≤ x.ev.severity ∨ x.ev.noticed = true) → 2 ≤ s.cqRoom l (bits v 5 0) →
          ∃ c : Completion, (t.cq l (bits v 5 0)).queue = (s.cq l (bits v 5 0)).queue ++ [c] ∧ c.kind = 0x82 ∧ c.payload = bs) ∧
        s.sameData t ∧ s.sameCompute t ∧ s.sameSensing t ∧ s.sameSafety t))

/-- R273, R474, R476 … R480, R489 … R492, R514: the management port, the mailbox and the READ messages. Where the manual gives a reply's fields and
not its layout, the layout is free (log 48); a reply's header is log 49. -/
def Obligations.messagesAnswered : Prop :=
  (∀ (m : IkMsg) (status : Nat) (body : List Byte), status < 2 ^ 16 →
    (∀ d ∈ replyDatagrams m status body, d.length ≤ 1472 ∧ leAt d 0 2 = 0x4B49 ∧ leAt d 2 1 = 1 ∧ leAt d 4 4 = d.length ∧
      leAt d 20 2 = status ∧ leAt d 16 4 = leAt m.bytes 16 4) ∧
    (replyDatagrams m status body).flatMap (·.drop 32) = body) ∧
  (∀ (h : Fin 2) (s : State),
    (∀ d, s.portServes h = false → exec (.mgmtPortDatagram h d) s = .next s) ∧
    (s.portServes h = true →
      (∀ a b, (b = s.netIp h → exec (.mgmtPortDatagram h (.arp a b)) s = .next { s with outputs := s.outputs ++ [.arpReply h a] }) ∧
        (b ≠ s.netIp h → exec (.mgmtPortDatagram h (.arp a b)) s = .next s)) ∧
      (∀ a b bs, (b = s.netIp h → exec (.mgmtPortDatagram h (.echo a b bs)) s = .next { s with outputs := s.outputs ++ [.echoReply h a bs] }) ∧
        (b ≠ s.netIp h → exec (.mgmtPortDatagram h (.echo a b bs)) s = .next s)) ∧
      ∀ a pa b pb bs,
        let good := b = s.netIp h ∧ pb = s.field (ra .MGT_NET_CFG h) 15 0 ∧ bs.length ≤ 1472 ∧ requestOk bs = true
        (good → exec (.mgmtPortDatagram h (.udp a pa b pb bs)) s =
          .next { s with mgt := { s.mgt with inbox := s.mgt.inbox ++ [{ via := .port a pa, bytes := bs }] } }) ∧
        (¬ good → exec (.mgmtPortDatagram h (.udp a pa b pb bs)) s = .next s))) ∧
  (∀ (h : Fin 2) (v : BitVec 32) (s : State),
    (s.hif.hostReady = false → exec (.mailboxSend h v) s = .next s) ∧
    (s.hif.hostReady = true → v.getLsbD 31 = true →
      let n := bits v 15 0
      let bs := ((List.range 256).flatMap fun i => toLe 4 (s.reg (ra .MGT_MBX_DATA h 0 i)).toNat).take n
      let m : IkMsg := { via := .mailbox h, bytes := bs }
      let good := 0 < n ∧ n ≤ 1024 ∧ requestOk bs = true ∧ controlType m.type = false
      ∃ t, exec (.mailboxSend h v) s = .next t ∧ s.sameData t ∧ s.sameCompute t ∧ s.sameSensing t ∧ s.sameSafety t ∧ s.sameHost t ∧
        (good → t.mgt.inbox = s.mgt.inbox ++ [m] ∧ t.reg (ra .MGT_MBX_STATUS h) = 0) ∧
        (¬ good → s.sameManagement t ∧ t.reg (ra .MGT_MBX_STATUS h) = 0x80000020 ∧
          t.reg (ra .MGT_MBX_DATA h 0 5) = word ((if n = 0 then Status.ZERO_FIELD else Status.BAD_PACKET) + 0x10000)))) ∧
  (∀ s : State, s.managed = false → exec .ikisanBadType s = .next s ∧ exec .identify s = .next s ∧ exec .status s = .next s ∧
    exec .ledgerInfo s = .next s ∧ exec .eventNames s = .next s ∧ exec .debugChallenge s = .next s ∧
    ∀ ue, exec (.ledgerRead ue) s = .next s ∧ exec (.stickyRead ue) s = .next s ∧ exec (.calRead ue) s = .next s) ∧
  (∀ (s u : State) (m : IkMsg),
    (s.takesMessage (fun x => !knownType x.type) m u → exec .ikisanBadType s = .next (u.answer m Status.BAD_PACKET)) ∧
    (s.takesMessage (fun x => x.type == 1) m u → exec .identify s =
      .next (if m.body = [] then u.answer m Status.OK u.identify else u.answer m Status.BAD_PACKET)) ∧
    (s.takesMessage (fun x => x.type == 2) m u → exec .status s =
      .next (if m.body = [] then u.answer m Status.OK u.statusBody else u.answer m Status.BAD_PACKET)) ∧
    (s.takesMessage (fun x => x.type == 3) m u → exec .ledgerInfo s =
      .next (if m.body = [] then u.answer m Status.OK u.ledgerInfo else u.answer m Status.BAD_PACKET)) ∧
    (s.takesMessage (fun x => x.type == 4) m u → ∀ ue : Bool,
      let n := m.field 1
      let fl := (s.hubMgt (if ue then 1 - s.mgt.active else s.mgt.active)).flash
      let first := max (leAt m.body 0 8) fl.oldest
      (n = 0 → exec (.ledgerRead ue) s = .next (u.answer m Status.ZERO_FIELD)) ∧
      (1000 < n → exec (.ledgerRead ue) s = .next (u.answer m Status.BAD_PACKET)) ∧
      (0 < n → n ≤ 1000 → ∃ w : State, exec (.ledgerRead ue) s =
          .next (w.answer m Status.OK (toLe 8 first ++ (fl.ring.filter fun e => first ≤ e.1 && e.1 < first + n).flatMap fun e => e.2)) ∧
        (ue = false → w = u) ∧ (ue = true → (w.hubMgt s.mgt.active).flash.health = 1 ∧
          (w.reg (ra .MGT_ERR_STATUS s.mgt.active)).getLsbD 2 = true ∧ u.sameData w ∧ u.sameCompute w ∧ u.sameSafety w))) ∧
    (s.takesMessage (fun x => x.type == 5) m u → ∀ ue : Bool,
      let o := m.field 0
      let n := m.field 1
      (n = 0 → exec (.stickyRead ue) s = .next (u.answer m Status.ZERO_FIELD)) ∧
      (0 < n → (65536 < n ∨ 0x100000 < o + n) → exec (.stickyRead ue) s = .next (u.answer m Status.BAD_PACKET)) ∧
      (0 < n → n ≤ 65536 → o + n ≤ 0x100000 → ∃ (w : State) (bs : List Byte), exec (.stickyRead ue) s = .next (w.answer m Status.OK bs) ∧
        bs.length = n ∧ w.free = s.free + 1 ∧ (ue = false → w = { u with free := s.free + 1 }))) ∧
    (s.takesMessage (fun x => x.type == 6) m u →
      let first := leAt m.body 0 2
      let n := leAt m.body 2 2
      (m.body.length = 4 → 0 < n → n ≤ 1000 → ∃ es : List Event, exec .eventNames s =
          .next (u.answer m Status.OK (toLe 8 first ++ es.flatMap Event.entry)) ∧ es.length ≤ n ∧ es.Pairwise (fun a b => a.code ≤ b.code) ∧
          (∀ e ∈ es, first ≤ e.code ∧ e.entry.length = 64) ∧
          (es.length < n → ∀ e ∈ Event.all, first ≤ e.code → e ∈ es)) ∧
      (m.body.length = 4 → n = 0 → exec .eventNames s = .next (u.answer m Status.ZERO_FIELD)) ∧
      ((m.body.length ≠ 4 ∨ 1000 < n) → exec .eventNames s = .next (u.answer m Status.BAD_PACKET))) ∧
    (s.takesMessage (fun x => x.type == 7) m u → ∀ w : Bool,
      let good := 33 ≤ m.body.length ∧ m.body.length ≤ 48 ∧ leAt m.body 32 1 ≤ 1 ∧ zeroFrom m.body 33 15 = true
      (16 ≤ s.mgt.attestWait.length → exec (.attestMessage false w) s = .next s) ∧
      (s.mgt.attestWait.length < 16 → good → exec (.attestMessage false w) s =
        .next { u with mgt := { u.mgt with attestWait := s.mgt.attestWait ++ [.message m] } }) ∧
      (s.mgt.attestWait.length < 16 → ¬ good → exec (.attestMessage false w) s = .next (u.answer m Status.BAD_PACKET))) ∧
    (s.takesMessage (fun x => x.type == 8) m u → ∀ ue : Bool,
      let part := m.field 0
      let o := m.field 1
      let n := m.field 2
      let size := if part = 0 then 0x100000 else 0x400000
      (n = 0 → exec (.calRead ue) s = .next (u.answer m Status.ZERO_FIELD)) ∧
      (0 < n → (1 < part ∨ 65536 < n ∨ size < o + n) → exec (.calRead ue) s = .next (u.answer m Status.BAD_PACKET)) ∧
      (0 < n → part ≤ 1 → n ≤ 65536 → o + n ≤ size → ∃ (w : State) (bs : List Byte), exec (.calRead ue) s = .next (w.answer m Status.OK bs) ∧
        bs.length = n ∧ (part = 1 → 0x10000 ≤ o → bs = (List.range n).map fun i =>
          tblGet 0xFF (s.hubMgt (if ue then 1 - s.mgt.active else s.mgt.active)).flash.user (o + i)) ∧
        (ue = false → w = { u with free := s.free + 1 }))) ∧
    (s.takesMessage (fun x => x.type == 9) m u →
      (m.body ≠ [] → exec .debugChallenge s = .next (u.answer m Status.BAD_PACKET)) ∧
      (m.body = [] → ∃ nonce : List Byte, nonce.length = 32 ∧ exec .debugChallenge s =
        .next (({ u with free := s.free + 4, mgt := { u.mgt with nonce := some nonce } } : State).answer m Status.OK nonce)))) ∧
  (∀ (s : State) (m : IkMsg) (rest : List AttestFor), s.mgt.attestWait = .message m :: rest → s.managed = true →
    let h := s.mgt.active
    let x := s.hubMgt h
    x.xmssNext < 2 ^ 40 → x.xmssNext < x.xmssEnd → ∀ w : Bool,
      ∃ u : State, exec (.attestMessage true w) s = .next (u.answer m Status.OK (u.reportHead h x.xmssNext (m.body.take 32) ++
          padTo 9893 (Config.xmssmtSign h x.xmssNext (u.reportHead h x.xmssNext (m.body.take 32))) ++
          if leAt m.body 32 1 = 1 then Config.certificate h else [])) ∧
        u.mgt.attestWait = rest ∧ (u.hubMgt h).xmssNext = x.xmssNext + 1 ∧ (u.hubMgt h).attests = min (x.attests + 1) 0xFFFFFFFF ∧
        u = { s with mgt := u.mgt })

/-- R431, R478, R479, R482 … R488, R492: CONTROL messages: which are accepted, and what each does. That a refused image is AUTH_FAIL, that a nonce
serves once and that the oldest CONTROL message goes first are the model's (logs 52 … 54). -/
def Obligations.controlServed : Prop :=
  (∀ x ∈ controlOps, ∀ s : State,
    (s.managed = false → exec x.2.2 s = .next s) ∧
    (takeFirst (fun (y : IkMsg) => controlType y.type) s.mgt.inbox = none → exec x.2.2 s = .next s) ∧
    (∀ m rest, s.managed = true → takeFirst (fun (y : IkMsg) => controlType y.type) s.mgt.inbox = some (m, rest) →
      ((m.type ≠ x.1 ∨ x.2.1 m = false) → exec x.2.2 s = .next s) ∧
      (m.type = x.1 → x.2.1 m = true → s.authentic m = false → s.mgt.active < 2 →
        ∃ w : State, exec x.2.2 s = .next (w.answer m Status.AUTH_FAIL) ∧ (w.reg (ra .MGT_ERR_STATUS s.mgt.active)).getLsbD 4 = true ∧
          w.mgt.counter = s.mgt.counter ∧ w.mgt.key = s.mgt.key ∧ w.mgt.otp = s.mgt.otp ∧ w.mgt.slots = s.mgt.slots ∧
          w.mgt.hubs = s.mgt.hubs ∧ w.mgt.update = s.mgt.update ∧ s.sameData w ∧ s.sameCompute w ∧ s.sameSafety w)) ∧
    (∀ m u, s.takesControl x.1 m u → x.2.1 m = true → s.activating = true → x.1 ∉ stopTypes →
      exec x.2.2 s = .next (u.answer m Status.NOT_READY))) ∧
  (∀ (s : State) (m : IkMsg) (k : List Byte), s.mgt.key = some k → s.authentic m = true →
    m.tagged = true ∧ kmac k m.covered = m.bytes.drop (m.bytes.length - 16) ∧ s.mgt.counter < m.counter) ∧
  (∀ (s : State) (m : IkMsg), s.mgt.key = none → s.authentic m = true → m.tagged = false ∧ ∃ p, m.via = .ring p) ∧
  (∀ (s u : State) (m : IkMsg), s.activating = false →
    (s.takesControl 0x10 m u →
      (m.body.length = 32 → exec .keySet s = .next (({ u with mgt := { u.mgt with key := some m.body } } : State).answer m Status.OK)) ∧
      (m.body.length ≠ 32 → exec .keySet s = .next (u.answer m Status.BAD_PACKET))) ∧
    (s.takesControl 0x11 m u →
      let o := m.field 0
      let bs := m.data
      (bs = [] → exec .calWrite s = .next (u.answer m Status.ZERO_FIELD)) ∧
      (bs ≠ [] → (o < 0x10000 ∨ 0x400000 < o + bs.length) → exec .calWrite s = .next (u.answer m Status.BAD_PACKET)) ∧
      (bs ≠ [] → 0x10000 ≤ o → o + bs.length ≤ 0x400000 → ∃ w : State, exec .calWrite s = .next (w.answer m Status.OK) ∧
        (∀ h : Fin 2, (s.link h).lost = false → ∀ a, tblGet 0xFF (w.hubMgt h).flash.user a =
          if o ≤ a ∧ a < o + bs.length then nth 0 bs (a - o) else tblGet 0xFF (s.hubMgt h).flash.user a) ∧ w = { u with mgt := w.mgt } ∧
        w.mgt = { u.mgt with hubs := w.mgt.hubs })) ∧
    (s.takesControl 0x12 m u →
      (m.body ≠ [] → exec .restoreFactory s = .next (u.answer m Status.BAD_PACKET)) ∧
      (m.body = [] → ∃ w : State, exec .restoreFactory s = .next (w.answer m Status.OK) ∧
        (∀ h : Fin 2, (s.link h).lost = false → (w.hubMgt h).flash.user = []) ∧ w.mgt.key = none ∧ w.mgt.counter = u.mgt.counter ∧
        (s.ledgerRoom → s.logged w .RESTORE_FACTORY 0xFF []) ∧ s.sameData w ∧ s.sameCompute w ∧ s.sameSafety w)) ∧
    (s.takesControl 0x13 m u →
      let k := m.field 0
      let n := m.field 1
      let b := !(s.slotRec k).activeB
      (n = 0 → exec .updateBegin s = .next (u.answer m Status.ZERO_FIELD)) ∧
      (0 < n → (kindOk k = false ∨ n < 4096 ∨ slotSize k < n) → exec .updateBegin s = .next (u.answer m Status.BAD_PACKET)) ∧
      (kindOk k = true → 4096 ≤ n → n ≤ slotSize k → ∃ w : State, exec .updateBegin s = .next (w.answer m Status.OK) ∧
        w.slotRec k = { activeB := (s.slotRec k).activeB, pending := false, attempts := 0, writing := some (0, n) } ∧
        w.mgt.update.phase = .WRITING ∧ w.mgt.update.kind = k ∧
        (∀ h : Fin 2, (k = 2 ∨ (s.link h).lost = false) → ∀ o c, w.slotRead h k b o c = List.replicate c 0xFF ∧
          w.slotRead h k (!b) o c = s.slotRead h k (!b) o c))) ∧
    (s.takesControl 0x14 m u →
      let k := m.field 0
      let o := m.field 1
      let bs := m.data
      let b := !(s.slotRec k).activeB
      (bs = [] → exec .updateData s = .next (u.answer m Status.ZERO_FIELD)) ∧
      (bs ≠ [] → kindOk k = false → exec .updateData s = .next (u.answer m Status.BAD_PACKET)) ∧
      (bs ≠ [] → kindOk k = true → (s.slotRec k).writing = none → exec .updateData s = .next (u.answer m Status.NOT_READY)) ∧
      (∀ done len, bs ≠ [] → kindOk k = true → (s.slotRec k).writing = some (done, len) →
        ((o < done ∨ len < o + bs.length) → exec .updateData s = .next (u.answer m Status.BAD_PACKET)) ∧
        (done ≤ o → o + bs.length ≤ len → ∃ w : State, exec .updateData s = .next (w.answer m Status.OK) ∧
          w.slotRec k = { s.slotRec k with writing := some (o + bs.length, len) } ∧
          ∀ h : Fin 2, (k = 2 ∨ (s.link h).lost = false) → w.slotRead h k b o bs.length = bs ∧
            ∀ a c, w.slotRead h k (!b) a c = s.slotRead h k (!b) a c))) ∧
    (s.takesControl 0x15 m u →
      let k := m.field 0
      let h := if k = 2 then 0 else s.mgt.active
      let why := s.imageFault h k (!(s.slotRec k).activeB)
      (kindOk k = false → exec .updateVerify s = .next (u.answer m Status.BAD_PACKET)) ∧
      (kindOk k = true → (s.slotRec k).writing = none → exec .updateVerify s = .next (u.answer m Status.NOT_READY)) ∧
      (kindOk k = true → (s.slotRec k).writing.isSome = true → why = none → ∃ w : State,
        exec .updateVerify s = .next (w.answer m Status.OK) ∧
        w.slotRec k = { activeB := (s.slotRec k).activeB, pending := true, attempts := 1, writing := none } ∧
        w.mgt.update.phase = .VERIFIED ∧ w = { u with mgt := w.mgt }) ∧
      (∀ y, kindOk k = true → (s.slotRec k).writing.isSome = true → why = some y → s.mgt.active < 2 → ∃ w : State,
        exec .updateVerify s = .next (w.answer m Status.AUTH_FAIL) ∧ w.mgt.slots = s.mgt.slots ∧
        (w.reg (ra .SEC_ERR_STATUS s.mgt.active)).getLsbD (if y = 5 then 1 else 0) = true ∧ s.sameData w ∧ s.sameCompute w)) ∧
    (s.takesControl 0x16 m u →
      (m.scope ≠ 1 → m.scope ≠ 2 → m.scope ≠ 3 → exec .updateActivateTdies s = .next (u.answer m Status.BAD_PACKET)) ∧
      (m.scope = 1 → u.tdiesRefused = true → exec .updateActivateTdies s = .next (u.answer m Status.NOT_READY)) ∧
      (∀ d, m.scope = 1 → u.tdiesRefused = false → s.liveTdies.head? = some d → ∃ w : State,
        exec .updateActivateTdies s = .next (w.answer m Status.OK) ∧ w.mgt.update.phase = .ACTIVATING ∧ w.mgt.update.scope = 1 ∧
        w.mgt.update.unit = d ∧ w.mgt.update.step = 1 ∧ w.dieFenced d = true ∧ (w.slotRec 3).attempts = 0) ∧
      (m.scope = 2 → ((s.slotRec 2).pending = false ∨ (s.lantern 1).run ≠ .RUNNING) →
        exec .updateActivateLanterns s = .next (u.answer m Status.NOT_READY)) ∧
      (m.scope = 2 → (s.slotRec 2).pending = true → (s.lantern 1).run = .RUNNING → ∃ w : State,
        exec .updateActivateLanterns s = .next (w.answer m Status.OK) ∧ (w.lantern 0).run = .UPDATING ∧ w.lantern 1 = s.lantern 1 ∧
        (0, s.now) ∈ w.recovery.lanRestarts ∧ w.mgt.update.phase = .ACTIVATING ∧ w.mgt.update.scope = 2 ∧ w.mgt.update.unit = 8 ∧
        s.sameData w ∧ s.sameCompute w ∧ s.sameSensing w ∧ s.sameHost w) ∧
      (m.scope = 3 → s.mirror.twin ≠ .ALIVE → m.field 1 = 0 → exec .updateActivateHubs s = .next (u.answer m Status.NOT_READY)) ∧
      (m.scope = 3 → (s.mirror.twin = .ALIVE ∨ m.field 1 ≠ 0) → s.recovery.phase = .running → ∃ t, exec .updateActivateHubs s = .next t ∧
        t.recovery.phase = .warmRequested ∧ t.recovery.requester = 4 ∧ t.mgt.update.phase = .ACTIVATING ∧ t.mgt.update.scope = 3 ∧
        ∀ l : Fin 2, (s.lantern l).works = true → (t.lantern l).fault = true ∧ causePlanned ∈ (t.lantern l).causes ∧
          ∃ x ∈ t.recovery.down, x.1 = l.val)) ∧
    (s.takesControl 0x17 m u →
      let k := m.field 0
      (kindOk k = false → exec .updateCommit s = .next (u.answer m Status.BAD_PACKET)) ∧
      (kindOk k = true → (s.slotRec k).pending = true → exec .updateCommit s = .next (u.answer m Status.NOT_READY)) ∧
      (kindOk k = true → (s.slotRec k).pending = false →
        let hd := s.slotRead (if k = 2 then 0 else s.mgt.active) k (s.slotRec k).activeB 0 4096
        ∃ (w : State) (bs : List Byte), exec .updateCommit s = .next (w.answer m Status.OK bs) ∧
          tblGet 0 w.mgt.otp.floors k = max (tblGet 0 s.mgt.otp.floors k) (min 128 (leAt hd 12 1)) ∧
          (∀ j : Nat, j ≠ k → tblGet 0 w.mgt.otp.floors j = tblGet 0 s.mgt.otp.floors j) ∧
          (∀ x, x ∈ w.mgt.otp.revoked ↔ x ∈ s.mgt.otp.revoked ∨ (k = 1 ∧ x < 4 ∧ bitN (leAt hd 6 1) x = true)) ∧
          w.mgt.otp.debugged = s.mgt.otp.debugged ∧ w.mgt.otp.ordering = s.mgt.otp.ordering ∧ w = { u with mgt := w.mgt })) ∧
    (s.takesControl 0x1A m u →
      (s.mgt.otp.ordering ≠ 1 → ∃ w : State, exec .debugUnlock s = .next (w.answer m Status.OK) ∧ w.mgt.otp.debugged = true ∧
        (s.tokenOk m.body = false → w.mgt.scopes = s.mgt.scopes) ∧ (∀ l : Fin 2, w.promiseHolds l = false)) ∧
      (s.mgt.otp.ordering = 1 → s.tokenOk m.body = true → ∃ w : State, exec .debugUnlock s = .next (w.answer m Status.OK) ∧
        w.mgt.otp.debugged = true ∧ w.mgt.scopes = Nat.lor s.mgt.scopes (leAt m.body 4 4) ∧ (∀ l : Fin 2, w.promiseHolds l = false)) ∧
      (s.mgt.otp.ordering = 1 → s.tokenOk m.body = false → s.mgt.active < 2 → ∃ w : State,
        exec .debugUnlock s = .next (w.answer m Status.AUTH_FAIL) ∧ w.mgt.otp = s.mgt.otp ∧ w.mgt.scopes = s.mgt.scopes ∧
        w.mgt.nonce = none ∧ (w.reg (ra .SEC_ERR_STATUS s.mgt.active)).getLsbD 4 = true))) ∧
  (∀ (s u : State) (m : IkMsg),
    (s.takesControl 0x18 m u →
      (m.body ≠ [] → exec .reset s = .next (u.answer m Status.BAD_PACKET)) ∧
      (m.body = [] → s.recovery.phase = .running → ∃ t, exec .reset s = .next t ∧ t.recovery.phase = .warmRequested ∧
        t.recovery.requester = 3 ∧ t.recovery.requestedAt = s.now ∧ t.mgt.otp = s.mgt.otp) ∧
      (m.body = [] → s.recovery.phase ≠ .running → exec .reset s = .next (u.answer m Status.OK))) ∧
    (s.takesControl 0x19 m u →
      (m.body ≠ [] → exec .plannedStop s = .next (u.answer m Status.BAD_PACKET)) ∧
      (m.body = [] → ∃ t, exec .plannedStop s = .next t ∧ t.recovery.phase = s.recovery.phase ∧
        (∀ l : Fin 2, (s.lantern l).works = true → (t.lantern l).fault = true ∧ causePlanned ∈ (t.lantern l).causes ∧
          (causePlanned ∉ (s.lantern l).causes → (t.lantern l).active = true) ∧ ∃ x ∈ t.recovery.down, x.1 = l.val) ∧
        s.sameData t ∧ s.sameCompute t ∧ s.sameSensing t)))

/-! ### The whole machine -/

/-- The block's step: the command at the front of the queue runs on the state with the queue's rest; on an empty queue 1 µs of the model's clock
passes and nothing else (log 1). -/
def Obligations.stepRunsCommand : Prop :=
  (∀ (c : Instr) (s : State), step { s with pending := c :: s.pending } = exec c s) ∧
  (∀ (c : Instr) (rest : List Instr) (s : State), s.pending = c :: rest → step s = exec c { s with pending := rest }) ∧
  (∀ s : State, s.pending = [] → step s = .next { s with now := s.now + 1 })

/-- What reset leaves that the manual states: no command waits, PORST_N is low, both lanterns are in RESET with FAULT asserted, nothing is locked, the
host is not ready, no graph is loaded, the debugged flag is clear, no byte of memory has been written; the invariant holds. -/
def Obligations.resetHolds : Prop :=
  State.reset.pending = [] ∧ State.reset.pins.porst = false ∧ (∀ l : Fin 2, (State.reset.lantern l).run = .RESET ∧
    (State.reset.lantern l).fault = true) ∧ State.reset.hif.locked = false ∧ State.reset.hif.hostReady = false ∧
  State.reset.graphs.graphs = [] ∧ State.reset.mgt.otp.debugged = false ∧ State.reset.mem = [] ∧
  (∀ c : Fin 32, (State.reset.core c).run = .RESET) ∧ Memory.wf State.reset.mem = true ∧ ∀ h, State.reset.sampleIds h

/-- The invariant: device memory keeps its canonical form, and the samples of each hub keep identities of their own (R286, R290). -/
def Obligations.invariantKept : Prop :=
  ∀ s t : State, Memory.wf s.mem = true → (∀ h, s.sampleIds h) → step s = .next t → Memory.wf t.mem = true ∧ ∀ h, t.sampleIds h

/-- R3: the first debug unlock of an AE32-AQ sets the debugged flag, no step clears it, and from then on no lantern's promise holds. Beside it: no step
changes the ordering code, gives a revoked key slot back or lowers a rollback floor. -/
def Obligations.otpGoesOneWay : Prop :=
  (∀ (s u : State) (m : IkMsg), s.takesControl 0x1A m u → s.activating = false → s.mgt.otp.ordering = 1 → s.tokenOk m.body = true →
    ∃ t, exec .debugUnlock s = .next t ∧ t.mgt.otp.debugged = true) ∧
  (∀ s t : State, step s = .next t → s.otpKept t) ∧
  (∀ s : State, s.mgt.otp.debugged = true → ∀ l, s.promiseHolds l = false)

/-- No command is refused; the one command that can stop is an SQ_FETCH whose operands spell no packet of R252 (the model's own, log 58); and no
command touches the queue of waiting commands or the model's clock. -/
def Obligations.commandsRun : Prop :=
  (∀ (c : Instr) (s : State) (r : Refusal), exec c s ≠ .refused r) ∧
  (∀ (c : Instr) (s : State) (f : Fault), exec c s = .fault f ↔
    ∃ link sq header payload hw, c = .sqFetch link sq header payload hw ∧ f = .malformedHeader ∧
      ¬ (header.length = 64 ∧ payload.length = 64 * leAt header 2 2)) ∧
  (∀ (c : Instr) (s t : State), exec c s = .next t → s.sameQueue t)
end

