-- ==== Sys2Proof/Laws/Tables.lean ====
section
/-! SUPPORT. Laws of the sparse tables and of memory: a read after a write, and the canonical form. -/

namespace Sys2Proof.Machine

variable {α : Type}

/-! ### Read after write -/

@[simp] theorem tblGet_nil (d : α) (k : Nat) : tblGet d [] k = d := rfl

theorem tblGet_drop_same (d : α) (t : Tbl α) (k : Nat) : tblGet d (tblDrop t k) k = d := by
  induction t with
  | nil => rfl
  | cons e r ih =>
    obtain ⟨k', w⟩ := e
    by_cases h : k' = k
    · simp [tblDrop, h, ih]
    · simp [tblDrop, h, tblGet, ih, Ne.symm h]

theorem tblGet_drop_ne (d : α) (t : Tbl α) (k j : Nat) (h : j ≠ k) : tblGet d (tblDrop t k) j = tblGet d t j := by
  induction t with
  | nil => rfl
  | cons e r ih =>
    obtain ⟨k', w⟩ := e
    by_cases h' : k' = k
    · simp [tblDrop, h', tblGet, ih, h]
    · simp [tblDrop, h', tblGet, ih]

theorem tblGet_put_same (d : α) (t : Tbl α) (k : Nat) (v : α) : tblGet d (tblPut (tblDrop t k) k v) k = v := by
  induction t with
  | nil => simp [tblDrop, tblPut, tblGet]
  | cons e r ih =>
    obtain ⟨k', w⟩ := e
    by_cases h' : k' = k
    · simp [tblDrop, h', ih]
    · by_cases h : k < k'
      · simp [tblDrop, h', tblPut, h, tblGet]
      · simp [tblDrop, h', tblPut, h, tblGet, Ne.symm h', ih]

theorem tblGet_put_ne (d : α) (t : Tbl α) (k j : Nat) (v : α) (h : j ≠ k) : tblGet d (tblPut t k v) j = tblGet d t j := by
  induction t with
  | nil => simp [tblPut, tblGet, h]
  | cons e r ih =>
    obtain ⟨k', w⟩ := e
    by_cases h' : k < k'
    · simp [tblPut, h', tblGet, h]
    · simp [tblPut, h', tblGet, ih]

/-- A read after a write of any table: the written value at its key, the old value elsewhere. -/
@[simp] theorem tblGet_set [DecidableEq α] (d : α) (t : Tbl α) (k j : Nat) (v : α) :
    tblGet d (tblSet d t k v) j = if j = k then v else tblGet d t j := by
  unfold tblSet
  by_cases hj : j = k
  · subst hj
    split
    · rename_i h; simp [tblGet_drop_same, h]
    · simp [tblGet_put_same]
  · split
    · simp [tblGet_drop_ne _ _ _ _ hj]
    · simp [tblGet_put_ne _ _ _ _ _ hj, tblGet_drop_ne _ _ _ _ hj]

@[simp] theorem tblGet_mod [DecidableEq α] (d : α) (t : Tbl α) (k j : Nat) (f : α → α) :
    tblGet d (tblMod d t k f) j = if j = k then f (tblGet d t k) else tblGet d t j := by
  simp [tblMod]

/-- A read after a write of consecutive keys. -/
theorem tblGet_setList [DecidableEq α] (d : α) (t : Tbl α) (k : Nat) (vs : List α) (j : Nat) :
    tblGet d (tblSetList d t k vs) j = if k ≤ j ∧ j < k + vs.length then vs.getD (j - k) d else tblGet d t j := by
  induction vs generalizing t k with
  | nil => simp only [tblSetList, List.length_nil]; rw [if_neg (by omega)]
  | cons v r ih =>
    simp only [tblSetList, ih, tblGet_set, List.length_cons]
    by_cases h1 : j = k
    · subst h1; rw [if_neg (by omega), if_pos rfl, if_pos (by omega)]; simp
    · by_cases h2 : k + 1 ≤ j ∧ j < k + 1 + r.length
      · rw [if_pos h2, if_pos (by omega)]
        obtain ⟨n, hn⟩ : ∃ n, j - k = n + 1 := ⟨j - k - 1, by omega⟩
        rw [hn, List.getD_cons_succ]; congr 1; omega
      · rw [if_neg h2, if_neg h1, if_neg (by omega)]

/-! ### The canonical form -/

theorem tblAbove_drop (t : Tbl α) (k j : Nat) (h : tblAbove j t = true) : tblAbove j (tblDrop t k) = true := by
  induction t with
  | nil => exact h
  | cons e r ih =>
    obtain ⟨k', w⟩ := e
    simp only [tblAbove, List.all_cons, Bool.and_eq_true] at h ih ⊢
    by_cases h' : k' = k
    · simpa [tblDrop, h'] using ih h.2
    · simp only [tblDrop, h', if_false, List.all_cons, Bool.and_eq_true]
      exact ⟨h.1, ih h.2⟩

theorem tblAbove_put (t : Tbl α) (k j : Nat) (v : α) (hk : j < k) (h : tblAbove j t = true) : tblAbove j (tblPut t k v) = true := by
  induction t with
  | nil => simp [tblPut, tblAbove, hk]
  | cons e r ih =>
    obtain ⟨k', w⟩ := e
    simp only [tblAbove, List.all_cons, Bool.and_eq_true, decide_eq_true_eq] at h ih
    by_cases h' : k < k'
    · simp only [tblPut, h', if_true, tblAbove, List.all_cons, Bool.and_eq_true, decide_eq_true_eq]
      exact ⟨hk, h.1, h.2⟩
    · simp only [tblPut, h', if_false, tblAbove, List.all_cons, Bool.and_eq_true, decide_eq_true_eq]
      exact ⟨h.1, ih h.2⟩

theorem tblAbove_mono (t : Tbl α) (j k : Nat) (hjk : j ≤ k) (h : tblAbove k t = true) : tblAbove j t = true := by
  simp only [tblAbove, List.all_eq_true, decide_eq_true_eq] at h ⊢
  intro e he; have := h e he; omega

theorem tblWf_drop [DecidableEq α] (d : α) (t : Tbl α) (k : Nat) (h : tblWf d t = true) : tblWf d (tblDrop t k) = true := by
  induction t with
  | nil => exact h
  | cons e r ih =>
    obtain ⟨k', w⟩ := e
    simp only [tblWf, Bool.and_eq_true] at h
    by_cases h' : k' = k
    · simpa [tblDrop, h'] using ih h.2
    · simp only [tblDrop, h', if_false, tblWf, Bool.and_eq_true]
      exact ⟨⟨h.1.1, tblAbove_drop r k k' h.1.2⟩, ih h.2⟩

theorem tblWf_put [DecidableEq α] (d : α) (t : Tbl α) (k : Nat) (v : α) (hv : v ≠ d) (hk : ∀ w, (k, w) ∉ t)
    (h : tblWf d t = true) : tblWf d (tblPut t k v) = true := by
  induction t with
  | nil => simp [tblPut, tblWf, hv, tblAbove]
  | cons e r ih =>
    obtain ⟨k', w⟩ := e
    simp only [tblWf, Bool.and_eq_true] at h
    by_cases h' : k < k'
    · simp only [tblPut, h', if_true, tblWf, Bool.and_eq_true, decide_eq_true_eq]
      refine ⟨⟨hv, ?_⟩, by simpa using h⟩
      simp only [tblAbove, List.all_cons, Bool.and_eq_true, decide_eq_true_eq]
      exact ⟨h', tblAbove_mono r k k' (by omega) h.1.2⟩
    · have hne : k' ≠ k := by rintro rfl; exact hk w (by simp)
      simp only [tblPut, h', if_false, tblWf, Bool.and_eq_true]
      refine ⟨⟨h.1.1, tblAbove_put r k k' v (by omega) h.1.2⟩, ih ?_ h.2⟩
      intro w' hw'; exact hk w' (by simp [hw'])

theorem not_mem_drop (t : Tbl α) (k : Nat) (w : α) : (k, w) ∉ tblDrop t k := by
  induction t with
  | nil => simp [tblDrop]
  | cons e r ih =>
    obtain ⟨k', w'⟩ := e
    by_cases h' : k' = k
    · simpa [tblDrop, h'] using ih
    · simp only [tblDrop, h', if_false, List.mem_cons, Prod.mk.injEq, not_or, not_and]
      exact ⟨fun h => absurd h.symm h', ih⟩

/-- A write keeps the canonical form. -/
theorem tblWf_set [DecidableEq α] (d : α) (t : Tbl α) (k : Nat) (v : α) (h : tblWf d t = true) : tblWf d (tblSet d t k v) = true := by
  unfold tblSet
  split
  · exact tblWf_drop d t k h
  · rename_i hv
    exact tblWf_put d _ k v hv (not_mem_drop t k) (tblWf_drop d t k h)

theorem tblWf_mod [DecidableEq α] (d : α) (t : Tbl α) (k : Nat) (f : α → α) (h : tblWf d t = true) : tblWf d (tblMod d t k f) = true :=
  tblWf_set d t k _ h

theorem tblWf_setList [DecidableEq α] (d : α) (t : Tbl α) (k : Nat) (vs : List α) (h : tblWf d t = true) :
    tblWf d (tblSetList d t k vs) = true := by
  induction vs generalizing t k with
  | nil => exact h
  | cons v r ih => exact ih _ _ (tblWf_set d t k v h)

theorem tblWf_filter [DecidableEq α] (d : α) (t : Tbl α) (p : Nat × α → Bool) (h : tblWf d t = true) : tblWf d (t.filter p) = true := by
  induction t with
  | nil => exact h
  | cons e r ih =>
    obtain ⟨k', w⟩ := e
    simp only [tblWf, Bool.and_eq_true] at h
    by_cases hp : p (k', w) = true
    · rw [List.filter_cons_of_pos hp]
      simp only [tblWf, Bool.and_eq_true]
      refine ⟨⟨h.1.1, ?_⟩, ih h.2⟩
      have hr := h.1.2
      simp only [tblAbove, List.all_eq_true, decide_eq_true_eq] at hr ⊢
      intro e he; exact hr e (List.mem_filter.mp he).1
    · rw [List.filter_cons_of_neg hp]; exact ih h.2

/-! ### Memory -/

/-- A byte read after a write of bytes. -/
theorem memGet_write (m : Tbl Byte) (a j : Nat) (bs : List Byte) :
    memGet (memWrite m a bs) j = if a ≤ j ∧ j < a + bs.length then bs.getD (j - a) unlistedByte else memGet m j :=
  tblGet_setList _ _ _ _ _

theorem memGet_set (m : Tbl Byte) (a j : Nat) (b : Byte) : memGet (memSet m a b) j = if j = a then b else memGet m j :=
  tblGet_set _ _ _ _ _

/-- Every write keeps memory in its canonical form. -/
theorem memWrite_wf (m : Tbl Byte) (a : Nat) (bs : List Byte) (h : Memory.wf m = true) : Memory.wf (memWrite m a bs) = true :=
  tblWf_setList _ _ _ _ h
theorem memSet_wf (m : Tbl Byte) (a : Nat) (b : Byte) (h : Memory.wf m = true) : Memory.wf (memSet m a b) = true :=
  tblWf_set _ _ _ _ h
theorem memFilter_wf (m : Tbl Byte) (p : Nat × Byte → Bool) (h : Memory.wf m = true) : Memory.wf (m.filter p) = true :=
  tblWf_filter _ _ _ h

/-- Bytes read back after they are written. -/
theorem memRead_write (m : Tbl Byte) (a : Nat) (bs : List Byte) : memRead (memWrite m a bs) a bs.length = bs := by
  apply List.ext_getElem
  · simp [memRead, tblGetList]
  · intro i h1 h2
    simp only [memRead, tblGetList, List.getElem_map, List.getElem_range]
    have := memGet_write m a (a + i) bs
    simp only [memGet] at this
    rw [this, if_pos (by omega)]
    simp [List.getD_eq_getElem?_getD, h2]

/-- A read after the entries with keys outside `p` have been dropped. -/
theorem tblGet_filter (d : α) (t : Tbl α) (p : Nat → Bool) (k : Nat) :
    tblGet d (t.filter fun e => p e.1) k = if p k = true then tblGet d t k else d := by
  induction t with
  | nil => simp
  | cons e r ih =>
    obtain ⟨j, v⟩ := e
    by_cases hj : p j = true
    · rw [List.filter_cons_of_pos (by exact hj), tblGet, tblGet, ih]
      by_cases h : k = j
      · subst h; simp [hj]
      · simp [h]
    · rw [List.filter_cons_of_neg (by simpa using hj), ih, tblGet]
      by_cases h : k = j
      · subst h; simp [hj]
      · simp [h]

/-- A read after a run of updates at distinct keys, each from the value at its own key. -/
theorem tblGet_fold_range [DecidableEq α] (d : α) (key : Nat → Nat) (v : Nat → α → α) (m : Nat)
    (hk : ∀ i j, i < m → j < m → key i = key j → i = j) (t : Tbl α) :
    (∀ i, i < m → tblGet d ((List.range m).foldl (fun t i => tblSet d t (key i) (v i (tblGet d t (key i)))) t) (key i) =
      v i (tblGet d t (key i))) ∧
    ∀ x, (∀ i, i < m → x ≠ key i) →
      tblGet d ((List.range m).foldl (fun t i => tblSet d t (key i) (v i (tblGet d t (key i)))) t) x = tblGet d t x := by
  induction m with
  | zero => simp
  | succ m ih =>
    obtain ⟨h1, h2⟩ := ih fun i j a b => hk i j (by omega) (by omega)
    rw [List.range_succ, List.foldl_append]
    simp only [List.foldl_cons, List.foldl_nil, tblGet_set]
    constructor
    · intro i hi
      by_cases e : i = m
      · subst e
        rw [if_pos rfl, h2]
        intro j hj he
        have := hk i j (by omega) (by omega) he
        omega
      · rw [if_neg, h1 i (by omega)]
        intro he
        have := hk i m (by omega) (by omega) he
        omega
    · intro x h
      rw [if_neg (h m (by omega)), h2]
      intro i hi
      exact h i (by omega)

/-- The same for rows of columns: `key r n` distinct for distinct pairs. -/
theorem tblGet_fold_rows [DecidableEq α] (d : α) (key : Nat → Nat → Nat) (v : Nat → Nat → α → α) (c m : Nat)
    (hk : ∀ r n r' n', r < m → n < c → r' < m → n' < c → key r n = key r' n' → r = r' ∧ n = n') (t : Tbl α) :
    let res := (List.range m).foldl (fun t r => (List.range c).foldl (fun t n =>
      tblSet d t (key r n) (v r n (tblGet d t (key r n)))) t) t
    (∀ r n, r < m → n < c → tblGet d res (key r n) = v r n (tblGet d t (key r n))) ∧
    ∀ x, (∀ r n, r < m → n < c → x ≠ key r n) → tblGet d res x = tblGet d t x := by
  induction m with
  | zero => simp
  | succ m ih =>
    obtain ⟨h1, h2⟩ := ih fun r n r' n' a b a' b' => hk r n r' n' (by omega) b (by omega) b'
    simp only [List.range_succ, List.foldl_append, List.foldl_cons, List.foldl_nil] at h1 h2 ⊢
    generalize (List.range m).foldl (fun t r => (List.range c).foldl (fun t n =>
      tblSet d t (key r n) (v r n (tblGet d t (key r n)))) t) t = u at h1 h2 ⊢
    obtain ⟨g1, g2⟩ := tblGet_fold_range d (key m) (v m) c (fun i j a b h => (hk m i m j (by omega) a (by omega) b h).2) u
    constructor
    · intro r n hr hn
      by_cases e : r = m
      · subst e
        rw [g1 n hn, h2]
        intro r' n' hr' hn' he
        have := (hk r n r' n' (by omega) hn (by omega) hn' he).1
        omega
      · rw [g2, h1 r n (by omega) hn]
        intro n' hn' he
        have := (hk r n m n' (by omega) hn (by omega) hn' he).1
        omega
    · intro x h
      rw [g2 x fun n hn => h m n (by omega) hn, h2 x fun r n hr hn => h r n (by omega) hn]

end Sys2Proof.Machine
end

