-- ==== Sys2Proof/Laws/State.lean ====
section
/-! SUPPORT. What each update of the state leaves alone: one lemma for each field and update, true by definition; and what a read
after an update gives. -/

namespace Sys2Proof.Machine

@[simp] theorem State.setReg_pending (s : State) (a : RegAddr) (v : Word) : (s.setReg a v).pending = s.pending := rfl
@[simp] theorem State.setReg_now (s : State) (a : RegAddr) (v : Word) : (s.setReg a v).now = s.now := rfl
@[simp] theorem State.setReg_free (s : State) (a : RegAddr) (v : Word) : (s.setReg a v).free = s.free := rfl
@[simp] theorem State.setReg_mem (s : State) (a : RegAddr) (v : Word) : (s.setReg a v).mem = s.mem := rfl
@[simp] theorem State.setReg_storePoison (s : State) (a : RegAddr) (v : Word) : (s.setReg a v).storePoison = s.storePoison := rfl
@[simp] theorem State.setReg_hbmPoison (s : State) (a : RegAddr) (v : Word) : (s.setReg a v).hbmPoison = s.hbmPoison := rfl
@[simp] theorem State.setReg_cores (s : State) (a : RegAddr) (v : Word) : (s.setReg a v).cores = s.cores := rfl
@[simp] theorem State.setReg_graphs (s : State) (a : RegAddr) (v : Word) : (s.setReg a v).graphs = s.graphs := rfl
@[simp] theorem State.setReg_cache (s : State) (a : RegAddr) (v : Word) : (s.setReg a v).cache = s.cache := rfl
@[simp] theorem State.setReg_hbm (s : State) (a : RegAddr) (v : Word) : (s.setReg a v).hbm = s.hbm := rfl
@[simp] theorem State.setReg_net (s : State) (a : RegAddr) (v : Word) : (s.setReg a v).net = s.net := rfl
@[simp] theorem State.setReg_hif (s : State) (a : RegAddr) (v : Word) : (s.setReg a v).hif = s.hif := rfl
@[simp] theorem State.setReg_sin (s : State) (a : RegAddr) (v : Word) : (s.setReg a v).sin = s.sin := rfl
@[simp] theorem State.setReg_aln (s : State) (a : RegAddr) (v : Word) : (s.setReg a v).aln = s.aln := rfl
@[simp] theorem State.setReg_pln (s : State) (a : RegAddr) (v : Word) : (s.setReg a v).pln = s.pln := rfl
@[simp] theorem State.setReg_lan (s : State) (a : RegAddr) (v : Word) : (s.setReg a v).lan = s.lan := rfl
@[simp] theorem State.setReg_recovery (s : State) (a : RegAddr) (v : Word) : (s.setReg a v).recovery = s.recovery := rfl
@[simp] theorem State.setReg_mirror (s : State) (a : RegAddr) (v : Word) : (s.setReg a v).mirror = s.mirror := rfl
@[simp] theorem State.setReg_thermal (s : State) (a : RegAddr) (v : Word) : (s.setReg a v).thermal = s.thermal := rfl
@[simp] theorem State.setReg_mgt (s : State) (a : RegAddr) (v : Word) : (s.setReg a v).mgt = s.mgt := rfl
@[simp] theorem State.setReg_pins (s : State) (a : RegAddr) (v : Word) : (s.setReg a v).pins = s.pins := rfl
@[simp] theorem State.setReg_outputs (s : State) (a : RegAddr) (v : Word) : (s.setReg a v).outputs = s.outputs := rfl

@[simp] theorem State.setField_pending (s : State) (a : RegAddr) (hi lo v : Nat) : (s.setField a hi lo v).pending = s.pending := rfl
@[simp] theorem State.setField_now (s : State) (a : RegAddr) (hi lo v : Nat) : (s.setField a hi lo v).now = s.now := rfl
@[simp] theorem State.setField_free (s : State) (a : RegAddr) (hi lo v : Nat) : (s.setField a hi lo v).free = s.free := rfl
@[simp] theorem State.setField_mem (s : State) (a : RegAddr) (hi lo v : Nat) : (s.setField a hi lo v).mem = s.mem := rfl
@[simp] theorem State.setField_storePoison (s : State) (a : RegAddr) (hi lo v : Nat) : (s.setField a hi lo v).storePoison = s.storePoison := rfl
@[simp] theorem State.setField_hbmPoison (s : State) (a : RegAddr) (hi lo v : Nat) : (s.setField a hi lo v).hbmPoison = s.hbmPoison := rfl
@[simp] theorem State.setField_cores (s : State) (a : RegAddr) (hi lo v : Nat) : (s.setField a hi lo v).cores = s.cores := rfl
@[simp] theorem State.setField_graphs (s : State) (a : RegAddr) (hi lo v : Nat) : (s.setField a hi lo v).graphs = s.graphs := rfl
@[simp] theorem State.setField_cache (s : State) (a : RegAddr) (hi lo v : Nat) : (s.setField a hi lo v).cache = s.cache := rfl
@[simp] theorem State.setField_hbm (s : State) (a : RegAddr) (hi lo v : Nat) : (s.setField a hi lo v).hbm = s.hbm := rfl
@[simp] theorem State.setField_net (s : State) (a : RegAddr) (hi lo v : Nat) : (s.setField a hi lo v).net = s.net := rfl
@[simp] theorem State.setField_hif (s : State) (a : RegAddr) (hi lo v : Nat) : (s.setField a hi lo v).hif = s.hif := rfl
@[simp] theorem State.setField_sin (s : State) (a : RegAddr) (hi lo v : Nat) : (s.setField a hi lo v).sin = s.sin := rfl
@[simp] theorem State.setField_aln (s : State) (a : RegAddr) (hi lo v : Nat) : (s.setField a hi lo v).aln = s.aln := rfl
@[simp] theorem State.setField_pln (s : State) (a : RegAddr) (hi lo v : Nat) : (s.setField a hi lo v).pln = s.pln := rfl
@[simp] theorem State.setField_lan (s : State) (a : RegAddr) (hi lo v : Nat) : (s.setField a hi lo v).lan = s.lan := rfl
@[simp] theorem State.setField_recovery (s : State) (a : RegAddr) (hi lo v : Nat) : (s.setField a hi lo v).recovery = s.recovery := rfl
@[simp] theorem State.setField_mirror (s : State) (a : RegAddr) (hi lo v : Nat) : (s.setField a hi lo v).mirror = s.mirror := rfl
@[simp] theorem State.setField_thermal (s : State) (a : RegAddr) (hi lo v : Nat) : (s.setField a hi lo v).thermal = s.thermal := rfl
@[simp] theorem State.setField_mgt (s : State) (a : RegAddr) (hi lo v : Nat) : (s.setField a hi lo v).mgt = s.mgt := rfl
@[simp] theorem State.setField_pins (s : State) (a : RegAddr) (hi lo v : Nat) : (s.setField a hi lo v).pins = s.pins := rfl
@[simp] theorem State.setField_outputs (s : State) (a : RegAddr) (hi lo v : Nat) : (s.setField a hi lo v).outputs = s.outputs := rfl

@[simp] theorem State.satReg_pending (s : State) (a : RegAddr) (n : Nat) : (s.satReg a n).pending = s.pending := rfl
@[simp] theorem State.satReg_now (s : State) (a : RegAddr) (n : Nat) : (s.satReg a n).now = s.now := rfl
@[simp] theorem State.satReg_free (s : State) (a : RegAddr) (n : Nat) : (s.satReg a n).free = s.free := rfl
@[simp] theorem State.satReg_mem (s : State) (a : RegAddr) (n : Nat) : (s.satReg a n).mem = s.mem := rfl
@[simp] theorem State.satReg_storePoison (s : State) (a : RegAddr) (n : Nat) : (s.satReg a n).storePoison = s.storePoison := rfl
@[simp] theorem State.satReg_hbmPoison (s : State) (a : RegAddr) (n : Nat) : (s.satReg a n).hbmPoison = s.hbmPoison := rfl
@[simp] theorem State.satReg_cores (s : State) (a : RegAddr) (n : Nat) : (s.satReg a n).cores = s.cores := rfl
@[simp] theorem State.satReg_graphs (s : State) (a : RegAddr) (n : Nat) : (s.satReg a n).graphs = s.graphs := rfl
@[simp] theorem State.satReg_cache (s : State) (a : RegAddr) (n : Nat) : (s.satReg a n).cache = s.cache := rfl
@[simp] theorem State.satReg_hbm (s : State) (a : RegAddr) (n : Nat) : (s.satReg a n).hbm = s.hbm := rfl
@[simp] theorem State.satReg_net (s : State) (a : RegAddr) (n : Nat) : (s.satReg a n).net = s.net := rfl
@[simp] theorem State.satReg_hif (s : State) (a : RegAddr) (n : Nat) : (s.satReg a n).hif = s.hif := rfl
@[simp] theorem State.satReg_sin (s : State) (a : RegAddr) (n : Nat) : (s.satReg a n).sin = s.sin := rfl
@[simp] theorem State.satReg_aln (s : State) (a : RegAddr) (n : Nat) : (s.satReg a n).aln = s.aln := rfl
@[simp] theorem State.satReg_pln (s : State) (a : RegAddr) (n : Nat) : (s.satReg a n).pln = s.pln := rfl
@[simp] theorem State.satReg_lan (s : State) (a : RegAddr) (n : Nat) : (s.satReg a n).lan = s.lan := rfl
@[simp] theorem State.satReg_recovery (s : State) (a : RegAddr) (n : Nat) : (s.satReg a n).recovery = s.recovery := rfl
@[simp] theorem State.satReg_mirror (s : State) (a : RegAddr) (n : Nat) : (s.satReg a n).mirror = s.mirror := rfl
@[simp] theorem State.satReg_thermal (s : State) (a : RegAddr) (n : Nat) : (s.satReg a n).thermal = s.thermal := rfl
@[simp] theorem State.satReg_mgt (s : State) (a : RegAddr) (n : Nat) : (s.satReg a n).mgt = s.mgt := rfl
@[simp] theorem State.satReg_pins (s : State) (a : RegAddr) (n : Nat) : (s.satReg a n).pins = s.pins := rfl
@[simp] theorem State.satReg_outputs (s : State) (a : RegAddr) (n : Nat) : (s.satReg a n).outputs = s.outputs := rfl

@[simp] theorem State.wrapReg_pending (s : State) (a : RegAddr) (n : Nat) : (s.wrapReg a n).pending = s.pending := rfl
@[simp] theorem State.wrapReg_now (s : State) (a : RegAddr) (n : Nat) : (s.wrapReg a n).now = s.now := rfl
@[simp] theorem State.wrapReg_free (s : State) (a : RegAddr) (n : Nat) : (s.wrapReg a n).free = s.free := rfl
@[simp] theorem State.wrapReg_mem (s : State) (a : RegAddr) (n : Nat) : (s.wrapReg a n).mem = s.mem := rfl
@[simp] theorem State.wrapReg_storePoison (s : State) (a : RegAddr) (n : Nat) : (s.wrapReg a n).storePoison = s.storePoison := rfl
@[simp] theorem State.wrapReg_hbmPoison (s : State) (a : RegAddr) (n : Nat) : (s.wrapReg a n).hbmPoison = s.hbmPoison := rfl
@[simp] theorem State.wrapReg_cores (s : State) (a : RegAddr) (n : Nat) : (s.wrapReg a n).cores = s.cores := rfl
@[simp] theorem State.wrapReg_graphs (s : State) (a : RegAddr) (n : Nat) : (s.wrapReg a n).graphs = s.graphs := rfl
@[simp] theorem State.wrapReg_cache (s : State) (a : RegAddr) (n : Nat) : (s.wrapReg a n).cache = s.cache := rfl
@[simp] theorem State.wrapReg_hbm (s : State) (a : RegAddr) (n : Nat) : (s.wrapReg a n).hbm = s.hbm := rfl
@[simp] theorem State.wrapReg_net (s : State) (a : RegAddr) (n : Nat) : (s.wrapReg a n).net = s.net := rfl
@[simp] theorem State.wrapReg_hif (s : State) (a : RegAddr) (n : Nat) : (s.wrapReg a n).hif = s.hif := rfl
@[simp] theorem State.wrapReg_sin (s : State) (a : RegAddr) (n : Nat) : (s.wrapReg a n).sin = s.sin := rfl
@[simp] theorem State.wrapReg_aln (s : State) (a : RegAddr) (n : Nat) : (s.wrapReg a n).aln = s.aln := rfl
@[simp] theorem State.wrapReg_pln (s : State) (a : RegAddr) (n : Nat) : (s.wrapReg a n).pln = s.pln := rfl
@[simp] theorem State.wrapReg_lan (s : State) (a : RegAddr) (n : Nat) : (s.wrapReg a n).lan = s.lan := rfl
@[simp] theorem State.wrapReg_recovery (s : State) (a : RegAddr) (n : Nat) : (s.wrapReg a n).recovery = s.recovery := rfl
@[simp] theorem State.wrapReg_mirror (s : State) (a : RegAddr) (n : Nat) : (s.wrapReg a n).mirror = s.mirror := rfl
@[simp] theorem State.wrapReg_thermal (s : State) (a : RegAddr) (n : Nat) : (s.wrapReg a n).thermal = s.thermal := rfl
@[simp] theorem State.wrapReg_mgt (s : State) (a : RegAddr) (n : Nat) : (s.wrapReg a n).mgt = s.mgt := rfl
@[simp] theorem State.wrapReg_pins (s : State) (a : RegAddr) (n : Nat) : (s.wrapReg a n).pins = s.pins := rfl
@[simp] theorem State.wrapReg_outputs (s : State) (a : RegAddr) (n : Nat) : (s.wrapReg a n).outputs = s.outputs := rfl

@[simp] theorem State.modLink_pending (s : State) (h : Nat) (f : LinkState → LinkState) : (s.modLink h f).pending = s.pending := rfl
@[simp] theorem State.modLink_now (s : State) (h : Nat) (f : LinkState → LinkState) : (s.modLink h f).now = s.now := rfl
@[simp] theorem State.modLink_free (s : State) (h : Nat) (f : LinkState → LinkState) : (s.modLink h f).free = s.free := rfl
@[simp] theorem State.modLink_regs (s : State) (h : Nat) (f : LinkState → LinkState) : (s.modLink h f).regs = s.regs := rfl
@[simp] theorem State.modLink_mem (s : State) (h : Nat) (f : LinkState → LinkState) : (s.modLink h f).mem = s.mem := rfl
@[simp] theorem State.modLink_storePoison (s : State) (h : Nat) (f : LinkState → LinkState) : (s.modLink h f).storePoison = s.storePoison := rfl
@[simp] theorem State.modLink_hbmPoison (s : State) (h : Nat) (f : LinkState → LinkState) : (s.modLink h f).hbmPoison = s.hbmPoison := rfl
@[simp] theorem State.modLink_cores (s : State) (h : Nat) (f : LinkState → LinkState) : (s.modLink h f).cores = s.cores := rfl
@[simp] theorem State.modLink_graphs (s : State) (h : Nat) (f : LinkState → LinkState) : (s.modLink h f).graphs = s.graphs := rfl
@[simp] theorem State.modLink_cache (s : State) (h : Nat) (f : LinkState → LinkState) : (s.modLink h f).cache = s.cache := rfl
@[simp] theorem State.modLink_hbm (s : State) (h : Nat) (f : LinkState → LinkState) : (s.modLink h f).hbm = s.hbm := rfl
@[simp] theorem State.modLink_net (s : State) (h : Nat) (f : LinkState → LinkState) : (s.modLink h f).net = s.net := rfl
@[simp] theorem State.modLink_sin (s : State) (h : Nat) (f : LinkState → LinkState) : (s.modLink h f).sin = s.sin := rfl
@[simp] theorem State.modLink_aln (s : State) (h : Nat) (f : LinkState → LinkState) : (s.modLink h f).aln = s.aln := rfl
@[simp] theorem State.modLink_pln (s : State) (h : Nat) (f : LinkState → LinkState) : (s.modLink h f).pln = s.pln := rfl
@[simp] theorem State.modLink_lan (s : State) (h : Nat) (f : LinkState → LinkState) : (s.modLink h f).lan = s.lan := rfl
@[simp] theorem State.modLink_recovery (s : State) (h : Nat) (f : LinkState → LinkState) : (s.modLink h f).recovery = s.recovery := rfl
@[simp] theorem State.modLink_mirror (s : State) (h : Nat) (f : LinkState → LinkState) : (s.modLink h f).mirror = s.mirror := rfl
@[simp] theorem State.modLink_thermal (s : State) (h : Nat) (f : LinkState → LinkState) : (s.modLink h f).thermal = s.thermal := rfl
@[simp] theorem State.modLink_mgt (s : State) (h : Nat) (f : LinkState → LinkState) : (s.modLink h f).mgt = s.mgt := rfl
@[simp] theorem State.modLink_pins (s : State) (h : Nat) (f : LinkState → LinkState) : (s.modLink h f).pins = s.pins := rfl
@[simp] theorem State.modLink_outputs (s : State) (h : Nat) (f : LinkState → LinkState) : (s.modLink h f).outputs = s.outputs := rfl

@[simp] theorem State.emit_pending (s : State) (o : Output) : (s.emit o).pending = s.pending := rfl
@[simp] theorem State.emit_now (s : State) (o : Output) : (s.emit o).now = s.now := rfl
@[simp] theorem State.emit_free (s : State) (o : Output) : (s.emit o).free = s.free := rfl
@[simp] theorem State.emit_regs (s : State) (o : Output) : (s.emit o).regs = s.regs := rfl
@[simp] theorem State.emit_mem (s : State) (o : Output) : (s.emit o).mem = s.mem := rfl
@[simp] theorem State.emit_storePoison (s : State) (o : Output) : (s.emit o).storePoison = s.storePoison := rfl
@[simp] theorem State.emit_hbmPoison (s : State) (o : Output) : (s.emit o).hbmPoison = s.hbmPoison := rfl
@[simp] theorem State.emit_cores (s : State) (o : Output) : (s.emit o).cores = s.cores := rfl
@[simp] theorem State.emit_graphs (s : State) (o : Output) : (s.emit o).graphs = s.graphs := rfl
@[simp] theorem State.emit_cache (s : State) (o : Output) : (s.emit o).cache = s.cache := rfl
@[simp] theorem State.emit_hbm (s : State) (o : Output) : (s.emit o).hbm = s.hbm := rfl
@[simp] theorem State.emit_net (s : State) (o : Output) : (s.emit o).net = s.net := rfl
@[simp] theorem State.emit_hif (s : State) (o : Output) : (s.emit o).hif = s.hif := rfl
@[simp] theorem State.emit_sin (s : State) (o : Output) : (s.emit o).sin = s.sin := rfl
@[simp] theorem State.emit_aln (s : State) (o : Output) : (s.emit o).aln = s.aln := rfl
@[simp] theorem State.emit_pln (s : State) (o : Output) : (s.emit o).pln = s.pln := rfl
@[simp] theorem State.emit_lan (s : State) (o : Output) : (s.emit o).lan = s.lan := rfl
@[simp] theorem State.emit_recovery (s : State) (o : Output) : (s.emit o).recovery = s.recovery := rfl
@[simp] theorem State.emit_mirror (s : State) (o : Output) : (s.emit o).mirror = s.mirror := rfl
@[simp] theorem State.emit_thermal (s : State) (o : Output) : (s.emit o).thermal = s.thermal := rfl
@[simp] theorem State.emit_mgt (s : State) (o : Output) : (s.emit o).mgt = s.mgt := rfl
@[simp] theorem State.emit_pins (s : State) (o : Output) : (s.emit o).pins = s.pins := rfl

@[simp] theorem State.modMc_pending (s : State) (n : Nat) (f : McState → McState) : (s.modMc n f).pending = s.pending := rfl
@[simp] theorem State.modMc_now (s : State) (n : Nat) (f : McState → McState) : (s.modMc n f).now = s.now := rfl
@[simp] theorem State.modMc_free (s : State) (n : Nat) (f : McState → McState) : (s.modMc n f).free = s.free := rfl
@[simp] theorem State.modMc_regs (s : State) (n : Nat) (f : McState → McState) : (s.modMc n f).regs = s.regs := rfl
@[simp] theorem State.modMc_mem (s : State) (n : Nat) (f : McState → McState) : (s.modMc n f).mem = s.mem := rfl
@[simp] theorem State.modMc_storePoison (s : State) (n : Nat) (f : McState → McState) : (s.modMc n f).storePoison = s.storePoison := rfl
@[simp] theorem State.modMc_hbmPoison (s : State) (n : Nat) (f : McState → McState) : (s.modMc n f).hbmPoison = s.hbmPoison := rfl
@[simp] theorem State.modMc_cores (s : State) (n : Nat) (f : McState → McState) : (s.modMc n f).cores = s.cores := rfl
@[simp] theorem State.modMc_graphs (s : State) (n : Nat) (f : McState → McState) : (s.modMc n f).graphs = s.graphs := rfl
@[simp] theorem State.modMc_cache (s : State) (n : Nat) (f : McState → McState) : (s.modMc n f).cache = s.cache := rfl
@[simp] theorem State.modMc_net (s : State) (n : Nat) (f : McState → McState) : (s.modMc n f).net = s.net := rfl
@[simp] theorem State.modMc_hif (s : State) (n : Nat) (f : McState → McState) : (s.modMc n f).hif = s.hif := rfl
@[simp] theorem State.modMc_sin (s : State) (n : Nat) (f : McState → McState) : (s.modMc n f).sin = s.sin := rfl
@[simp] theorem State.modMc_aln (s : State) (n : Nat) (f : McState → McState) : (s.modMc n f).aln = s.aln := rfl
@[simp] theorem State.modMc_pln (s : State) (n : Nat) (f : McState → McState) : (s.modMc n f).pln = s.pln := rfl
@[simp] theorem State.modMc_lan (s : State) (n : Nat) (f : McState → McState) : (s.modMc n f).lan = s.lan := rfl
@[simp] theorem State.modMc_recovery (s : State) (n : Nat) (f : McState → McState) : (s.modMc n f).recovery = s.recovery := rfl
@[simp] theorem State.modMc_mirror (s : State) (n : Nat) (f : McState → McState) : (s.modMc n f).mirror = s.mirror := rfl
@[simp] theorem State.modMc_thermal (s : State) (n : Nat) (f : McState → McState) : (s.modMc n f).thermal = s.thermal := rfl
@[simp] theorem State.modMc_mgt (s : State) (n : Nat) (f : McState → McState) : (s.modMc n f).mgt = s.mgt := rfl
@[simp] theorem State.modMc_pins (s : State) (n : Nat) (f : McState → McState) : (s.modMc n f).pins = s.pins := rfl
@[simp] theorem State.modMc_outputs (s : State) (n : Nat) (f : McState → McState) : (s.modMc n f).outputs = s.outputs := rfl

@[simp] theorem State.setCore_pending (s : State) (c : Nat) (x : CoreState) : (s.setCore c x).pending = s.pending := rfl
@[simp] theorem State.setCore_now (s : State) (c : Nat) (x : CoreState) : (s.setCore c x).now = s.now := rfl
@[simp] theorem State.setCore_free (s : State) (c : Nat) (x : CoreState) : (s.setCore c x).free = s.free := rfl
@[simp] theorem State.setCore_regs (s : State) (c : Nat) (x : CoreState) : (s.setCore c x).regs = s.regs := rfl
@[simp] theorem State.setCore_mem (s : State) (c : Nat) (x : CoreState) : (s.setCore c x).mem = s.mem := rfl
@[simp] theorem State.setCore_storePoison (s : State) (c : Nat) (x : CoreState) : (s.setCore c x).storePoison = s.storePoison := rfl
@[simp] theorem State.setCore_hbmPoison (s : State) (c : Nat) (x : CoreState) : (s.setCore c x).hbmPoison = s.hbmPoison := rfl
@[simp] theorem State.setCore_graphs (s : State) (c : Nat) (x : CoreState) : (s.setCore c x).graphs = s.graphs := rfl
@[simp] theorem State.setCore_cache (s : State) (c : Nat) (x : CoreState) : (s.setCore c x).cache = s.cache := rfl
@[simp] theorem State.setCore_hbm (s : State) (c : Nat) (x : CoreState) : (s.setCore c x).hbm = s.hbm := rfl
@[simp] theorem State.setCore_net (s : State) (c : Nat) (x : CoreState) : (s.setCore c x).net = s.net := rfl
@[simp] theorem State.setCore_hif (s : State) (c : Nat) (x : CoreState) : (s.setCore c x).hif = s.hif := rfl
@[simp] theorem State.setCore_sin (s : State) (c : Nat) (x : CoreState) : (s.setCore c x).sin = s.sin := rfl
@[simp] theorem State.setCore_aln (s : State) (c : Nat) (x : CoreState) : (s.setCore c x).aln = s.aln := rfl
@[simp] theorem State.setCore_pln (s : State) (c : Nat) (x : CoreState) : (s.setCore c x).pln = s.pln := rfl
@[simp] theorem State.setCore_lan (s : State) (c : Nat) (x : CoreState) : (s.setCore c x).lan = s.lan := rfl
@[simp] theorem State.setCore_recovery (s : State) (c : Nat) (x : CoreState) : (s.setCore c x).recovery = s.recovery := rfl
@[simp] theorem State.setCore_mirror (s : State) (c : Nat) (x : CoreState) : (s.setCore c x).mirror = s.mirror := rfl
@[simp] theorem State.setCore_thermal (s : State) (c : Nat) (x : CoreState) : (s.setCore c x).thermal = s.thermal := rfl
@[simp] theorem State.setCore_mgt (s : State) (c : Nat) (x : CoreState) : (s.setCore c x).mgt = s.mgt := rfl
@[simp] theorem State.setCore_pins (s : State) (c : Nat) (x : CoreState) : (s.setCore c x).pins = s.pins := rfl
@[simp] theorem State.setCore_outputs (s : State) (c : Nat) (x : CoreState) : (s.setCore c x).outputs = s.outputs := rfl

@[simp] theorem State.modCore_pending (s : State) (c : Nat) (f : CoreState → CoreState) : (s.modCore c f).pending = s.pending := rfl
@[simp] theorem State.modCore_now (s : State) (c : Nat) (f : CoreState → CoreState) : (s.modCore c f).now = s.now := rfl
@[simp] theorem State.modCore_free (s : State) (c : Nat) (f : CoreState → CoreState) : (s.modCore c f).free = s.free := rfl
@[simp] theorem State.modCore_regs (s : State) (c : Nat) (f : CoreState → CoreState) : (s.modCore c f).regs = s.regs := rfl
@[simp] theorem State.modCore_mem (s : State) (c : Nat) (f : CoreState → CoreState) : (s.modCore c f).mem = s.mem := rfl
@[simp] theorem State.modCore_storePoison (s : State) (c : Nat) (f : CoreState → CoreState) : (s.modCore c f).storePoison = s.storePoison := rfl
@[simp] theorem State.modCore_hbmPoison (s : State) (c : Nat) (f : CoreState → CoreState) : (s.modCore c f).hbmPoison = s.hbmPoison := rfl
@[simp] theorem State.modCore_graphs (s : State) (c : Nat) (f : CoreState → CoreState) : (s.modCore c f).graphs = s.graphs := rfl
@[simp] theorem State.modCore_cache (s : State) (c : Nat) (f : CoreState → CoreState) : (s.modCore c f).cache = s.cache := rfl
@[simp] theorem State.modCore_hbm (s : State) (c : Nat) (f : CoreState → CoreState) : (s.modCore c f).hbm = s.hbm := rfl
@[simp] theorem State.modCore_net (s : State) (c : Nat) (f : CoreState → CoreState) : (s.modCore c f).net = s.net := rfl
@[simp] theorem State.modCore_hif (s : State) (c : Nat) (f : CoreState → CoreState) : (s.modCore c f).hif = s.hif := rfl
@[simp] theorem State.modCore_sin (s : State) (c : Nat) (f : CoreState → CoreState) : (s.modCore c f).sin = s.sin := rfl
@[simp] theorem State.modCore_aln (s : State) (c : Nat) (f : CoreState → CoreState) : (s.modCore c f).aln = s.aln := rfl
@[simp] theorem State.modCore_pln (s : State) (c : Nat) (f : CoreState → CoreState) : (s.modCore c f).pln = s.pln := rfl
@[simp] theorem State.modCore_lan (s : State) (c : Nat) (f : CoreState → CoreState) : (s.modCore c f).lan = s.lan := rfl
@[simp] theorem State.modCore_recovery (s : State) (c : Nat) (f : CoreState → CoreState) : (s.modCore c f).recovery = s.recovery := rfl
@[simp] theorem State.modCore_mirror (s : State) (c : Nat) (f : CoreState → CoreState) : (s.modCore c f).mirror = s.mirror := rfl
@[simp] theorem State.modCore_thermal (s : State) (c : Nat) (f : CoreState → CoreState) : (s.modCore c f).thermal = s.thermal := rfl
@[simp] theorem State.modCore_mgt (s : State) (c : Nat) (f : CoreState → CoreState) : (s.modCore c f).mgt = s.mgt := rfl
@[simp] theorem State.modCore_pins (s : State) (c : Nat) (f : CoreState → CoreState) : (s.modCore c f).pins = s.pins := rfl
@[simp] theorem State.modCore_outputs (s : State) (c : Nat) (f : CoreState → CoreState) : (s.modCore c f).outputs = s.outputs := rfl

@[simp] theorem State.modIntake_pending (s : State) (h : Nat) (f : IntakeState → IntakeState) : (s.modIntake h f).pending = s.pending := rfl
@[simp] theorem State.modIntake_now (s : State) (h : Nat) (f : IntakeState → IntakeState) : (s.modIntake h f).now = s.now := rfl
@[simp] theorem State.modIntake_free (s : State) (h : Nat) (f : IntakeState → IntakeState) : (s.modIntake h f).free = s.free := rfl
@[simp] theorem State.modIntake_regs (s : State) (h : Nat) (f : IntakeState → IntakeState) : (s.modIntake h f).regs = s.regs := rfl
@[simp] theorem State.modIntake_mem (s : State) (h : Nat) (f : IntakeState → IntakeState) : (s.modIntake h f).mem = s.mem := rfl
@[simp] theorem State.modIntake_storePoison (s : State) (h : Nat) (f : IntakeState → IntakeState) : (s.modIntake h f).storePoison = s.storePoison := rfl
@[simp] theorem State.modIntake_hbmPoison (s : State) (h : Nat) (f : IntakeState → IntakeState) : (s.modIntake h f).hbmPoison = s.hbmPoison := rfl
@[simp] theorem State.modIntake_cores (s : State) (h : Nat) (f : IntakeState → IntakeState) : (s.modIntake h f).cores = s.cores := rfl
@[simp] theorem State.modIntake_graphs (s : State) (h : Nat) (f : IntakeState → IntakeState) : (s.modIntake h f).graphs = s.graphs := rfl
@[simp] theorem State.modIntake_cache (s : State) (h : Nat) (f : IntakeState → IntakeState) : (s.modIntake h f).cache = s.cache := rfl
@[simp] theorem State.modIntake_hbm (s : State) (h : Nat) (f : IntakeState → IntakeState) : (s.modIntake h f).hbm = s.hbm := rfl
@[simp] theorem State.modIntake_net (s : State) (h : Nat) (f : IntakeState → IntakeState) : (s.modIntake h f).net = s.net := rfl
@[simp] theorem State.modIntake_hif (s : State) (h : Nat) (f : IntakeState → IntakeState) : (s.modIntake h f).hif = s.hif := rfl
@[simp] theorem State.modIntake_aln (s : State) (h : Nat) (f : IntakeState → IntakeState) : (s.modIntake h f).aln = s.aln := rfl
@[simp] theorem State.modIntake_pln (s : State) (h : Nat) (f : IntakeState → IntakeState) : (s.modIntake h f).pln = s.pln := rfl
@[simp] theorem State.modIntake_lan (s : State) (h : Nat) (f : IntakeState → IntakeState) : (s.modIntake h f).lan = s.lan := rfl
@[simp] theorem State.modIntake_recovery (s : State) (h : Nat) (f : IntakeState → IntakeState) : (s.modIntake h f).recovery = s.recovery := rfl
@[simp] theorem State.modIntake_mirror (s : State) (h : Nat) (f : IntakeState → IntakeState) : (s.modIntake h f).mirror = s.mirror := rfl
@[simp] theorem State.modIntake_thermal (s : State) (h : Nat) (f : IntakeState → IntakeState) : (s.modIntake h f).thermal = s.thermal := rfl
@[simp] theorem State.modIntake_mgt (s : State) (h : Nat) (f : IntakeState → IntakeState) : (s.modIntake h f).mgt = s.mgt := rfl
@[simp] theorem State.modIntake_pins (s : State) (h : Nat) (f : IntakeState → IntakeState) : (s.modIntake h f).pins = s.pins := rfl
@[simp] theorem State.modIntake_outputs (s : State) (h : Nat) (f : IntakeState → IntakeState) : (s.modIntake h f).outputs = s.outputs := rfl

@[simp] theorem State.modLantern_pending (s : State) (l : Nat) (f : Lantern → Lantern) : (s.modLantern l f).pending = s.pending := rfl
@[simp] theorem State.modLantern_now (s : State) (l : Nat) (f : Lantern → Lantern) : (s.modLantern l f).now = s.now := rfl
@[simp] theorem State.modLantern_free (s : State) (l : Nat) (f : Lantern → Lantern) : (s.modLantern l f).free = s.free := rfl
@[simp] theorem State.modLantern_regs (s : State) (l : Nat) (f : Lantern → Lantern) : (s.modLantern l f).regs = s.regs := rfl
@[simp] theorem State.modLantern_mem (s : State) (l : Nat) (f : Lantern → Lantern) : (s.modLantern l f).mem = s.mem := rfl
@[simp] theorem State.modLantern_storePoison (s : State) (l : Nat) (f : Lantern → Lantern) : (s.modLantern l f).storePoison = s.storePoison := rfl
@[simp] theorem State.modLantern_hbmPoison (s : State) (l : Nat) (f : Lantern → Lantern) : (s.modLantern l f).hbmPoison = s.hbmPoison := rfl
@[simp] theorem State.modLantern_cores (s : State) (l : Nat) (f : Lantern → Lantern) : (s.modLantern l f).cores = s.cores := rfl
@[simp] theorem State.modLantern_graphs (s : State) (l : Nat) (f : Lantern → Lantern) : (s.modLantern l f).graphs = s.graphs := rfl
@[simp] theorem State.modLantern_cache (s : State) (l : Nat) (f : Lantern → Lantern) : (s.modLantern l f).cache = s.cache := rfl
@[simp] theorem State.modLantern_hbm (s : State) (l : Nat) (f : Lantern → Lantern) : (s.modLantern l f).hbm = s.hbm := rfl
@[simp] theorem State.modLantern_net (s : State) (l : Nat) (f : Lantern → Lantern) : (s.modLantern l f).net = s.net := rfl
@[simp] theorem State.modLantern_hif (s : State) (l : Nat) (f : Lantern → Lantern) : (s.modLantern l f).hif = s.hif := rfl
@[simp] theorem State.modLantern_sin (s : State) (l : Nat) (f : Lantern → Lantern) : (s.modLantern l f).sin = s.sin := rfl
@[simp] theorem State.modLantern_aln (s : State) (l : Nat) (f : Lantern → Lantern) : (s.modLantern l f).aln = s.aln := rfl
@[simp] theorem State.modLantern_pln (s : State) (l : Nat) (f : Lantern → Lantern) : (s.modLantern l f).pln = s.pln := rfl
@[simp] theorem State.modLantern_recovery (s : State) (l : Nat) (f : Lantern → Lantern) : (s.modLantern l f).recovery = s.recovery := rfl
@[simp] theorem State.modLantern_mirror (s : State) (l : Nat) (f : Lantern → Lantern) : (s.modLantern l f).mirror = s.mirror := rfl
@[simp] theorem State.modLantern_thermal (s : State) (l : Nat) (f : Lantern → Lantern) : (s.modLantern l f).thermal = s.thermal := rfl
@[simp] theorem State.modLantern_mgt (s : State) (l : Nat) (f : Lantern → Lantern) : (s.modLantern l f).mgt = s.mgt := rfl
@[simp] theorem State.modLantern_pins (s : State) (l : Nat) (f : Lantern → Lantern) : (s.modLantern l f).pins = s.pins := rfl
@[simp] theorem State.modLantern_outputs (s : State) (l : Nat) (f : Lantern → Lantern) : (s.modLantern l f).outputs = s.outputs := rfl

@[simp] theorem State.modHubMgt_pending (s : State) (h : Nat) (f : HubMgt → HubMgt) : (s.modHubMgt h f).pending = s.pending := rfl
@[simp] theorem State.modHubMgt_now (s : State) (h : Nat) (f : HubMgt → HubMgt) : (s.modHubMgt h f).now = s.now := rfl
@[simp] theorem State.modHubMgt_free (s : State) (h : Nat) (f : HubMgt → HubMgt) : (s.modHubMgt h f).free = s.free := rfl
@[simp] theorem State.modHubMgt_regs (s : State) (h : Nat) (f : HubMgt → HubMgt) : (s.modHubMgt h f).regs = s.regs := rfl
@[simp] theorem State.modHubMgt_mem (s : State) (h : Nat) (f : HubMgt → HubMgt) : (s.modHubMgt h f).mem = s.mem := rfl
@[simp] theorem State.modHubMgt_storePoison (s : State) (h : Nat) (f : HubMgt → HubMgt) : (s.modHubMgt h f).storePoison = s.storePoison := rfl
@[simp] theorem State.modHubMgt_hbmPoison (s : State) (h : Nat) (f : HubMgt → HubMgt) : (s.modHubMgt h f).hbmPoison = s.hbmPoison := rfl
@[simp] theorem State.modHubMgt_cores (s : State) (h : Nat) (f : HubMgt → HubMgt) : (s.modHubMgt h f).cores = s.cores := rfl
@[simp] theorem State.modHubMgt_graphs (s : State) (h : Nat) (f : HubMgt → HubMgt) : (s.modHubMgt h f).graphs = s.graphs := rfl
@[simp] theorem State.modHubMgt_cache (s : State) (h : Nat) (f : HubMgt → HubMgt) : (s.modHubMgt h f).cache = s.cache := rfl
@[simp] theorem State.modHubMgt_hbm (s : State) (h : Nat) (f : HubMgt → HubMgt) : (s.modHubMgt h f).hbm = s.hbm := rfl
@[simp] theorem State.modHubMgt_net (s : State) (h : Nat) (f : HubMgt → HubMgt) : (s.modHubMgt h f).net = s.net := rfl
@[simp] theorem State.modHubMgt_hif (s : State) (h : Nat) (f : HubMgt → HubMgt) : (s.modHubMgt h f).hif = s.hif := rfl
@[simp] theorem State.modHubMgt_sin (s : State) (h : Nat) (f : HubMgt → HubMgt) : (s.modHubMgt h f).sin = s.sin := rfl
@[simp] theorem State.modHubMgt_aln (s : State) (h : Nat) (f : HubMgt → HubMgt) : (s.modHubMgt h f).aln = s.aln := rfl
@[simp] theorem State.modHubMgt_pln (s : State) (h : Nat) (f : HubMgt → HubMgt) : (s.modHubMgt h f).pln = s.pln := rfl
@[simp] theorem State.modHubMgt_lan (s : State) (h : Nat) (f : HubMgt → HubMgt) : (s.modHubMgt h f).lan = s.lan := rfl
@[simp] theorem State.modHubMgt_recovery (s : State) (h : Nat) (f : HubMgt → HubMgt) : (s.modHubMgt h f).recovery = s.recovery := rfl
@[simp] theorem State.modHubMgt_mirror (s : State) (h : Nat) (f : HubMgt → HubMgt) : (s.modHubMgt h f).mirror = s.mirror := rfl
@[simp] theorem State.modHubMgt_thermal (s : State) (h : Nat) (f : HubMgt → HubMgt) : (s.modHubMgt h f).thermal = s.thermal := rfl
@[simp] theorem State.modHubMgt_pins (s : State) (h : Nat) (f : HubMgt → HubMgt) : (s.modHubMgt h f).pins = s.pins := rfl
@[simp] theorem State.modHubMgt_outputs (s : State) (h : Nat) (f : HubMgt → HubMgt) : (s.modHubMgt h f).outputs = s.outputs := rfl

@[simp] theorem State.askTest_pending (s : State) (u c : Nat) : (s.askTest u c).pending = s.pending := rfl
@[simp] theorem State.askTest_now (s : State) (u c : Nat) : (s.askTest u c).now = s.now := rfl
@[simp] theorem State.askTest_free (s : State) (u c : Nat) : (s.askTest u c).free = s.free := rfl
@[simp] theorem State.askTest_regs (s : State) (u c : Nat) : (s.askTest u c).regs = s.regs := rfl
@[simp] theorem State.askTest_mem (s : State) (u c : Nat) : (s.askTest u c).mem = s.mem := rfl
@[simp] theorem State.askTest_storePoison (s : State) (u c : Nat) : (s.askTest u c).storePoison = s.storePoison := rfl
@[simp] theorem State.askTest_hbmPoison (s : State) (u c : Nat) : (s.askTest u c).hbmPoison = s.hbmPoison := rfl
@[simp] theorem State.askTest_cores (s : State) (u c : Nat) : (s.askTest u c).cores = s.cores := rfl
@[simp] theorem State.askTest_cache (s : State) (u c : Nat) : (s.askTest u c).cache = s.cache := rfl
@[simp] theorem State.askTest_hbm (s : State) (u c : Nat) : (s.askTest u c).hbm = s.hbm := rfl
@[simp] theorem State.askTest_net (s : State) (u c : Nat) : (s.askTest u c).net = s.net := rfl
@[simp] theorem State.askTest_hif (s : State) (u c : Nat) : (s.askTest u c).hif = s.hif := rfl
@[simp] theorem State.askTest_sin (s : State) (u c : Nat) : (s.askTest u c).sin = s.sin := rfl
@[simp] theorem State.askTest_aln (s : State) (u c : Nat) : (s.askTest u c).aln = s.aln := rfl
@[simp] theorem State.askTest_pln (s : State) (u c : Nat) : (s.askTest u c).pln = s.pln := rfl
@[simp] theorem State.askTest_lan (s : State) (u c : Nat) : (s.askTest u c).lan = s.lan := rfl
@[simp] theorem State.askTest_recovery (s : State) (u c : Nat) : (s.askTest u c).recovery = s.recovery := rfl
@[simp] theorem State.askTest_mirror (s : State) (u c : Nat) : (s.askTest u c).mirror = s.mirror := rfl
@[simp] theorem State.askTest_thermal (s : State) (u c : Nat) : (s.askTest u c).thermal = s.thermal := rfl
@[simp] theorem State.askTest_mgt (s : State) (u c : Nat) : (s.askTest u c).mgt = s.mgt := rfl
@[simp] theorem State.askTest_pins (s : State) (u c : Nat) : (s.askTest u c).pins = s.pins := rfl
@[simp] theorem State.askTest_outputs (s : State) (u c : Nat) : (s.askTest u c).outputs = s.outputs := rfl

@[simp] theorem State.modGraph_pending (s : State) (g : Nat) (f : Graph → Graph) : (s.modGraph g f).pending = s.pending := rfl
@[simp] theorem State.modGraph_now (s : State) (g : Nat) (f : Graph → Graph) : (s.modGraph g f).now = s.now := rfl
@[simp] theorem State.modGraph_free (s : State) (g : Nat) (f : Graph → Graph) : (s.modGraph g f).free = s.free := rfl
@[simp] theorem State.modGraph_regs (s : State) (g : Nat) (f : Graph → Graph) : (s.modGraph g f).regs = s.regs := rfl
@[simp] theorem State.modGraph_mem (s : State) (g : Nat) (f : Graph → Graph) : (s.modGraph g f).mem = s.mem := rfl
@[simp] theorem State.modGraph_storePoison (s : State) (g : Nat) (f : Graph → Graph) : (s.modGraph g f).storePoison = s.storePoison := rfl
@[simp] theorem State.modGraph_hbmPoison (s : State) (g : Nat) (f : Graph → Graph) : (s.modGraph g f).hbmPoison = s.hbmPoison := rfl
@[simp] theorem State.modGraph_cores (s : State) (g : Nat) (f : Graph → Graph) : (s.modGraph g f).cores = s.cores := rfl
@[simp] theorem State.modGraph_cache (s : State) (g : Nat) (f : Graph → Graph) : (s.modGraph g f).cache = s.cache := rfl
@[simp] theorem State.modGraph_hbm (s : State) (g : Nat) (f : Graph → Graph) : (s.modGraph g f).hbm = s.hbm := rfl
@[simp] theorem State.modGraph_net (s : State) (g : Nat) (f : Graph → Graph) : (s.modGraph g f).net = s.net := rfl
@[simp] theorem State.modGraph_hif (s : State) (g : Nat) (f : Graph → Graph) : (s.modGraph g f).hif = s.hif := rfl
@[simp] theorem State.modGraph_sin (s : State) (g : Nat) (f : Graph → Graph) : (s.modGraph g f).sin = s.sin := rfl
@[simp] theorem State.modGraph_aln (s : State) (g : Nat) (f : Graph → Graph) : (s.modGraph g f).aln = s.aln := rfl
@[simp] theorem State.modGraph_pln (s : State) (g : Nat) (f : Graph → Graph) : (s.modGraph g f).pln = s.pln := rfl
@[simp] theorem State.modGraph_lan (s : State) (g : Nat) (f : Graph → Graph) : (s.modGraph g f).lan = s.lan := rfl
@[simp] theorem State.modGraph_recovery (s : State) (g : Nat) (f : Graph → Graph) : (s.modGraph g f).recovery = s.recovery := rfl
@[simp] theorem State.modGraph_mirror (s : State) (g : Nat) (f : Graph → Graph) : (s.modGraph g f).mirror = s.mirror := rfl
@[simp] theorem State.modGraph_thermal (s : State) (g : Nat) (f : Graph → Graph) : (s.modGraph g f).thermal = s.thermal := rfl
@[simp] theorem State.modGraph_mgt (s : State) (g : Nat) (f : Graph → Graph) : (s.modGraph g f).mgt = s.mgt := rfl
@[simp] theorem State.modGraph_pins (s : State) (g : Nat) (f : Graph → Graph) : (s.modGraph g f).pins = s.pins := rfl
@[simp] theorem State.modGraph_outputs (s : State) (g : Nat) (f : Graph → Graph) : (s.modGraph g f).outputs = s.outputs := rfl

@[simp] theorem State.modFrame_pending (s : State) (g n : Nat) (k : Frame → Frame) : (s.modFrame g n k).pending = s.pending := rfl
@[simp] theorem State.modFrame_now (s : State) (g n : Nat) (k : Frame → Frame) : (s.modFrame g n k).now = s.now := rfl
@[simp] theorem State.modFrame_free (s : State) (g n : Nat) (k : Frame → Frame) : (s.modFrame g n k).free = s.free := rfl
@[simp] theorem State.modFrame_regs (s : State) (g n : Nat) (k : Frame → Frame) : (s.modFrame g n k).regs = s.regs := rfl
@[simp] theorem State.modFrame_mem (s : State) (g n : Nat) (k : Frame → Frame) : (s.modFrame g n k).mem = s.mem := rfl
@[simp] theorem State.modFrame_storePoison (s : State) (g n : Nat) (k : Frame → Frame) : (s.modFrame g n k).storePoison = s.storePoison := rfl
@[simp] theorem State.modFrame_hbmPoison (s : State) (g n : Nat) (k : Frame → Frame) : (s.modFrame g n k).hbmPoison = s.hbmPoison := rfl
@[simp] theorem State.modFrame_cores (s : State) (g n : Nat) (k : Frame → Frame) : (s.modFrame g n k).cores = s.cores := rfl
@[simp] theorem State.modFrame_cache (s : State) (g n : Nat) (k : Frame → Frame) : (s.modFrame g n k).cache = s.cache := rfl
@[simp] theorem State.modFrame_hbm (s : State) (g n : Nat) (k : Frame → Frame) : (s.modFrame g n k).hbm = s.hbm := rfl
@[simp] theorem State.modFrame_net (s : State) (g n : Nat) (k : Frame → Frame) : (s.modFrame g n k).net = s.net := rfl
@[simp] theorem State.modFrame_hif (s : State) (g n : Nat) (k : Frame → Frame) : (s.modFrame g n k).hif = s.hif := rfl
@[simp] theorem State.modFrame_sin (s : State) (g n : Nat) (k : Frame → Frame) : (s.modFrame g n k).sin = s.sin := rfl
@[simp] theorem State.modFrame_aln (s : State) (g n : Nat) (k : Frame → Frame) : (s.modFrame g n k).aln = s.aln := rfl
@[simp] theorem State.modFrame_pln (s : State) (g n : Nat) (k : Frame → Frame) : (s.modFrame g n k).pln = s.pln := rfl
@[simp] theorem State.modFrame_lan (s : State) (g n : Nat) (k : Frame → Frame) : (s.modFrame g n k).lan = s.lan := rfl
@[simp] theorem State.modFrame_recovery (s : State) (g n : Nat) (k : Frame → Frame) : (s.modFrame g n k).recovery = s.recovery := rfl
@[simp] theorem State.modFrame_mirror (s : State) (g n : Nat) (k : Frame → Frame) : (s.modFrame g n k).mirror = s.mirror := rfl
@[simp] theorem State.modFrame_thermal (s : State) (g n : Nat) (k : Frame → Frame) : (s.modFrame g n k).thermal = s.thermal := rfl
@[simp] theorem State.modFrame_mgt (s : State) (g n : Nat) (k : Frame → Frame) : (s.modFrame g n k).mgt = s.mgt := rfl
@[simp] theorem State.modFrame_pins (s : State) (g n : Nat) (k : Frame → Frame) : (s.modFrame g n k).pins = s.pins := rfl
@[simp] theorem State.modFrame_outputs (s : State) (g n : Nat) (k : Frame → Frame) : (s.modFrame g n k).outputs = s.outputs := rfl

@[simp] theorem State.modSq_pending (s : State) (l q : Nat) (f : SqState → SqState) : (s.modSq l q f).pending = s.pending := rfl
@[simp] theorem State.modSq_now (s : State) (l q : Nat) (f : SqState → SqState) : (s.modSq l q f).now = s.now := rfl
@[simp] theorem State.modSq_free (s : State) (l q : Nat) (f : SqState → SqState) : (s.modSq l q f).free = s.free := rfl
@[simp] theorem State.modSq_regs (s : State) (l q : Nat) (f : SqState → SqState) : (s.modSq l q f).regs = s.regs := rfl
@[simp] theorem State.modSq_mem (s : State) (l q : Nat) (f : SqState → SqState) : (s.modSq l q f).mem = s.mem := rfl
@[simp] theorem State.modSq_storePoison (s : State) (l q : Nat) (f : SqState → SqState) : (s.modSq l q f).storePoison = s.storePoison := rfl
@[simp] theorem State.modSq_hbmPoison (s : State) (l q : Nat) (f : SqState → SqState) : (s.modSq l q f).hbmPoison = s.hbmPoison := rfl
@[simp] theorem State.modSq_cores (s : State) (l q : Nat) (f : SqState → SqState) : (s.modSq l q f).cores = s.cores := rfl
@[simp] theorem State.modSq_graphs (s : State) (l q : Nat) (f : SqState → SqState) : (s.modSq l q f).graphs = s.graphs := rfl
@[simp] theorem State.modSq_cache (s : State) (l q : Nat) (f : SqState → SqState) : (s.modSq l q f).cache = s.cache := rfl
@[simp] theorem State.modSq_hbm (s : State) (l q : Nat) (f : SqState → SqState) : (s.modSq l q f).hbm = s.hbm := rfl
@[simp] theorem State.modSq_net (s : State) (l q : Nat) (f : SqState → SqState) : (s.modSq l q f).net = s.net := rfl
@[simp] theorem State.modSq_sin (s : State) (l q : Nat) (f : SqState → SqState) : (s.modSq l q f).sin = s.sin := rfl
@[simp] theorem State.modSq_aln (s : State) (l q : Nat) (f : SqState → SqState) : (s.modSq l q f).aln = s.aln := rfl
@[simp] theorem State.modSq_pln (s : State) (l q : Nat) (f : SqState → SqState) : (s.modSq l q f).pln = s.pln := rfl
@[simp] theorem State.modSq_lan (s : State) (l q : Nat) (f : SqState → SqState) : (s.modSq l q f).lan = s.lan := rfl
@[simp] theorem State.modSq_recovery (s : State) (l q : Nat) (f : SqState → SqState) : (s.modSq l q f).recovery = s.recovery := rfl
@[simp] theorem State.modSq_mirror (s : State) (l q : Nat) (f : SqState → SqState) : (s.modSq l q f).mirror = s.mirror := rfl
@[simp] theorem State.modSq_thermal (s : State) (l q : Nat) (f : SqState → SqState) : (s.modSq l q f).thermal = s.thermal := rfl
@[simp] theorem State.modSq_mgt (s : State) (l q : Nat) (f : SqState → SqState) : (s.modSq l q f).mgt = s.mgt := rfl
@[simp] theorem State.modSq_pins (s : State) (l q : Nat) (f : SqState → SqState) : (s.modSq l q f).pins = s.pins := rfl
@[simp] theorem State.modSq_outputs (s : State) (l q : Nat) (f : SqState → SqState) : (s.modSq l q f).outputs = s.outputs := rfl

@[simp] theorem State.modCq_pending (s : State) (l q : Nat) (f : CqState → CqState) : (s.modCq l q f).pending = s.pending := rfl
@[simp] theorem State.modCq_now (s : State) (l q : Nat) (f : CqState → CqState) : (s.modCq l q f).now = s.now := rfl
@[simp] theorem State.modCq_free (s : State) (l q : Nat) (f : CqState → CqState) : (s.modCq l q f).free = s.free := rfl
@[simp] theorem State.modCq_regs (s : State) (l q : Nat) (f : CqState → CqState) : (s.modCq l q f).regs = s.regs := rfl
@[simp] theorem State.modCq_mem (s : State) (l q : Nat) (f : CqState → CqState) : (s.modCq l q f).mem = s.mem := rfl
@[simp] theorem State.modCq_storePoison (s : State) (l q : Nat) (f : CqState → CqState) : (s.modCq l q f).storePoison = s.storePoison := rfl
@[simp] theorem State.modCq_hbmPoison (s : State) (l q : Nat) (f : CqState → CqState) : (s.modCq l q f).hbmPoison = s.hbmPoison := rfl
@[simp] theorem State.modCq_cores (s : State) (l q : Nat) (f : CqState → CqState) : (s.modCq l q f).cores = s.cores := rfl
@[simp] theorem State.modCq_graphs (s : State) (l q : Nat) (f : CqState → CqState) : (s.modCq l q f).graphs = s.graphs := rfl
@[simp] theorem State.modCq_cache (s : State) (l q : Nat) (f : CqState → CqState) : (s.modCq l q f).cache = s.cache := rfl
@[simp] theorem State.modCq_hbm (s : State) (l q : Nat) (f : CqState → CqState) : (s.modCq l q f).hbm = s.hbm := rfl
@[simp] theorem State.modCq_net (s : State) (l q : Nat) (f : CqState → CqState) : (s.modCq l q f).net = s.net := rfl
@[simp] theorem State.modCq_sin (s : State) (l q : Nat) (f : CqState → CqState) : (s.modCq l q f).sin = s.sin := rfl
@[simp] theorem State.modCq_aln (s : State) (l q : Nat) (f : CqState → CqState) : (s.modCq l q f).aln = s.aln := rfl
@[simp] theorem State.modCq_pln (s : State) (l q : Nat) (f : CqState → CqState) : (s.modCq l q f).pln = s.pln := rfl
@[simp] theorem State.modCq_lan (s : State) (l q : Nat) (f : CqState → CqState) : (s.modCq l q f).lan = s.lan := rfl
@[simp] theorem State.modCq_recovery (s : State) (l q : Nat) (f : CqState → CqState) : (s.modCq l q f).recovery = s.recovery := rfl
@[simp] theorem State.modCq_mirror (s : State) (l q : Nat) (f : CqState → CqState) : (s.modCq l q f).mirror = s.mirror := rfl
@[simp] theorem State.modCq_thermal (s : State) (l q : Nat) (f : CqState → CqState) : (s.modCq l q f).thermal = s.thermal := rfl
@[simp] theorem State.modCq_mgt (s : State) (l q : Nat) (f : CqState → CqState) : (s.modCq l q f).mgt = s.mgt := rfl
@[simp] theorem State.modCq_pins (s : State) (l q : Nat) (f : CqState → CqState) : (s.modCq l q f).pins = s.pins := rfl
@[simp] theorem State.modCq_outputs (s : State) (l q : Nat) (f : CqState → CqState) : (s.modCq l q f).outputs = s.outputs := rfl

@[simp] theorem State.modRc_pending (s : State) (d : Nat) (f : RcState → RcState) : (s.modRc d f).pending = s.pending := rfl
@[simp] theorem State.modRc_now (s : State) (d : Nat) (f : RcState → RcState) : (s.modRc d f).now = s.now := rfl
@[simp] theorem State.modRc_free (s : State) (d : Nat) (f : RcState → RcState) : (s.modRc d f).free = s.free := rfl
@[simp] theorem State.modRc_regs (s : State) (d : Nat) (f : RcState → RcState) : (s.modRc d f).regs = s.regs := rfl
@[simp] theorem State.modRc_mem (s : State) (d : Nat) (f : RcState → RcState) : (s.modRc d f).mem = s.mem := rfl
@[simp] theorem State.modRc_storePoison (s : State) (d : Nat) (f : RcState → RcState) : (s.modRc d f).storePoison = s.storePoison := rfl
@[simp] theorem State.modRc_hbmPoison (s : State) (d : Nat) (f : RcState → RcState) : (s.modRc d f).hbmPoison = s.hbmPoison := rfl
@[simp] theorem State.modRc_cores (s : State) (d : Nat) (f : RcState → RcState) : (s.modRc d f).cores = s.cores := rfl
@[simp] theorem State.modRc_graphs (s : State) (d : Nat) (f : RcState → RcState) : (s.modRc d f).graphs = s.graphs := rfl
@[simp] theorem State.modRc_cache (s : State) (d : Nat) (f : RcState → RcState) : (s.modRc d f).cache = s.cache := rfl
@[simp] theorem State.modRc_net (s : State) (d : Nat) (f : RcState → RcState) : (s.modRc d f).net = s.net := rfl
@[simp] theorem State.modRc_hif (s : State) (d : Nat) (f : RcState → RcState) : (s.modRc d f).hif = s.hif := rfl
@[simp] theorem State.modRc_sin (s : State) (d : Nat) (f : RcState → RcState) : (s.modRc d f).sin = s.sin := rfl
@[simp] theorem State.modRc_aln (s : State) (d : Nat) (f : RcState → RcState) : (s.modRc d f).aln = s.aln := rfl
@[simp] theorem State.modRc_pln (s : State) (d : Nat) (f : RcState → RcState) : (s.modRc d f).pln = s.pln := rfl
@[simp] theorem State.modRc_lan (s : State) (d : Nat) (f : RcState → RcState) : (s.modRc d f).lan = s.lan := rfl
@[simp] theorem State.modRc_recovery (s : State) (d : Nat) (f : RcState → RcState) : (s.modRc d f).recovery = s.recovery := rfl
@[simp] theorem State.modRc_mirror (s : State) (d : Nat) (f : RcState → RcState) : (s.modRc d f).mirror = s.mirror := rfl
@[simp] theorem State.modRc_thermal (s : State) (d : Nat) (f : RcState → RcState) : (s.modRc d f).thermal = s.thermal := rfl
@[simp] theorem State.modRc_mgt (s : State) (d : Nat) (f : RcState → RcState) : (s.modRc d f).mgt = s.mgt := rfl
@[simp] theorem State.modRc_pins (s : State) (d : Nat) (f : RcState → RcState) : (s.modRc d f).pins = s.pins := rfl
@[simp] theorem State.modRc_outputs (s : State) (d : Nat) (f : RcState → RcState) : (s.modRc d f).outputs = s.outputs := rfl

@[simp] theorem State.modPort_pending (s : State) (d p : Nat) (f : PortState → PortState) : (s.modPort d p f).pending = s.pending := rfl
@[simp] theorem State.modPort_now (s : State) (d p : Nat) (f : PortState → PortState) : (s.modPort d p f).now = s.now := rfl
@[simp] theorem State.modPort_free (s : State) (d p : Nat) (f : PortState → PortState) : (s.modPort d p f).free = s.free := rfl
@[simp] theorem State.modPort_regs (s : State) (d p : Nat) (f : PortState → PortState) : (s.modPort d p f).regs = s.regs := rfl
@[simp] theorem State.modPort_mem (s : State) (d p : Nat) (f : PortState → PortState) : (s.modPort d p f).mem = s.mem := rfl
@[simp] theorem State.modPort_storePoison (s : State) (d p : Nat) (f : PortState → PortState) : (s.modPort d p f).storePoison = s.storePoison := rfl
@[simp] theorem State.modPort_hbmPoison (s : State) (d p : Nat) (f : PortState → PortState) : (s.modPort d p f).hbmPoison = s.hbmPoison := rfl
@[simp] theorem State.modPort_cores (s : State) (d p : Nat) (f : PortState → PortState) : (s.modPort d p f).cores = s.cores := rfl
@[simp] theorem State.modPort_graphs (s : State) (d p : Nat) (f : PortState → PortState) : (s.modPort d p f).graphs = s.graphs := rfl
@[simp] theorem State.modPort_cache (s : State) (d p : Nat) (f : PortState → PortState) : (s.modPort d p f).cache = s.cache := rfl
@[simp] theorem State.modPort_hbm (s : State) (d p : Nat) (f : PortState → PortState) : (s.modPort d p f).hbm = s.hbm := rfl
@[simp] theorem State.modPort_hif (s : State) (d p : Nat) (f : PortState → PortState) : (s.modPort d p f).hif = s.hif := rfl
@[simp] theorem State.modPort_sin (s : State) (d p : Nat) (f : PortState → PortState) : (s.modPort d p f).sin = s.sin := rfl
@[simp] theorem State.modPort_aln (s : State) (d p : Nat) (f : PortState → PortState) : (s.modPort d p f).aln = s.aln := rfl
@[simp] theorem State.modPort_pln (s : State) (d p : Nat) (f : PortState → PortState) : (s.modPort d p f).pln = s.pln := rfl
@[simp] theorem State.modPort_lan (s : State) (d p : Nat) (f : PortState → PortState) : (s.modPort d p f).lan = s.lan := rfl
@[simp] theorem State.modPort_recovery (s : State) (d p : Nat) (f : PortState → PortState) : (s.modPort d p f).recovery = s.recovery := rfl
@[simp] theorem State.modPort_mirror (s : State) (d p : Nat) (f : PortState → PortState) : (s.modPort d p f).mirror = s.mirror := rfl
@[simp] theorem State.modPort_thermal (s : State) (d p : Nat) (f : PortState → PortState) : (s.modPort d p f).thermal = s.thermal := rfl
@[simp] theorem State.modPort_mgt (s : State) (d p : Nat) (f : PortState → PortState) : (s.modPort d p f).mgt = s.mgt := rfl
@[simp] theorem State.modPort_pins (s : State) (d p : Nat) (f : PortState → PortState) : (s.modPort d p f).pins = s.pins := rfl
@[simp] theorem State.modPort_outputs (s : State) (d p : Nat) (f : PortState → PortState) : (s.modPort d p f).outputs = s.outputs := rfl

@[simp] theorem State.modNet_pending (s : State) (f : NetState → NetState) : (s.modNet f).pending = s.pending := rfl
@[simp] theorem State.modNet_now (s : State) (f : NetState → NetState) : (s.modNet f).now = s.now := rfl
@[simp] theorem State.modNet_free (s : State) (f : NetState → NetState) : (s.modNet f).free = s.free := rfl
@[simp] theorem State.modNet_regs (s : State) (f : NetState → NetState) : (s.modNet f).regs = s.regs := rfl
@[simp] theorem State.modNet_mem (s : State) (f : NetState → NetState) : (s.modNet f).mem = s.mem := rfl
@[simp] theorem State.modNet_storePoison (s : State) (f : NetState → NetState) : (s.modNet f).storePoison = s.storePoison := rfl
@[simp] theorem State.modNet_hbmPoison (s : State) (f : NetState → NetState) : (s.modNet f).hbmPoison = s.hbmPoison := rfl
@[simp] theorem State.modNet_cores (s : State) (f : NetState → NetState) : (s.modNet f).cores = s.cores := rfl
@[simp] theorem State.modNet_graphs (s : State) (f : NetState → NetState) : (s.modNet f).graphs = s.graphs := rfl
@[simp] theorem State.modNet_cache (s : State) (f : NetState → NetState) : (s.modNet f).cache = s.cache := rfl
@[simp] theorem State.modNet_hbm (s : State) (f : NetState → NetState) : (s.modNet f).hbm = s.hbm := rfl
@[simp] theorem State.modNet_hif (s : State) (f : NetState → NetState) : (s.modNet f).hif = s.hif := rfl
@[simp] theorem State.modNet_sin (s : State) (f : NetState → NetState) : (s.modNet f).sin = s.sin := rfl
@[simp] theorem State.modNet_aln (s : State) (f : NetState → NetState) : (s.modNet f).aln = s.aln := rfl
@[simp] theorem State.modNet_pln (s : State) (f : NetState → NetState) : (s.modNet f).pln = s.pln := rfl
@[simp] theorem State.modNet_lan (s : State) (f : NetState → NetState) : (s.modNet f).lan = s.lan := rfl
@[simp] theorem State.modNet_recovery (s : State) (f : NetState → NetState) : (s.modNet f).recovery = s.recovery := rfl
@[simp] theorem State.modNet_mirror (s : State) (f : NetState → NetState) : (s.modNet f).mirror = s.mirror := rfl
@[simp] theorem State.modNet_thermal (s : State) (f : NetState → NetState) : (s.modNet f).thermal = s.thermal := rfl
@[simp] theorem State.modNet_mgt (s : State) (f : NetState → NetState) : (s.modNet f).mgt = s.mgt := rfl
@[simp] theorem State.modNet_pins (s : State) (f : NetState → NetState) : (s.modNet f).pins = s.pins := rfl
@[simp] theorem State.modNet_outputs (s : State) (f : NetState → NetState) : (s.modNet f).outputs = s.outputs := rfl

@[simp] theorem State.modGroup_pending (s : State) (g : Nat) (f : GroupSt → GroupSt) : (s.modGroup g f).pending = s.pending := rfl
@[simp] theorem State.modGroup_now (s : State) (g : Nat) (f : GroupSt → GroupSt) : (s.modGroup g f).now = s.now := rfl
@[simp] theorem State.modGroup_free (s : State) (g : Nat) (f : GroupSt → GroupSt) : (s.modGroup g f).free = s.free := rfl
@[simp] theorem State.modGroup_regs (s : State) (g : Nat) (f : GroupSt → GroupSt) : (s.modGroup g f).regs = s.regs := rfl
@[simp] theorem State.modGroup_mem (s : State) (g : Nat) (f : GroupSt → GroupSt) : (s.modGroup g f).mem = s.mem := rfl
@[simp] theorem State.modGroup_storePoison (s : State) (g : Nat) (f : GroupSt → GroupSt) : (s.modGroup g f).storePoison = s.storePoison := rfl
@[simp] theorem State.modGroup_hbmPoison (s : State) (g : Nat) (f : GroupSt → GroupSt) : (s.modGroup g f).hbmPoison = s.hbmPoison := rfl
@[simp] theorem State.modGroup_cores (s : State) (g : Nat) (f : GroupSt → GroupSt) : (s.modGroup g f).cores = s.cores := rfl
@[simp] theorem State.modGroup_graphs (s : State) (g : Nat) (f : GroupSt → GroupSt) : (s.modGroup g f).graphs = s.graphs := rfl
@[simp] theorem State.modGroup_cache (s : State) (g : Nat) (f : GroupSt → GroupSt) : (s.modGroup g f).cache = s.cache := rfl
@[simp] theorem State.modGroup_hbm (s : State) (g : Nat) (f : GroupSt → GroupSt) : (s.modGroup g f).hbm = s.hbm := rfl
@[simp] theorem State.modGroup_net (s : State) (g : Nat) (f : GroupSt → GroupSt) : (s.modGroup g f).net = s.net := rfl
@[simp] theorem State.modGroup_hif (s : State) (g : Nat) (f : GroupSt → GroupSt) : (s.modGroup g f).hif = s.hif := rfl
@[simp] theorem State.modGroup_sin (s : State) (g : Nat) (f : GroupSt → GroupSt) : (s.modGroup g f).sin = s.sin := rfl
@[simp] theorem State.modGroup_pln (s : State) (g : Nat) (f : GroupSt → GroupSt) : (s.modGroup g f).pln = s.pln := rfl
@[simp] theorem State.modGroup_lan (s : State) (g : Nat) (f : GroupSt → GroupSt) : (s.modGroup g f).lan = s.lan := rfl
@[simp] theorem State.modGroup_recovery (s : State) (g : Nat) (f : GroupSt → GroupSt) : (s.modGroup g f).recovery = s.recovery := rfl
@[simp] theorem State.modGroup_mirror (s : State) (g : Nat) (f : GroupSt → GroupSt) : (s.modGroup g f).mirror = s.mirror := rfl
@[simp] theorem State.modGroup_thermal (s : State) (g : Nat) (f : GroupSt → GroupSt) : (s.modGroup g f).thermal = s.thermal := rfl
@[simp] theorem State.modGroup_mgt (s : State) (g : Nat) (f : GroupSt → GroupSt) : (s.modGroup g f).mgt = s.mgt := rfl
@[simp] theorem State.modGroup_pins (s : State) (g : Nat) (f : GroupSt → GroupSt) : (s.modGroup g f).pins = s.pins := rfl
@[simp] theorem State.modGroup_outputs (s : State) (g : Nat) (f : GroupSt → GroupSt) : (s.modGroup g f).outputs = s.outputs := rfl

@[simp] theorem State.modAln_pending (s : State) (ps : Nat) (f : AlignStream → AlignStream) : (s.modAln ps f).pending = s.pending := rfl
@[simp] theorem State.modAln_now (s : State) (ps : Nat) (f : AlignStream → AlignStream) : (s.modAln ps f).now = s.now := rfl
@[simp] theorem State.modAln_free (s : State) (ps : Nat) (f : AlignStream → AlignStream) : (s.modAln ps f).free = s.free := rfl
@[simp] theorem State.modAln_regs (s : State) (ps : Nat) (f : AlignStream → AlignStream) : (s.modAln ps f).regs = s.regs := rfl
@[simp] theorem State.modAln_mem (s : State) (ps : Nat) (f : AlignStream → AlignStream) : (s.modAln ps f).mem = s.mem := rfl
@[simp] theorem State.modAln_storePoison (s : State) (ps : Nat) (f : AlignStream → AlignStream) : (s.modAln ps f).storePoison = s.storePoison := rfl
@[simp] theorem State.modAln_hbmPoison (s : State) (ps : Nat) (f : AlignStream → AlignStream) : (s.modAln ps f).hbmPoison = s.hbmPoison := rfl
@[simp] theorem State.modAln_cores (s : State) (ps : Nat) (f : AlignStream → AlignStream) : (s.modAln ps f).cores = s.cores := rfl
@[simp] theorem State.modAln_graphs (s : State) (ps : Nat) (f : AlignStream → AlignStream) : (s.modAln ps f).graphs = s.graphs := rfl
@[simp] theorem State.modAln_cache (s : State) (ps : Nat) (f : AlignStream → AlignStream) : (s.modAln ps f).cache = s.cache := rfl
@[simp] theorem State.modAln_hbm (s : State) (ps : Nat) (f : AlignStream → AlignStream) : (s.modAln ps f).hbm = s.hbm := rfl
@[simp] theorem State.modAln_net (s : State) (ps : Nat) (f : AlignStream → AlignStream) : (s.modAln ps f).net = s.net := rfl
@[simp] theorem State.modAln_hif (s : State) (ps : Nat) (f : AlignStream → AlignStream) : (s.modAln ps f).hif = s.hif := rfl
@[simp] theorem State.modAln_sin (s : State) (ps : Nat) (f : AlignStream → AlignStream) : (s.modAln ps f).sin = s.sin := rfl
@[simp] theorem State.modAln_pln (s : State) (ps : Nat) (f : AlignStream → AlignStream) : (s.modAln ps f).pln = s.pln := rfl
@[simp] theorem State.modAln_lan (s : State) (ps : Nat) (f : AlignStream → AlignStream) : (s.modAln ps f).lan = s.lan := rfl
@[simp] theorem State.modAln_recovery (s : State) (ps : Nat) (f : AlignStream → AlignStream) : (s.modAln ps f).recovery = s.recovery := rfl
@[simp] theorem State.modAln_mirror (s : State) (ps : Nat) (f : AlignStream → AlignStream) : (s.modAln ps f).mirror = s.mirror := rfl
@[simp] theorem State.modAln_thermal (s : State) (ps : Nat) (f : AlignStream → AlignStream) : (s.modAln ps f).thermal = s.thermal := rfl
@[simp] theorem State.modAln_mgt (s : State) (ps : Nat) (f : AlignStream → AlignStream) : (s.modAln ps f).mgt = s.mgt := rfl
@[simp] theorem State.modAln_pins (s : State) (ps : Nat) (f : AlignStream → AlignStream) : (s.modAln ps f).pins = s.pins := rfl
@[simp] theorem State.modAln_outputs (s : State) (ps : Nat) (f : AlignStream → AlignStream) : (s.modAln ps f).outputs = s.outputs := rfl

@[simp] theorem State.modPlanner_pending (s : State) (h : Nat) (f : PlannerState → PlannerState) : (s.modPlanner h f).pending = s.pending := rfl
@[simp] theorem State.modPlanner_now (s : State) (h : Nat) (f : PlannerState → PlannerState) : (s.modPlanner h f).now = s.now := rfl
@[simp] theorem State.modPlanner_free (s : State) (h : Nat) (f : PlannerState → PlannerState) : (s.modPlanner h f).free = s.free := rfl
@[simp] theorem State.modPlanner_regs (s : State) (h : Nat) (f : PlannerState → PlannerState) : (s.modPlanner h f).regs = s.regs := rfl
@[simp] theorem State.modPlanner_mem (s : State) (h : Nat) (f : PlannerState → PlannerState) : (s.modPlanner h f).mem = s.mem := rfl
@[simp] theorem State.modPlanner_storePoison (s : State) (h : Nat) (f : PlannerState → PlannerState) : (s.modPlanner h f).storePoison = s.storePoison := rfl
@[simp] theorem State.modPlanner_hbmPoison (s : State) (h : Nat) (f : PlannerState → PlannerState) : (s.modPlanner h f).hbmPoison = s.hbmPoison := rfl
@[simp] theorem State.modPlanner_cores (s : State) (h : Nat) (f : PlannerState → PlannerState) : (s.modPlanner h f).cores = s.cores := rfl
@[simp] theorem State.modPlanner_graphs (s : State) (h : Nat) (f : PlannerState → PlannerState) : (s.modPlanner h f).graphs = s.graphs := rfl
@[simp] theorem State.modPlanner_cache (s : State) (h : Nat) (f : PlannerState → PlannerState) : (s.modPlanner h f).cache = s.cache := rfl
@[simp] theorem State.modPlanner_hbm (s : State) (h : Nat) (f : PlannerState → PlannerState) : (s.modPlanner h f).hbm = s.hbm := rfl
@[simp] theorem State.modPlanner_net (s : State) (h : Nat) (f : PlannerState → PlannerState) : (s.modPlanner h f).net = s.net := rfl
@[simp] theorem State.modPlanner_hif (s : State) (h : Nat) (f : PlannerState → PlannerState) : (s.modPlanner h f).hif = s.hif := rfl
@[simp] theorem State.modPlanner_sin (s : State) (h : Nat) (f : PlannerState → PlannerState) : (s.modPlanner h f).sin = s.sin := rfl
@[simp] theorem State.modPlanner_aln (s : State) (h : Nat) (f : PlannerState → PlannerState) : (s.modPlanner h f).aln = s.aln := rfl
@[simp] theorem State.modPlanner_lan (s : State) (h : Nat) (f : PlannerState → PlannerState) : (s.modPlanner h f).lan = s.lan := rfl
@[simp] theorem State.modPlanner_recovery (s : State) (h : Nat) (f : PlannerState → PlannerState) : (s.modPlanner h f).recovery = s.recovery := rfl
@[simp] theorem State.modPlanner_mirror (s : State) (h : Nat) (f : PlannerState → PlannerState) : (s.modPlanner h f).mirror = s.mirror := rfl
@[simp] theorem State.modPlanner_thermal (s : State) (h : Nat) (f : PlannerState → PlannerState) : (s.modPlanner h f).thermal = s.thermal := rfl
@[simp] theorem State.modPlanner_mgt (s : State) (h : Nat) (f : PlannerState → PlannerState) : (s.modPlanner h f).mgt = s.mgt := rfl
@[simp] theorem State.modPlanner_pins (s : State) (h : Nat) (f : PlannerState → PlannerState) : (s.modPlanner h f).pins = s.pins := rfl
@[simp] theorem State.modPlanner_outputs (s : State) (h : Nat) (f : PlannerState → PlannerState) : (s.modPlanner h f).outputs = s.outputs := rfl

@[simp] theorem State.modTestUnit_pending (s : State) (u : Nat) (f : TestUnit → TestUnit) : (s.modTestUnit u f).pending = s.pending := rfl
@[simp] theorem State.modTestUnit_now (s : State) (u : Nat) (f : TestUnit → TestUnit) : (s.modTestUnit u f).now = s.now := rfl
@[simp] theorem State.modTestUnit_free (s : State) (u : Nat) (f : TestUnit → TestUnit) : (s.modTestUnit u f).free = s.free := rfl
@[simp] theorem State.modTestUnit_regs (s : State) (u : Nat) (f : TestUnit → TestUnit) : (s.modTestUnit u f).regs = s.regs := rfl
@[simp] theorem State.modTestUnit_mem (s : State) (u : Nat) (f : TestUnit → TestUnit) : (s.modTestUnit u f).mem = s.mem := rfl
@[simp] theorem State.modTestUnit_storePoison (s : State) (u : Nat) (f : TestUnit → TestUnit) : (s.modTestUnit u f).storePoison = s.storePoison := rfl
@[simp] theorem State.modTestUnit_hbmPoison (s : State) (u : Nat) (f : TestUnit → TestUnit) : (s.modTestUnit u f).hbmPoison = s.hbmPoison := rfl
@[simp] theorem State.modTestUnit_cores (s : State) (u : Nat) (f : TestUnit → TestUnit) : (s.modTestUnit u f).cores = s.cores := rfl
@[simp] theorem State.modTestUnit_graphs (s : State) (u : Nat) (f : TestUnit → TestUnit) : (s.modTestUnit u f).graphs = s.graphs := rfl
@[simp] theorem State.modTestUnit_cache (s : State) (u : Nat) (f : TestUnit → TestUnit) : (s.modTestUnit u f).cache = s.cache := rfl
@[simp] theorem State.modTestUnit_hbm (s : State) (u : Nat) (f : TestUnit → TestUnit) : (s.modTestUnit u f).hbm = s.hbm := rfl
@[simp] theorem State.modTestUnit_net (s : State) (u : Nat) (f : TestUnit → TestUnit) : (s.modTestUnit u f).net = s.net := rfl
@[simp] theorem State.modTestUnit_hif (s : State) (u : Nat) (f : TestUnit → TestUnit) : (s.modTestUnit u f).hif = s.hif := rfl
@[simp] theorem State.modTestUnit_sin (s : State) (u : Nat) (f : TestUnit → TestUnit) : (s.modTestUnit u f).sin = s.sin := rfl
@[simp] theorem State.modTestUnit_aln (s : State) (u : Nat) (f : TestUnit → TestUnit) : (s.modTestUnit u f).aln = s.aln := rfl
@[simp] theorem State.modTestUnit_pln (s : State) (u : Nat) (f : TestUnit → TestUnit) : (s.modTestUnit u f).pln = s.pln := rfl
@[simp] theorem State.modTestUnit_recovery (s : State) (u : Nat) (f : TestUnit → TestUnit) : (s.modTestUnit u f).recovery = s.recovery := rfl
@[simp] theorem State.modTestUnit_mirror (s : State) (u : Nat) (f : TestUnit → TestUnit) : (s.modTestUnit u f).mirror = s.mirror := rfl
@[simp] theorem State.modTestUnit_thermal (s : State) (u : Nat) (f : TestUnit → TestUnit) : (s.modTestUnit u f).thermal = s.thermal := rfl
@[simp] theorem State.modTestUnit_mgt (s : State) (u : Nat) (f : TestUnit → TestUnit) : (s.modTestUnit u f).mgt = s.mgt := rfl
@[simp] theorem State.modTestUnit_pins (s : State) (u : Nat) (f : TestUnit → TestUnit) : (s.modTestUnit u f).pins = s.pins := rfl
@[simp] theorem State.modTestUnit_outputs (s : State) (u : Nat) (f : TestUnit → TestUnit) : (s.modTestUnit u f).outputs = s.outputs := rfl

@[simp] theorem State.modKeeper_pending (s : State) (d : Nat) (f : KeeperStore → KeeperStore) : (s.modKeeper d f).pending = s.pending := rfl
@[simp] theorem State.modKeeper_now (s : State) (d : Nat) (f : KeeperStore → KeeperStore) : (s.modKeeper d f).now = s.now := rfl
@[simp] theorem State.modKeeper_free (s : State) (d : Nat) (f : KeeperStore → KeeperStore) : (s.modKeeper d f).free = s.free := rfl
@[simp] theorem State.modKeeper_regs (s : State) (d : Nat) (f : KeeperStore → KeeperStore) : (s.modKeeper d f).regs = s.regs := rfl
@[simp] theorem State.modKeeper_mem (s : State) (d : Nat) (f : KeeperStore → KeeperStore) : (s.modKeeper d f).mem = s.mem := rfl
@[simp] theorem State.modKeeper_storePoison (s : State) (d : Nat) (f : KeeperStore → KeeperStore) : (s.modKeeper d f).storePoison = s.storePoison := rfl
@[simp] theorem State.modKeeper_hbmPoison (s : State) (d : Nat) (f : KeeperStore → KeeperStore) : (s.modKeeper d f).hbmPoison = s.hbmPoison := rfl
@[simp] theorem State.modKeeper_cores (s : State) (d : Nat) (f : KeeperStore → KeeperStore) : (s.modKeeper d f).cores = s.cores := rfl
@[simp] theorem State.modKeeper_graphs (s : State) (d : Nat) (f : KeeperStore → KeeperStore) : (s.modKeeper d f).graphs = s.graphs := rfl
@[simp] theorem State.modKeeper_cache (s : State) (d : Nat) (f : KeeperStore → KeeperStore) : (s.modKeeper d f).cache = s.cache := rfl
@[simp] theorem State.modKeeper_hbm (s : State) (d : Nat) (f : KeeperStore → KeeperStore) : (s.modKeeper d f).hbm = s.hbm := rfl
@[simp] theorem State.modKeeper_net (s : State) (d : Nat) (f : KeeperStore → KeeperStore) : (s.modKeeper d f).net = s.net := rfl
@[simp] theorem State.modKeeper_hif (s : State) (d : Nat) (f : KeeperStore → KeeperStore) : (s.modKeeper d f).hif = s.hif := rfl
@[simp] theorem State.modKeeper_sin (s : State) (d : Nat) (f : KeeperStore → KeeperStore) : (s.modKeeper d f).sin = s.sin := rfl
@[simp] theorem State.modKeeper_aln (s : State) (d : Nat) (f : KeeperStore → KeeperStore) : (s.modKeeper d f).aln = s.aln := rfl
@[simp] theorem State.modKeeper_pln (s : State) (d : Nat) (f : KeeperStore → KeeperStore) : (s.modKeeper d f).pln = s.pln := rfl
@[simp] theorem State.modKeeper_lan (s : State) (d : Nat) (f : KeeperStore → KeeperStore) : (s.modKeeper d f).lan = s.lan := rfl
@[simp] theorem State.modKeeper_mirror (s : State) (d : Nat) (f : KeeperStore → KeeperStore) : (s.modKeeper d f).mirror = s.mirror := rfl
@[simp] theorem State.modKeeper_thermal (s : State) (d : Nat) (f : KeeperStore → KeeperStore) : (s.modKeeper d f).thermal = s.thermal := rfl
@[simp] theorem State.modKeeper_mgt (s : State) (d : Nat) (f : KeeperStore → KeeperStore) : (s.modKeeper d f).mgt = s.mgt := rfl
@[simp] theorem State.modKeeper_pins (s : State) (d : Nat) (f : KeeperStore → KeeperStore) : (s.modKeeper d f).pins = s.pins := rfl
@[simp] theorem State.modKeeper_outputs (s : State) (d : Nat) (f : KeeperStore → KeeperStore) : (s.modKeeper d f).outputs = s.outputs := rfl

@[simp] theorem State.modMirPort_pending (s : State) (h : Nat) (f : MirPort → MirPort) : (s.modMirPort h f).pending = s.pending := rfl
@[simp] theorem State.modMirPort_now (s : State) (h : Nat) (f : MirPort → MirPort) : (s.modMirPort h f).now = s.now := rfl
@[simp] theorem State.modMirPort_free (s : State) (h : Nat) (f : MirPort → MirPort) : (s.modMirPort h f).free = s.free := rfl
@[simp] theorem State.modMirPort_regs (s : State) (h : Nat) (f : MirPort → MirPort) : (s.modMirPort h f).regs = s.regs := rfl
@[simp] theorem State.modMirPort_mem (s : State) (h : Nat) (f : MirPort → MirPort) : (s.modMirPort h f).mem = s.mem := rfl
@[simp] theorem State.modMirPort_storePoison (s : State) (h : Nat) (f : MirPort → MirPort) : (s.modMirPort h f).storePoison = s.storePoison := rfl
@[simp] theorem State.modMirPort_hbmPoison (s : State) (h : Nat) (f : MirPort → MirPort) : (s.modMirPort h f).hbmPoison = s.hbmPoison := rfl
@[simp] theorem State.modMirPort_cores (s : State) (h : Nat) (f : MirPort → MirPort) : (s.modMirPort h f).cores = s.cores := rfl
@[simp] theorem State.modMirPort_graphs (s : State) (h : Nat) (f : MirPort → MirPort) : (s.modMirPort h f).graphs = s.graphs := rfl
@[simp] theorem State.modMirPort_cache (s : State) (h : Nat) (f : MirPort → MirPort) : (s.modMirPort h f).cache = s.cache := rfl
@[simp] theorem State.modMirPort_hbm (s : State) (h : Nat) (f : MirPort → MirPort) : (s.modMirPort h f).hbm = s.hbm := rfl
@[simp] theorem State.modMirPort_net (s : State) (h : Nat) (f : MirPort → MirPort) : (s.modMirPort h f).net = s.net := rfl
@[simp] theorem State.modMirPort_hif (s : State) (h : Nat) (f : MirPort → MirPort) : (s.modMirPort h f).hif = s.hif := rfl
@[simp] theorem State.modMirPort_sin (s : State) (h : Nat) (f : MirPort → MirPort) : (s.modMirPort h f).sin = s.sin := rfl
@[simp] theorem State.modMirPort_aln (s : State) (h : Nat) (f : MirPort → MirPort) : (s.modMirPort h f).aln = s.aln := rfl
@[simp] theorem State.modMirPort_pln (s : State) (h : Nat) (f : MirPort → MirPort) : (s.modMirPort h f).pln = s.pln := rfl
@[simp] theorem State.modMirPort_lan (s : State) (h : Nat) (f : MirPort → MirPort) : (s.modMirPort h f).lan = s.lan := rfl
@[simp] theorem State.modMirPort_recovery (s : State) (h : Nat) (f : MirPort → MirPort) : (s.modMirPort h f).recovery = s.recovery := rfl
@[simp] theorem State.modMirPort_thermal (s : State) (h : Nat) (f : MirPort → MirPort) : (s.modMirPort h f).thermal = s.thermal := rfl
@[simp] theorem State.modMirPort_mgt (s : State) (h : Nat) (f : MirPort → MirPort) : (s.modMirPort h f).mgt = s.mgt := rfl
@[simp] theorem State.modMirPort_pins (s : State) (h : Nat) (f : MirPort → MirPort) : (s.modMirPort h f).pins = s.pins := rfl
@[simp] theorem State.modMirPort_outputs (s : State) (h : Nat) (f : MirPort → MirPort) : (s.modMirPort h f).outputs = s.outputs := rfl

@[simp] theorem State.modRail_pending (s : State) (r : Nat) (f : RailState → RailState) : (s.modRail r f).pending = s.pending := rfl
@[simp] theorem State.modRail_now (s : State) (r : Nat) (f : RailState → RailState) : (s.modRail r f).now = s.now := rfl
@[simp] theorem State.modRail_free (s : State) (r : Nat) (f : RailState → RailState) : (s.modRail r f).free = s.free := rfl
@[simp] theorem State.modRail_regs (s : State) (r : Nat) (f : RailState → RailState) : (s.modRail r f).regs = s.regs := rfl
@[simp] theorem State.modRail_mem (s : State) (r : Nat) (f : RailState → RailState) : (s.modRail r f).mem = s.mem := rfl
@[simp] theorem State.modRail_storePoison (s : State) (r : Nat) (f : RailState → RailState) : (s.modRail r f).storePoison = s.storePoison := rfl
@[simp] theorem State.modRail_hbmPoison (s : State) (r : Nat) (f : RailState → RailState) : (s.modRail r f).hbmPoison = s.hbmPoison := rfl
@[simp] theorem State.modRail_cores (s : State) (r : Nat) (f : RailState → RailState) : (s.modRail r f).cores = s.cores := rfl
@[simp] theorem State.modRail_graphs (s : State) (r : Nat) (f : RailState → RailState) : (s.modRail r f).graphs = s.graphs := rfl
@[simp] theorem State.modRail_cache (s : State) (r : Nat) (f : RailState → RailState) : (s.modRail r f).cache = s.cache := rfl
@[simp] theorem State.modRail_hbm (s : State) (r : Nat) (f : RailState → RailState) : (s.modRail r f).hbm = s.hbm := rfl
@[simp] theorem State.modRail_net (s : State) (r : Nat) (f : RailState → RailState) : (s.modRail r f).net = s.net := rfl
@[simp] theorem State.modRail_hif (s : State) (r : Nat) (f : RailState → RailState) : (s.modRail r f).hif = s.hif := rfl
@[simp] theorem State.modRail_sin (s : State) (r : Nat) (f : RailState → RailState) : (s.modRail r f).sin = s.sin := rfl
@[simp] theorem State.modRail_aln (s : State) (r : Nat) (f : RailState → RailState) : (s.modRail r f).aln = s.aln := rfl
@[simp] theorem State.modRail_pln (s : State) (r : Nat) (f : RailState → RailState) : (s.modRail r f).pln = s.pln := rfl
@[simp] theorem State.modRail_lan (s : State) (r : Nat) (f : RailState → RailState) : (s.modRail r f).lan = s.lan := rfl
@[simp] theorem State.modRail_recovery (s : State) (r : Nat) (f : RailState → RailState) : (s.modRail r f).recovery = s.recovery := rfl
@[simp] theorem State.modRail_mirror (s : State) (r : Nat) (f : RailState → RailState) : (s.modRail r f).mirror = s.mirror := rfl
@[simp] theorem State.modRail_mgt (s : State) (r : Nat) (f : RailState → RailState) : (s.modRail r f).mgt = s.mgt := rfl
@[simp] theorem State.modRail_pins (s : State) (r : Nat) (f : RailState → RailState) : (s.modRail r f).pins = s.pins := rfl
@[simp] theorem State.modRail_outputs (s : State) (r : Nat) (f : RailState → RailState) : (s.modRail r f).outputs = s.outputs := rfl

@[simp] theorem State.modClock_pending (s : State) (k : Nat) (f : ClusterClock → ClusterClock) : (s.modClock k f).pending = s.pending := rfl
@[simp] theorem State.modClock_now (s : State) (k : Nat) (f : ClusterClock → ClusterClock) : (s.modClock k f).now = s.now := rfl
@[simp] theorem State.modClock_free (s : State) (k : Nat) (f : ClusterClock → ClusterClock) : (s.modClock k f).free = s.free := rfl
@[simp] theorem State.modClock_regs (s : State) (k : Nat) (f : ClusterClock → ClusterClock) : (s.modClock k f).regs = s.regs := rfl
@[simp] theorem State.modClock_mem (s : State) (k : Nat) (f : ClusterClock → ClusterClock) : (s.modClock k f).mem = s.mem := rfl
@[simp] theorem State.modClock_storePoison (s : State) (k : Nat) (f : ClusterClock → ClusterClock) : (s.modClock k f).storePoison = s.storePoison := rfl
@[simp] theorem State.modClock_hbmPoison (s : State) (k : Nat) (f : ClusterClock → ClusterClock) : (s.modClock k f).hbmPoison = s.hbmPoison := rfl
@[simp] theorem State.modClock_cores (s : State) (k : Nat) (f : ClusterClock → ClusterClock) : (s.modClock k f).cores = s.cores := rfl
@[simp] theorem State.modClock_graphs (s : State) (k : Nat) (f : ClusterClock → ClusterClock) : (s.modClock k f).graphs = s.graphs := rfl
@[simp] theorem State.modClock_cache (s : State) (k : Nat) (f : ClusterClock → ClusterClock) : (s.modClock k f).cache = s.cache := rfl
@[simp] theorem State.modClock_hbm (s : State) (k : Nat) (f : ClusterClock → ClusterClock) : (s.modClock k f).hbm = s.hbm := rfl
@[simp] theorem State.modClock_net (s : State) (k : Nat) (f : ClusterClock → ClusterClock) : (s.modClock k f).net = s.net := rfl
@[simp] theorem State.modClock_hif (s : State) (k : Nat) (f : ClusterClock → ClusterClock) : (s.modClock k f).hif = s.hif := rfl
@[simp] theorem State.modClock_sin (s : State) (k : Nat) (f : ClusterClock → ClusterClock) : (s.modClock k f).sin = s.sin := rfl
@[simp] theorem State.modClock_aln (s : State) (k : Nat) (f : ClusterClock → ClusterClock) : (s.modClock k f).aln = s.aln := rfl
@[simp] theorem State.modClock_pln (s : State) (k : Nat) (f : ClusterClock → ClusterClock) : (s.modClock k f).pln = s.pln := rfl
@[simp] theorem State.modClock_lan (s : State) (k : Nat) (f : ClusterClock → ClusterClock) : (s.modClock k f).lan = s.lan := rfl
@[simp] theorem State.modClock_recovery (s : State) (k : Nat) (f : ClusterClock → ClusterClock) : (s.modClock k f).recovery = s.recovery := rfl
@[simp] theorem State.modClock_mirror (s : State) (k : Nat) (f : ClusterClock → ClusterClock) : (s.modClock k f).mirror = s.mirror := rfl
@[simp] theorem State.modClock_mgt (s : State) (k : Nat) (f : ClusterClock → ClusterClock) : (s.modClock k f).mgt = s.mgt := rfl
@[simp] theorem State.modClock_pins (s : State) (k : Nat) (f : ClusterClock → ClusterClock) : (s.modClock k f).pins = s.pins := rfl
@[simp] theorem State.modClock_outputs (s : State) (k : Nat) (f : ClusterClock → ClusterClock) : (s.modClock k f).outputs = s.outputs := rfl

@[simp] theorem State.modSlot_pending (s : State) (k : Nat) (f : SlotRec → SlotRec) : (s.modSlot k f).pending = s.pending := rfl
@[simp] theorem State.modSlot_now (s : State) (k : Nat) (f : SlotRec → SlotRec) : (s.modSlot k f).now = s.now := rfl
@[simp] theorem State.modSlot_free (s : State) (k : Nat) (f : SlotRec → SlotRec) : (s.modSlot k f).free = s.free := rfl
@[simp] theorem State.modSlot_regs (s : State) (k : Nat) (f : SlotRec → SlotRec) : (s.modSlot k f).regs = s.regs := rfl
@[simp] theorem State.modSlot_mem (s : State) (k : Nat) (f : SlotRec → SlotRec) : (s.modSlot k f).mem = s.mem := rfl
@[simp] theorem State.modSlot_storePoison (s : State) (k : Nat) (f : SlotRec → SlotRec) : (s.modSlot k f).storePoison = s.storePoison := rfl
@[simp] theorem State.modSlot_hbmPoison (s : State) (k : Nat) (f : SlotRec → SlotRec) : (s.modSlot k f).hbmPoison = s.hbmPoison := rfl
@[simp] theorem State.modSlot_cores (s : State) (k : Nat) (f : SlotRec → SlotRec) : (s.modSlot k f).cores = s.cores := rfl
@[simp] theorem State.modSlot_graphs (s : State) (k : Nat) (f : SlotRec → SlotRec) : (s.modSlot k f).graphs = s.graphs := rfl
@[simp] theorem State.modSlot_cache (s : State) (k : Nat) (f : SlotRec → SlotRec) : (s.modSlot k f).cache = s.cache := rfl
@[simp] theorem State.modSlot_hbm (s : State) (k : Nat) (f : SlotRec → SlotRec) : (s.modSlot k f).hbm = s.hbm := rfl
@[simp] theorem State.modSlot_net (s : State) (k : Nat) (f : SlotRec → SlotRec) : (s.modSlot k f).net = s.net := rfl
@[simp] theorem State.modSlot_hif (s : State) (k : Nat) (f : SlotRec → SlotRec) : (s.modSlot k f).hif = s.hif := rfl
@[simp] theorem State.modSlot_sin (s : State) (k : Nat) (f : SlotRec → SlotRec) : (s.modSlot k f).sin = s.sin := rfl
@[simp] theorem State.modSlot_aln (s : State) (k : Nat) (f : SlotRec → SlotRec) : (s.modSlot k f).aln = s.aln := rfl
@[simp] theorem State.modSlot_pln (s : State) (k : Nat) (f : SlotRec → SlotRec) : (s.modSlot k f).pln = s.pln := rfl
@[simp] theorem State.modSlot_lan (s : State) (k : Nat) (f : SlotRec → SlotRec) : (s.modSlot k f).lan = s.lan := rfl
@[simp] theorem State.modSlot_recovery (s : State) (k : Nat) (f : SlotRec → SlotRec) : (s.modSlot k f).recovery = s.recovery := rfl
@[simp] theorem State.modSlot_mirror (s : State) (k : Nat) (f : SlotRec → SlotRec) : (s.modSlot k f).mirror = s.mirror := rfl
@[simp] theorem State.modSlot_thermal (s : State) (k : Nat) (f : SlotRec → SlotRec) : (s.modSlot k f).thermal = s.thermal := rfl
@[simp] theorem State.modSlot_pins (s : State) (k : Nat) (f : SlotRec → SlotRec) : (s.modSlot k f).pins = s.pins := rfl
@[simp] theorem State.modSlot_outputs (s : State) (k : Nat) (f : SlotRec → SlotRec) : (s.modSlot k f).outputs = s.outputs := rfl

@[simp] theorem State.modUpdate_pending (s : State) (f : UpdateState → UpdateState) : (s.modUpdate f).pending = s.pending := rfl
@[simp] theorem State.modUpdate_now (s : State) (f : UpdateState → UpdateState) : (s.modUpdate f).now = s.now := rfl
@[simp] theorem State.modUpdate_free (s : State) (f : UpdateState → UpdateState) : (s.modUpdate f).free = s.free := rfl
@[simp] theorem State.modUpdate_regs (s : State) (f : UpdateState → UpdateState) : (s.modUpdate f).regs = s.regs := rfl
@[simp] theorem State.modUpdate_mem (s : State) (f : UpdateState → UpdateState) : (s.modUpdate f).mem = s.mem := rfl
@[simp] theorem State.modUpdate_storePoison (s : State) (f : UpdateState → UpdateState) : (s.modUpdate f).storePoison = s.storePoison := rfl
@[simp] theorem State.modUpdate_hbmPoison (s : State) (f : UpdateState → UpdateState) : (s.modUpdate f).hbmPoison = s.hbmPoison := rfl
@[simp] theorem State.modUpdate_cores (s : State) (f : UpdateState → UpdateState) : (s.modUpdate f).cores = s.cores := rfl
@[simp] theorem State.modUpdate_graphs (s : State) (f : UpdateState → UpdateState) : (s.modUpdate f).graphs = s.graphs := rfl
@[simp] theorem State.modUpdate_cache (s : State) (f : UpdateState → UpdateState) : (s.modUpdate f).cache = s.cache := rfl
@[simp] theorem State.modUpdate_hbm (s : State) (f : UpdateState → UpdateState) : (s.modUpdate f).hbm = s.hbm := rfl
@[simp] theorem State.modUpdate_net (s : State) (f : UpdateState → UpdateState) : (s.modUpdate f).net = s.net := rfl
@[simp] theorem State.modUpdate_hif (s : State) (f : UpdateState → UpdateState) : (s.modUpdate f).hif = s.hif := rfl
@[simp] theorem State.modUpdate_sin (s : State) (f : UpdateState → UpdateState) : (s.modUpdate f).sin = s.sin := rfl
@[simp] theorem State.modUpdate_aln (s : State) (f : UpdateState → UpdateState) : (s.modUpdate f).aln = s.aln := rfl
@[simp] theorem State.modUpdate_pln (s : State) (f : UpdateState → UpdateState) : (s.modUpdate f).pln = s.pln := rfl
@[simp] theorem State.modUpdate_lan (s : State) (f : UpdateState → UpdateState) : (s.modUpdate f).lan = s.lan := rfl
@[simp] theorem State.modUpdate_recovery (s : State) (f : UpdateState → UpdateState) : (s.modUpdate f).recovery = s.recovery := rfl
@[simp] theorem State.modUpdate_mirror (s : State) (f : UpdateState → UpdateState) : (s.modUpdate f).mirror = s.mirror := rfl
@[simp] theorem State.modUpdate_thermal (s : State) (f : UpdateState → UpdateState) : (s.modUpdate f).thermal = s.thermal := rfl
@[simp] theorem State.modUpdate_pins (s : State) (f : UpdateState → UpdateState) : (s.modUpdate f).pins = s.pins := rfl
@[simp] theorem State.modUpdate_outputs (s : State) (f : UpdateState → UpdateState) : (s.modUpdate f).outputs = s.outputs := rfl

@[simp] theorem State.core_setCore (s : State) (c : Nat) (x : CoreState) (j : Nat) : (s.setCore c x).core j = if j = c then x else s.core j := by
  simp [State.core, State.setCore]
@[simp] theorem State.core_modCore (s : State) (c : Nat) (f : CoreState → CoreState) (j : Nat) : (s.modCore c f).core j = if j = c then f (s.core c) else s.core j := by
  simp [State.core, State.modCore]
@[simp] theorem State.link_modLink (s : State) (h : Nat) (f : LinkState → LinkState) (j : Nat) : (s.modLink h f).link j = if j = h then f (s.link h) else s.link j := by
  simp [State.link, State.modLink]
@[simp] theorem State.mc_modMc (s : State) (n : Nat) (f : McState → McState) (j : Nat) : (s.modMc n f).mc j = if j = n then f (s.mc n) else s.mc j := by
  simp [State.mc, State.modMc]
@[simp] theorem State.intake_modIntake (s : State) (h : Nat) (f : IntakeState → IntakeState) (j : Nat) : (s.modIntake h f).intake j = if j = h then f (s.intake h) else s.intake j := by
  simp [State.intake, State.modIntake]
@[simp] theorem State.lantern_modLantern (s : State) (l : Nat) (f : Lantern → Lantern) (j : Nat) : (s.modLantern l f).lantern j = if j = l then f (s.lantern l) else s.lantern j := by
  simp [State.lantern, State.modLantern]
@[simp] theorem State.hubMgt_modHubMgt (s : State) (h : Nat) (f : HubMgt → HubMgt) (j : Nat) : (s.modHubMgt h f).hubMgt j = if j = h then f (s.hubMgt h) else s.hubMgt j := by
  simp [State.hubMgt, State.modHubMgt]
@[simp] theorem State.planner_modPlanner (s : State) (h : Nat) (f : PlannerState → PlannerState) (j : Nat) : (s.modPlanner h f).planner j = if j = h then f (s.planner h) else s.planner j := by
  simp [State.planner, State.modPlanner]
@[simp] theorem State.testUnit_modTestUnit (s : State) (u : Nat) (f : TestUnit → TestUnit) (j : Nat) : (s.modTestUnit u f).testUnit j = if j = u then f (s.testUnit u) else s.testUnit j := by
  simp [State.testUnit, State.modTestUnit]
@[simp] theorem State.mirPort_modMirPort (s : State) (h : Nat) (f : MirPort → MirPort) (j : Nat) : (s.modMirPort h f).mirPort j = if j = h then f (s.mirPort h) else s.mirPort j := by
  simp [State.mirPort, State.modMirPort]
@[simp] theorem State.rail_modRail (s : State) (r : Nat) (f : RailState → RailState) (j : Nat) : (s.modRail r f).rail j = if j = r then f (s.rail r) else s.rail j := by
  simp [State.rail, State.modRail]
@[simp] theorem State.clusterClock_modClock (s : State) (k : Nat) (f : ClusterClock → ClusterClock) (j : Nat) : (s.modClock k f).clusterClock j = if j = k then f (s.clusterClock k) else s.clusterClock j := by
  simp [State.clusterClock, State.modClock]
@[simp] theorem State.slotRec_modSlot (s : State) (k : Nat) (f : SlotRec → SlotRec) (j : Nat) : (s.modSlot k f).slotRec j = if j = k then f (s.slotRec k) else s.slotRec j := by
  simp [State.slotRec, State.modSlot]
@[simp] theorem State.sq_modSq (s : State) (l q : Nat) (f : SqState → SqState) (m j : Nat) : (s.modSq l q f).sq m j = if ringKey m j = ringKey l q then f (s.sq l q) else s.sq m j := by
  simp [State.sq, State.modSq]
@[simp] theorem State.cq_modCq (s : State) (l q : Nat) (f : CqState → CqState) (m j : Nat) : (s.modCq l q f).cq m j = if ringKey m j = ringKey l q then f (s.cq l q) else s.cq m j := by
  simp [State.cq, State.modCq]
@[simp] theorem State.port_modPort (s : State) (d p : Nat) (f : PortState → PortState) (e q : Nat) : (s.modPort d p f).port e q = if 4 * e + q = 4 * d + p then f (s.port d p) else s.port e q := by
  simp [State.port, State.modPort]

/-- A register read after a register write. -/
theorem State.reg_setReg (s : State) (a b : RegAddr) (v : Word) :
    (s.setReg a v).reg b = if b.key = a.key then v ^^^ a.resetValue ^^^ b.resetValue else s.reg b := by
  simp only [State.reg, State.setReg, tblGet_set]
  split <;> rfl

/-- The register written reads the value written. -/
@[simp] theorem State.reg_setReg_same (s : State) (a : RegAddr) (v : Word) : (s.setReg a v).reg a = v := by
  simp [State.reg_setReg]

end Sys2Proof.Machine
end

