-- ==== Sys2Proof/Laws/Ops.lean ====
section
/-! SUPPORT. What the shared operations of `Machine/Ops.lean` can do: interrupts, error reports and the ledger queue touch only the
registers, the summary of the host link, the outputs and the ledger queue. -/

namespace Sys2Proof.Machine

@[simp] theorem State.msix_pending (s : State) (h v : Nat) : (s.msix h v).pending = s.pending := by
  simp only [State.msix]; repeat' split <;> try simp
@[simp] theorem State.msix_now (s : State) (h v : Nat) : (s.msix h v).now = s.now := by
  simp only [State.msix]; repeat' split <;> try simp
@[simp] theorem State.msix_free (s : State) (h v : Nat) : (s.msix h v).free = s.free := by
  simp only [State.msix]; repeat' split <;> try simp
@[simp] theorem State.msix_mem (s : State) (h v : Nat) : (s.msix h v).mem = s.mem := by
  simp only [State.msix]; repeat' split <;> try simp
@[simp] theorem State.msix_storePoison (s : State) (h v : Nat) : (s.msix h v).storePoison = s.storePoison := by
  simp only [State.msix]; repeat' split <;> try simp
@[simp] theorem State.msix_hbmPoison (s : State) (h v : Nat) : (s.msix h v).hbmPoison = s.hbmPoison := by
  simp only [State.msix]; repeat' split <;> try simp
@[simp] theorem State.msix_cores (s : State) (h v : Nat) : (s.msix h v).cores = s.cores := by
  simp only [State.msix]; repeat' split <;> try simp
@[simp] theorem State.msix_graphs (s : State) (h v : Nat) : (s.msix h v).graphs = s.graphs := by
  simp only [State.msix]; repeat' split <;> try simp
@[simp] theorem State.msix_cache (s : State) (h v : Nat) : (s.msix h v).cache = s.cache := by
  simp only [State.msix]; repeat' split <;> try simp
@[simp] theorem State.msix_hbm (s : State) (h v : Nat) : (s.msix h v).hbm = s.hbm := by
  simp only [State.msix]; repeat' split <;> try simp
@[simp] theorem State.msix_net (s : State) (h v : Nat) : (s.msix h v).net = s.net := by
  simp only [State.msix]; repeat' split <;> try simp
@[simp] theorem State.msix_hif (s : State) (h v : Nat) : (s.msix h v).hif = s.hif := by
  simp only [State.msix]; repeat' split <;> try simp
@[simp] theorem State.msix_sin (s : State) (h v : Nat) : (s.msix h v).sin = s.sin := by
  simp only [State.msix]; repeat' split <;> try simp
@[simp] theorem State.msix_aln (s : State) (h v : Nat) : (s.msix h v).aln = s.aln := by
  simp only [State.msix]; repeat' split <;> try simp
@[simp] theorem State.msix_pln (s : State) (h v : Nat) : (s.msix h v).pln = s.pln := by
  simp only [State.msix]; repeat' split <;> try simp
@[simp] theorem State.msix_lan (s : State) (h v : Nat) : (s.msix h v).lan = s.lan := by
  simp only [State.msix]; repeat' split <;> try simp
@[simp] theorem State.msix_recovery (s : State) (h v : Nat) : (s.msix h v).recovery = s.recovery := by
  simp only [State.msix]; repeat' split <;> try simp
@[simp] theorem State.msix_mirror (s : State) (h v : Nat) : (s.msix h v).mirror = s.mirror := by
  simp only [State.msix]; repeat' split <;> try simp
@[simp] theorem State.msix_thermal (s : State) (h v : Nat) : (s.msix h v).thermal = s.thermal := by
  simp only [State.msix]; repeat' split <;> try simp
@[simp] theorem State.msix_mgt (s : State) (h v : Nat) : (s.msix h v).mgt = s.mgt := by
  simp only [State.msix]; repeat' split <;> try simp
@[simp] theorem State.msix_pins (s : State) (h v : Nat) : (s.msix h v).pins = s.pins := by
  simp only [State.msix]; repeat' split <;> try simp

@[simp] theorem State.errIrqLink_pending (s : State) (h : Nat) : (s.errIrqLink h).pending = s.pending := by
  simp only [State.errIrqLink]; split <;> simp
@[simp] theorem State.errIrqLink_now (s : State) (h : Nat) : (s.errIrqLink h).now = s.now := by
  simp only [State.errIrqLink]; split <;> simp
@[simp] theorem State.errIrqLink_free (s : State) (h : Nat) : (s.errIrqLink h).free = s.free := by
  simp only [State.errIrqLink]; split <;> simp
@[simp] theorem State.errIrqLink_mem (s : State) (h : Nat) : (s.errIrqLink h).mem = s.mem := by
  simp only [State.errIrqLink]; split <;> simp
@[simp] theorem State.errIrqLink_storePoison (s : State) (h : Nat) : (s.errIrqLink h).storePoison = s.storePoison := by
  simp only [State.errIrqLink]; split <;> simp
@[simp] theorem State.errIrqLink_hbmPoison (s : State) (h : Nat) : (s.errIrqLink h).hbmPoison = s.hbmPoison := by
  simp only [State.errIrqLink]; split <;> simp
@[simp] theorem State.errIrqLink_cores (s : State) (h : Nat) : (s.errIrqLink h).cores = s.cores := by
  simp only [State.errIrqLink]; split <;> simp
@[simp] theorem State.errIrqLink_graphs (s : State) (h : Nat) : (s.errIrqLink h).graphs = s.graphs := by
  simp only [State.errIrqLink]; split <;> simp
@[simp] theorem State.errIrqLink_cache (s : State) (h : Nat) : (s.errIrqLink h).cache = s.cache := by
  simp only [State.errIrqLink]; split <;> simp
@[simp] theorem State.errIrqLink_hbm (s : State) (h : Nat) : (s.errIrqLink h).hbm = s.hbm := by
  simp only [State.errIrqLink]; split <;> simp
@[simp] theorem State.errIrqLink_net (s : State) (h : Nat) : (s.errIrqLink h).net = s.net := by
  simp only [State.errIrqLink]; split <;> simp
@[simp] theorem State.errIrqLink_hif (s : State) (h : Nat) : (s.errIrqLink h).hif = s.hif := by
  simp only [State.errIrqLink]; split <;> simp
@[simp] theorem State.errIrqLink_sin (s : State) (h : Nat) : (s.errIrqLink h).sin = s.sin := by
  simp only [State.errIrqLink]; split <;> simp
@[simp] theorem State.errIrqLink_aln (s : State) (h : Nat) : (s.errIrqLink h).aln = s.aln := by
  simp only [State.errIrqLink]; split <;> simp
@[simp] theorem State.errIrqLink_pln (s : State) (h : Nat) : (s.errIrqLink h).pln = s.pln := by
  simp only [State.errIrqLink]; split <;> simp
@[simp] theorem State.errIrqLink_lan (s : State) (h : Nat) : (s.errIrqLink h).lan = s.lan := by
  simp only [State.errIrqLink]; split <;> simp
@[simp] theorem State.errIrqLink_recovery (s : State) (h : Nat) : (s.errIrqLink h).recovery = s.recovery := by
  simp only [State.errIrqLink]; split <;> simp
@[simp] theorem State.errIrqLink_mirror (s : State) (h : Nat) : (s.errIrqLink h).mirror = s.mirror := by
  simp only [State.errIrqLink]; split <;> simp
@[simp] theorem State.errIrqLink_thermal (s : State) (h : Nat) : (s.errIrqLink h).thermal = s.thermal := by
  simp only [State.errIrqLink]; split <;> simp
@[simp] theorem State.errIrqLink_mgt (s : State) (h : Nat) : (s.errIrqLink h).mgt = s.mgt := by
  simp only [State.errIrqLink]; split <;> simp
@[simp] theorem State.errIrqLink_pins (s : State) (h : Nat) : (s.errIrqLink h).pins = s.pins := by
  simp only [State.errIrqLink]; split <;> simp

@[simp] theorem State.errIrq_pending (s : State)  : (s.errIrq ).pending = s.pending := by
  simp [State.errIrq]
@[simp] theorem State.errIrq_now (s : State)  : (s.errIrq ).now = s.now := by
  simp [State.errIrq]
@[simp] theorem State.errIrq_free (s : State)  : (s.errIrq ).free = s.free := by
  simp [State.errIrq]
@[simp] theorem State.errIrq_mem (s : State)  : (s.errIrq ).mem = s.mem := by
  simp [State.errIrq]
@[simp] theorem State.errIrq_storePoison (s : State)  : (s.errIrq ).storePoison = s.storePoison := by
  simp [State.errIrq]
@[simp] theorem State.errIrq_hbmPoison (s : State)  : (s.errIrq ).hbmPoison = s.hbmPoison := by
  simp [State.errIrq]
@[simp] theorem State.errIrq_cores (s : State)  : (s.errIrq ).cores = s.cores := by
  simp [State.errIrq]
@[simp] theorem State.errIrq_graphs (s : State)  : (s.errIrq ).graphs = s.graphs := by
  simp [State.errIrq]
@[simp] theorem State.errIrq_cache (s : State)  : (s.errIrq ).cache = s.cache := by
  simp [State.errIrq]
@[simp] theorem State.errIrq_hbm (s : State)  : (s.errIrq ).hbm = s.hbm := by
  simp [State.errIrq]
@[simp] theorem State.errIrq_net (s : State)  : (s.errIrq ).net = s.net := by
  simp [State.errIrq]
@[simp] theorem State.errIrq_hif (s : State)  : (s.errIrq ).hif = s.hif := by
  simp [State.errIrq]
@[simp] theorem State.errIrq_sin (s : State)  : (s.errIrq ).sin = s.sin := by
  simp [State.errIrq]
@[simp] theorem State.errIrq_aln (s : State)  : (s.errIrq ).aln = s.aln := by
  simp [State.errIrq]
@[simp] theorem State.errIrq_pln (s : State)  : (s.errIrq ).pln = s.pln := by
  simp [State.errIrq]
@[simp] theorem State.errIrq_lan (s : State)  : (s.errIrq ).lan = s.lan := by
  simp [State.errIrq]
@[simp] theorem State.errIrq_recovery (s : State)  : (s.errIrq ).recovery = s.recovery := by
  simp [State.errIrq]
@[simp] theorem State.errIrq_mirror (s : State)  : (s.errIrq ).mirror = s.mirror := by
  simp [State.errIrq]
@[simp] theorem State.errIrq_thermal (s : State)  : (s.errIrq ).thermal = s.thermal := by
  simp [State.errIrq]
@[simp] theorem State.errIrq_mgt (s : State)  : (s.errIrq ).mgt = s.mgt := by
  simp [State.errIrq]
@[simp] theorem State.errIrq_pins (s : State)  : (s.errIrq ).pins = s.pins := by
  simp [State.errIrq]

@[simp] theorem State.summarise_pending (s : State) (b : Block) : (s.summarise b).pending = s.pending := by
  simp only [State.summarise]; repeat' split <;> try simp
@[simp] theorem State.summarise_now (s : State) (b : Block) : (s.summarise b).now = s.now := by
  simp only [State.summarise]; repeat' split <;> try simp
@[simp] theorem State.summarise_free (s : State) (b : Block) : (s.summarise b).free = s.free := by
  simp only [State.summarise]; repeat' split <;> try simp
@[simp] theorem State.summarise_mem (s : State) (b : Block) : (s.summarise b).mem = s.mem := by
  simp only [State.summarise]; repeat' split <;> try simp
@[simp] theorem State.summarise_storePoison (s : State) (b : Block) : (s.summarise b).storePoison = s.storePoison := by
  simp only [State.summarise]; repeat' split <;> try simp
@[simp] theorem State.summarise_hbmPoison (s : State) (b : Block) : (s.summarise b).hbmPoison = s.hbmPoison := by
  simp only [State.summarise]; repeat' split <;> try simp
@[simp] theorem State.summarise_cores (s : State) (b : Block) : (s.summarise b).cores = s.cores := by
  simp only [State.summarise]; repeat' split <;> try simp
@[simp] theorem State.summarise_graphs (s : State) (b : Block) : (s.summarise b).graphs = s.graphs := by
  simp only [State.summarise]; repeat' split <;> try simp
@[simp] theorem State.summarise_cache (s : State) (b : Block) : (s.summarise b).cache = s.cache := by
  simp only [State.summarise]; repeat' split <;> try simp
@[simp] theorem State.summarise_hbm (s : State) (b : Block) : (s.summarise b).hbm = s.hbm := by
  simp only [State.summarise]; repeat' split <;> try simp
@[simp] theorem State.summarise_net (s : State) (b : Block) : (s.summarise b).net = s.net := by
  simp only [State.summarise]; repeat' split <;> try simp
@[simp] theorem State.summarise_sin (s : State) (b : Block) : (s.summarise b).sin = s.sin := by
  simp only [State.summarise]; repeat' split <;> try simp
@[simp] theorem State.summarise_aln (s : State) (b : Block) : (s.summarise b).aln = s.aln := by
  simp only [State.summarise]; repeat' split <;> try simp
@[simp] theorem State.summarise_pln (s : State) (b : Block) : (s.summarise b).pln = s.pln := by
  simp only [State.summarise]; repeat' split <;> try simp
@[simp] theorem State.summarise_lan (s : State) (b : Block) : (s.summarise b).lan = s.lan := by
  simp only [State.summarise]; repeat' split <;> try simp
@[simp] theorem State.summarise_recovery (s : State) (b : Block) : (s.summarise b).recovery = s.recovery := by
  simp only [State.summarise]; repeat' split <;> try simp
@[simp] theorem State.summarise_mirror (s : State) (b : Block) : (s.summarise b).mirror = s.mirror := by
  simp only [State.summarise]; repeat' split <;> try simp
@[simp] theorem State.summarise_thermal (s : State) (b : Block) : (s.summarise b).thermal = s.thermal := by
  simp only [State.summarise]; repeat' split <;> try simp
@[simp] theorem State.summarise_mgt (s : State) (b : Block) : (s.summarise b).mgt = s.mgt := by
  simp only [State.summarise]; repeat' split <;> try simp
@[simp] theorem State.summarise_pins (s : State) (b : Block) : (s.summarise b).pins = s.pins := by
  simp only [State.summarise]; repeat' split <;> try simp

@[simp] theorem State.raise_pending (s : State) (b : Block) (i n m : Nat) : (s.raise b i n m).pending = s.pending := by
  simp only [State.raise]; repeat' split <;> try simp
@[simp] theorem State.raise_now (s : State) (b : Block) (i n m : Nat) : (s.raise b i n m).now = s.now := by
  simp only [State.raise]; repeat' split <;> try simp
@[simp] theorem State.raise_free (s : State) (b : Block) (i n m : Nat) : (s.raise b i n m).free = s.free := by
  simp only [State.raise]; repeat' split <;> try simp
@[simp] theorem State.raise_mem (s : State) (b : Block) (i n m : Nat) : (s.raise b i n m).mem = s.mem := by
  simp only [State.raise]; repeat' split <;> try simp
@[simp] theorem State.raise_storePoison (s : State) (b : Block) (i n m : Nat) : (s.raise b i n m).storePoison = s.storePoison := by
  simp only [State.raise]; repeat' split <;> try simp
@[simp] theorem State.raise_hbmPoison (s : State) (b : Block) (i n m : Nat) : (s.raise b i n m).hbmPoison = s.hbmPoison := by
  simp only [State.raise]; repeat' split <;> try simp
@[simp] theorem State.raise_cores (s : State) (b : Block) (i n m : Nat) : (s.raise b i n m).cores = s.cores := by
  simp only [State.raise]; repeat' split <;> try simp
@[simp] theorem State.raise_graphs (s : State) (b : Block) (i n m : Nat) : (s.raise b i n m).graphs = s.graphs := by
  simp only [State.raise]; repeat' split <;> try simp
@[simp] theorem State.raise_cache (s : State) (b : Block) (i n m : Nat) : (s.raise b i n m).cache = s.cache := by
  simp only [State.raise]; repeat' split <;> try simp
@[simp] theorem State.raise_hbm (s : State) (b : Block) (i n m : Nat) : (s.raise b i n m).hbm = s.hbm := by
  simp only [State.raise]; repeat' split <;> try simp
@[simp] theorem State.raise_net (s : State) (b : Block) (i n m : Nat) : (s.raise b i n m).net = s.net := by
  simp only [State.raise]; repeat' split <;> try simp
@[simp] theorem State.raise_sin (s : State) (b : Block) (i n m : Nat) : (s.raise b i n m).sin = s.sin := by
  simp only [State.raise]; repeat' split <;> try simp
@[simp] theorem State.raise_aln (s : State) (b : Block) (i n m : Nat) : (s.raise b i n m).aln = s.aln := by
  simp only [State.raise]; repeat' split <;> try simp
@[simp] theorem State.raise_pln (s : State) (b : Block) (i n m : Nat) : (s.raise b i n m).pln = s.pln := by
  simp only [State.raise]; repeat' split <;> try simp
@[simp] theorem State.raise_lan (s : State) (b : Block) (i n m : Nat) : (s.raise b i n m).lan = s.lan := by
  simp only [State.raise]; repeat' split <;> try simp
@[simp] theorem State.raise_recovery (s : State) (b : Block) (i n m : Nat) : (s.raise b i n m).recovery = s.recovery := by
  simp only [State.raise]; repeat' split <;> try simp
@[simp] theorem State.raise_mirror (s : State) (b : Block) (i n m : Nat) : (s.raise b i n m).mirror = s.mirror := by
  simp only [State.raise]; repeat' split <;> try simp
@[simp] theorem State.raise_thermal (s : State) (b : Block) (i n m : Nat) : (s.raise b i n m).thermal = s.thermal := by
  simp only [State.raise]; repeat' split <;> try simp
@[simp] theorem State.raise_mgt (s : State) (b : Block) (i n m : Nat) : (s.raise b i n m).mgt = s.mgt := by
  simp only [State.raise]; repeat' split <;> try simp
@[simp] theorem State.raise_pins (s : State) (b : Block) (i n m : Nat) : (s.raise b i n m).pins = s.pins := by
  simp only [State.raise]; repeat' split <;> try simp

@[simp] theorem State.log_pending (s : State) (e : Event) (d : Nat) (l : List Nat) : (s.log e d l).pending = s.pending := by
  simp only [State.log]; split <;> simp
@[simp] theorem State.log_now (s : State) (e : Event) (d : Nat) (l : List Nat) : (s.log e d l).now = s.now := by
  simp only [State.log]; split <;> simp
@[simp] theorem State.log_free (s : State) (e : Event) (d : Nat) (l : List Nat) : (s.log e d l).free = s.free := by
  simp only [State.log]; split <;> simp
@[simp] theorem State.log_mem (s : State) (e : Event) (d : Nat) (l : List Nat) : (s.log e d l).mem = s.mem := by
  simp only [State.log]; split <;> simp
@[simp] theorem State.log_storePoison (s : State) (e : Event) (d : Nat) (l : List Nat) : (s.log e d l).storePoison = s.storePoison := by
  simp only [State.log]; split <;> simp
@[simp] theorem State.log_hbmPoison (s : State) (e : Event) (d : Nat) (l : List Nat) : (s.log e d l).hbmPoison = s.hbmPoison := by
  simp only [State.log]; split <;> simp
@[simp] theorem State.log_cores (s : State) (e : Event) (d : Nat) (l : List Nat) : (s.log e d l).cores = s.cores := by
  simp only [State.log]; split <;> simp
@[simp] theorem State.log_graphs (s : State) (e : Event) (d : Nat) (l : List Nat) : (s.log e d l).graphs = s.graphs := by
  simp only [State.log]; split <;> simp
@[simp] theorem State.log_cache (s : State) (e : Event) (d : Nat) (l : List Nat) : (s.log e d l).cache = s.cache := by
  simp only [State.log]; split <;> simp
@[simp] theorem State.log_hbm (s : State) (e : Event) (d : Nat) (l : List Nat) : (s.log e d l).hbm = s.hbm := by
  simp only [State.log]; split <;> simp
@[simp] theorem State.log_net (s : State) (e : Event) (d : Nat) (l : List Nat) : (s.log e d l).net = s.net := by
  simp only [State.log]; split <;> simp
@[simp] theorem State.log_sin (s : State) (e : Event) (d : Nat) (l : List Nat) : (s.log e d l).sin = s.sin := by
  simp only [State.log]; split <;> simp
@[simp] theorem State.log_aln (s : State) (e : Event) (d : Nat) (l : List Nat) : (s.log e d l).aln = s.aln := by
  simp only [State.log]; split <;> simp
@[simp] theorem State.log_pln (s : State) (e : Event) (d : Nat) (l : List Nat) : (s.log e d l).pln = s.pln := by
  simp only [State.log]; split <;> simp
@[simp] theorem State.log_lan (s : State) (e : Event) (d : Nat) (l : List Nat) : (s.log e d l).lan = s.lan := by
  simp only [State.log]; split <;> simp
@[simp] theorem State.log_recovery (s : State) (e : Event) (d : Nat) (l : List Nat) : (s.log e d l).recovery = s.recovery := by
  simp only [State.log]; split <;> simp
@[simp] theorem State.log_mirror (s : State) (e : Event) (d : Nat) (l : List Nat) : (s.log e d l).mirror = s.mirror := by
  simp only [State.log]; split <;> simp
@[simp] theorem State.log_thermal (s : State) (e : Event) (d : Nat) (l : List Nat) : (s.log e d l).thermal = s.thermal := by
  simp only [State.log]; split <;> simp
@[simp] theorem State.log_pins (s : State) (e : Event) (d : Nat) (l : List Nat) : (s.log e d l).pins = s.pins := by
  simp only [State.log]; split <;> simp

/-- An event is appended to the ledger queue while it has room; a full queue stays as it is (R471). -/
theorem State.log_queue (s : State) (e : Event) (d : Nat) (l : List Nat) :
    (s.log e d l).mgt.queue = if s.mgt.queue.length < ledgerQueueMax then
      s.mgt.queue ++ [{ ev := e, die := d, detail := l, at_ := s.now }] else s.mgt.queue := by
  simp only [State.log]; split <;> simp

/-- With room, logging changes nothing but the ledger queue. -/
theorem State.log_room (s : State) (e : Event) (d : Nat) (l : List Nat) (h : s.mgt.queue.length < ledgerQueueMax) :
    s.log e d l = { s with mgt := { s.mgt with queue := s.mgt.queue ++ [{ ev := e, die := d, detail := l, at_ := s.now }] } } := by
  simp [State.log, h]

@[simp] theorem State.raise_mgt_queue (s : State) (b : Block) (i n m : Nat) : (s.raise b i n m).mgt.queue = s.mgt.queue := by simp

/-! ### Registers -/

/-- Names of registers are told apart by their numbers. -/
theorem Reg.ctorIdx_inj (a b : Reg) (h : a.ctorIdx = b.ctorIdx) : a = b := by
  rw [← Reg.ofNat_ctorIdx a, ← Reg.ofNat_ctorIdx b, h]

/-- A register address within the package's instances, units and words. -/
def RegAddr.ok (a : RegAddr) : Prop := a.inst < 64 ∧ a.unit < 64 ∧ a.word < 512

/-- Two registers of the package have different keys. -/
theorem RegAddr.key_inj (a b : RegAddr) (ha : a.ok) (hb : b.ok) (h : a.key = b.key) : a = b := by
  obtain ⟨ha1, ha2, ha3⟩ := ha
  obtain ⟨hb1, hb2, hb3⟩ := hb
  simp only [RegAddr.key] at h
  have h1 : a.word = b.word := by omega
  have h2 : a.unit = b.unit := by omega
  have h3 : a.inst = b.inst := by omega
  have h4 : a.reg = b.reg := Reg.ctorIdx_inj _ _ (by omega)
  cases a; cases b; simp_all

/-- A write to one register leaves the others. -/
theorem State.reg_setReg_ne (s : State) (a b : RegAddr) (v : Word) (ha : a.ok) (hb : b.ok) (h : b ≠ a) : (s.setReg a v).reg b = s.reg b := by
  rw [State.reg_setReg, if_neg]
  exact fun hk => h (RegAddr.key_inj b a hb ha hk)

/-- An interrupt changes no register but the pending bits of its vector. -/
theorem State.msix_reg (s : State) (h v : Nat) (a : RegAddr) (hh : h < 64) (hv : v < 64) (ha : a.ok) (hr : a.reg ≠ .MSIX_PBA) :
    (s.msix h v).reg a = s.reg a := by
  simp only [State.msix]
  repeat' split
  · refine State.reg_setReg_ne _ _ _ _ ⟨hh, (by decide : 0 < 64), by show v / 32 < 512; omega⟩ ha ?_
    intro h'; exact hr (by rw [h'])
  · rfl
  · rfl

theorem State.errIrqLink_reg (s : State) (h : Nat) (a : RegAddr) (hh : h < 64) (ha : a.ok) (hr : a.reg ≠ .MSIX_PBA) :
    (s.errIrqLink h).reg a = s.reg a := by
  simp only [State.errIrqLink]
  split
  · refine State.msix_reg _ _ _ _ hh ?_ ha hr
    exact Nat.mod_lt _ (by decide)
  · rfl

/-- Forming a summary bit anew changes no register but pending bits of MSI-X. -/
theorem State.summarise_reg (s : State) (b : Block) (a : RegAddr) (ha : a.ok) (hr : a.reg ≠ .MSIX_PBA) :
    (s.summarise b).reg a = s.reg a := by
  simp only [State.summarise, State.errIrq]
  repeat' split
  · rw [State.errIrqLink_reg _ 1 a (by decide) ha hr, State.errIrqLink_reg _ 0 a (by decide) ha hr]; rfl
  · rfl
  · rfl

/-- A raised error sets its bit in the status register of its block. -/
theorem State.raise_status (s : State) (b : Block) (i n m : Nat) (st en : Reg) (f : Option Reg) (hb : blockErrRegs b = some (st, en, f))
    (hf : ∀ x, f = some x → x ≠ st) (hi : i < 64) (hst : st ≠ .MSIX_PBA) :
    (s.raise b i n m).reg (ra st i) = s.reg (ra st i) ||| word (2 ^ n) := by
  simp only [State.raise, hb]
  rw [State.summarise_reg _ _ _ ⟨hi, (by decide : 0 < 64), (by decide : 0 < 512)⟩ hst, State.reg_setReg_same]
  cases f with
  | none => rfl
  | some x =>
    dsimp only
    split
    · rw [State.reg_setReg_ne _ _ _ _ ⟨hi, (by decide : 0 < 64), (by decide : 0 < 512)⟩ ⟨hi, (by decide : 0 < 64), (by decide : 0 < 512)⟩]
      intro h
      exact hf x rfl (congrArg RegAddr.reg h).symm
    · rfl

/-- A raised error leaves every register but its block's status and first-error registers and pending bits of MSI-X. -/
theorem State.raise_reg (s : State) (b : Block) (i n m : Nat) (a : RegAddr) (ha : a.ok) (hi : i < 64) (hp : a.reg ≠ .MSIX_PBA)
    (hr : ∀ st en f, blockErrRegs b = some (st, en, f) → a.reg ≠ st ∧ ∀ x, f = some x → a.reg ≠ x) :
    (s.raise b i n m).reg a = s.reg a := by
  simp only [State.raise]
  split
  · rfl
  · rename_i st en f he
    have hk : ∀ r, a.reg ≠ r → a ≠ ra r i := fun r h h' => h (by rw [h'])
    have ho : ∀ r, (ra r i).ok := fun r => ⟨hi, (by decide : 0 < 64), (by decide : 0 < 512)⟩
    rw [State.summarise_reg _ _ _ ha hp, State.reg_setReg_ne _ _ _ _ (ho st) ha (hk st (hr _ _ _ he).1)]
    cases f with
    | none => rfl
    | some x =>
      dsimp only
      split
      · exact State.reg_setReg_ne _ _ _ _ (ho x) ha (hk x ((hr _ _ _ he).2 x rfl))
      · rfl

/-- Logging leaves every register but the count of dropped entries, the management error registers and pending bits of MSI-X; with
room, all of them. -/
@[simp] theorem State.log_regs_room (s : State) (e : Event) (d : Nat) (l : List Nat) (h : s.mgt.queue.length < ledgerQueueMax) :
    (s.log e d l).regs = s.regs := by rw [State.log_room _ _ _ _ h]

/-- The summary of the error blocks leaves rings and links. -/
theorem State.summarise_rings (s : State) (b : Block) :
    (s.summarise b).hif.sqs = s.hif.sqs ∧ (s.summarise b).hif.cqs = s.hif.cqs ∧ (s.summarise b).hif.links = s.hif.links ∧
    (s.summarise b).hif.hostReady = s.hif.hostReady ∧ (s.summarise b).hif.locked = s.hif.locked := by
  unfold State.summarise
  dsimp only
  split
  · simp
  · split <;> simp

/-- A raised error leaves rings and links. -/
theorem State.raise_rings (s : State) (b : Block) (i n m : Nat) :
    (s.raise b i n m).hif.sqs = s.hif.sqs ∧ (s.raise b i n m).hif.cqs = s.hif.cqs ∧ (s.raise b i n m).hif.links = s.hif.links ∧
    (s.raise b i n m).hif.hostReady = s.hif.hostReady ∧ (s.raise b i n m).hif.locked = s.hif.locked := by
  unfold State.raise
  split
  · simp
  · rename_i st en fst _
    dsimp only
    have h := fun s => State.summarise_rings s b
    refine ⟨(h _).1.trans ?_, (h _).2.1.trans ?_, (h _).2.2.1.trans ?_, (h _).2.2.2.1.trans ?_, (h _).2.2.2.2.trans ?_⟩ <;>
      (cases fst <;> simp [State.setReg]; split <;> rfl)

/-- The bit of a raised error reads 1. -/
theorem word_bit (n : Nat) (hn : n < 32) : (word (2 ^ n)).getLsbD n = true := by
  simp only [word, BitVec.getLsbD_ofNat, Nat.testBit_two_pow_self, hn, decide_true, Bool.and_self]

theorem State.raise_bit (s : State) (b : Block) (i n m : Nat) (st en : Reg) (f : Option Reg) (hb : blockErrRegs b = some (st, en, f))
    (hf : ∀ x, f = some x → x ≠ st) (hi : i < 64) (hst : st ≠ .MSIX_PBA) (hn : n < 32) :
    ((s.raise b i n m).reg (ra st i)).getLsbD n = true := by
  rw [State.raise_status s b i n m st en f hb hf hi hst, BitVec.getLsbD_or, word_bit n hn, Bool.or_true]

end Sys2Proof.Machine
end

