-- ==== Sys2Proof/Laws/Engine.lean ====
section
/-! SUPPORT. What an engine's instruction does when it starts and ends: one lemma for the dispatch, one for the writes, one for the whole
instruction. -/

namespace Sys2Proof.Machine

/-! ### The dispatch (R97) -/

/-- What the dispatch of words never changes: everything but the queues, the PC and the loops. -/
structure DispatchKeeps (k k' : CoreState) : Prop where
  run : k'.run = k.run
  flags : k'.flags = k.flags
  acc : k'.acc = k.acc
  active : k'.active = k.active
  loading : k'.loading = k.loading
  ap : k'.ap = k.ap
  slots : k'.slots = k.slots
  sent : k'.sent = k.sent
  bound : k'.bound = k.bound
  poisoned : k'.poisoned = k.poisoned
  stopped : k'.stopped = k.stopped
  waitDecision : k'.waitDecision = k.waitDecision
  rerun : k'.rerun = k.rerun
  sigSum : k'.sigSum = k.sigSum
  sigLines : k'.sigLines = k.sigLines
  frame : k'.frame = k.frame
  queue : ∀ e, ∃ more, k'.queue e = k.queue e ++ more

theorem DispatchKeeps.refl (k : CoreState) : DispatchKeeps k k := by
  constructor <;> first | rfl | exact fun e => ⟨[], by simp⟩

theorem DispatchKeeps.trans {a b c : CoreState} (h : DispatchKeeps a b) (g : DispatchKeeps b c) : DispatchKeeps a c := by
  constructor
  case queue =>
    intro e
    obtain ⟨x, hx⟩ := h.queue e
    obtain ⟨y, hy⟩ := g.queue e
    exact ⟨x ++ y, by rw [hy, hx, List.append_assoc]⟩
  all_goals first
    | exact g.run.trans h.run | exact g.flags.trans h.flags | exact g.acc.trans h.acc | exact g.active.trans h.active
    | exact g.loading.trans h.loading | exact g.ap.trans h.ap | exact g.slots.trans h.slots | exact g.sent.trans h.sent
    | exact g.bound.trans h.bound | exact g.poisoned.trans h.poisoned | exact g.stopped.trans h.stopped
    | exact g.waitDecision.trans h.waitDecision | exact g.rerun.trans h.rerun | exact g.sigSum.trans h.sigSum
    | exact g.sigLines.trans h.sigLines | exact g.frame.trans h.frame

theorem DispatchKeeps.advance (k : CoreState) : DispatchKeeps k k.advance := by
  constructor <;> first | rfl | (intro e; exact ⟨[], by simp [CoreState.advance, CoreState.queue]⟩)

theorem DispatchKeeps.enqueue (k k' : CoreState) (w : IWord) (h : k.enqueue w = some k') : DispatchKeeps k k' := by
  unfold CoreState.enqueue at h
  split at h <;> (repeat' split at h) <;> first
    | cases h; done
    | (cases h
       constructor <;> first
         | rfl
         | (intro e; rcases e with _ | _ | _ | _ | e <;> first | exact ⟨[w], rfl⟩ | exact ⟨[], by simp [CoreState.queue]⟩))

theorem DispatchKeeps.pump (n : Nat) (k : CoreState) : DispatchKeeps k (pump n k) := by
  induction n generalizing k with
  | zero => exact .refl k
  | succ n ih =>
    rw [Machine.pump]
    split
    · dsimp only
      split
      · split
        · rename_i k' h
          exact ((DispatchKeeps.enqueue k k' _ h).trans (.advance k')).trans (ih _)
        · exact .refl k
      · exact .refl k
    · exact .refl k

/-- A running pass goes on: no pass starts in its place. -/
theorem DispatchKeeps.settle (k : CoreState) (h : k.run = .RUNNING) : DispatchKeeps k k.settle := by
  have : k.startNext = k := by simp [CoreState.startNext, h]
  rw [CoreState.settle, this]
  exact .pump _ k

/-! ### Writes -/

theorem writeBlocks_frame (n : Nat) (s : State) (a : Nat) (bs : List Byte) :
    writeBlocks s a bs n = { s with mem := (writeBlocks s a bs n).mem } := by
  induction n generalizing s a bs with
  | zero => rfl
  | succ n ih =>
    cases bs with
    | nil => rfl
    | cons b r =>
      simp only [writeBlocks]
      split
      · exact ih _ _ _
      · rw [ih]

theorem State.writeMem_frame (s : State) (a : Nat) (bs : List Byte) (p : Bool) :
    s.writeMem a bs p = { s with mem := (s.writeMem a bs p).mem, storePoison := (s.writeMem a bs p).storePoison
                                 hbmPoison := (s.writeMem a bs p).hbmPoison } := by
  unfold State.writeMem State.markPoison
  rw [writeBlocks_frame]
  split <;> split <;> rfl

/-- The bytes that a write leaves do not depend on its poison. -/
theorem State.writeMem_mem (s : State) (a : Nat) (bs : List Byte) (p q : Bool) : (s.writeMem a bs p).mem = (s.writeMem a bs q).mem := by
  have h : ∀ (u : State) (n : Nat) (b : Bool), (u.markPoison a n b).mem = u.mem := by
    intro u n b; unfold State.markPoison; split <;> split <;> rfl
  unfold State.writeMem; rw [h, h]

/-- A list of writes changes memory and its poison marks only. -/
theorem State.storeAll_frame (l : List (Nat × List Byte × Bool)) (s : State) :
    ∃ m p q, s.storeAll l = { s with mem := m, storePoison := p, hbmPoison := q } := by
  induction l generalizing s with
  | nil => exact ⟨s.mem, s.storePoison, s.hbmPoison, rfl⟩
  | cons x r ih =>
    obtain ⟨m, p, q, h⟩ := ih (s.writeMem x.1 x.2.1 x.2.2)
    refine ⟨m, p, q, ?_⟩
    show (s.writeMem x.1 x.2.1 x.2.2).storeAll r = _
    rw [h, State.writeMem_frame]

/-- Nothing else depends on memory: the writes of a list commute with the other fields. -/
theorem State.storeAll_nil (s : State) : s.storeAll [] = s := rfl

/-! ### The end of an instruction (R97, R98, R105) -/

theorem flags_after (a k k' : CoreState) (w : IWord) (hk : k.flags = (a.takeFlag w).flags) (h : k.post w = some k') (i : Nat) :
    tblGet 0 k'.flags i = flagAfter a.flags w i := by
  unfold CoreState.takeFlag at hk
  unfold CoreState.post at h
  unfold flagAfter
  by_cases h1 : w.waitEn = true <;> by_cases h2 : w.postEn = true <;>
    simp only [h1, h2, if_true, if_false, Bool.false_eq_true] at h hk
  · split at h <;> cases h
    simp only [tblGet_mod, hk]
    by_cases a : i = w.waitFlag <;> by_cases b : i = w.postFlag <;> simp_all
  · cases h; rw [hk]; simp only [tblGet_mod]; by_cases a : i = w.waitFlag <;> simp_all
  · split at h <;> cases h
    simp only [tblGet_mod, hk]; by_cases b : i = w.postFlag <;> simp_all
  · cases h; rw [hk]; simp_all

theorem post_flags (a b : CoreState) (w : IWord) (h : a.flags = b.flags) : (a.post w).isSome = (b.post w).isSome := by
  unfold CoreState.post; rw [h]
  by_cases h1 : w.postEn = true <;> simp only [h1, if_true, if_false, Bool.false_eq_true, Option.isSome_some]
  by_cases h2 : tblGet 0 b.flags w.postFlag < 255 <;> simp only [h2, if_true, if_false, Option.isSome_some, Option.isSome_none]

theorem takeFlag_flags (a b : CoreState) (w : IWord) (h : a.flags = b.flags) : (a.takeFlag w).flags = (b.takeFlag w).flags := by
  unfold CoreState.takeFlag; split <;> simp [h]

/-- What taking a flag, counting and posting keep of a core. -/
theorem post_keeps (a b : CoreState) (w : IWord) (h : a.post w = some b) : ∃ f, b = { a with flags := f } := by
  unfold CoreState.post at h
  split at h
  · split at h
    · cases h; exact ⟨_, rfl⟩
    · cases h
  · cases h; exact ⟨a.flags, rfl⟩

theorem takeFlag_keeps (a : CoreState) (w : IWord) : ∃ f, a.takeFlag w = { a with flags := f } := by
  unfold CoreState.takeFlag; split
  · exact ⟨_, rfl⟩
  · exact ⟨a.flags, rfl⟩

theorem count_keeps (a : CoreState) (w : IWord) (c : FitCounts) : ∃ x, a.count w c = { a with slots := x } := by
  unfold CoreState.count; split
  · exact ⟨_, rfl⟩
  · exact ⟨a.slots, rfl⟩

@[simp] theorem dequeue_queue (k : CoreState) (e : Nat) : (k.dequeue e).queue e = (k.queue e).tail := by
  rcases e with _ | _ | _ | _ | e <;> simp [CoreState.dequeue, CoreState.queue]

theorem dequeue_keeps (k : CoreState) (e : Nat) : ∃ a b c d f, k.dequeue e =
    { k with queueTe := a, queueVe := b, queueAp := c, queueDm0 := d, queueDm1 := f } := by
  rcases e with _ | _ | _ | _ | e <;> exact ⟨_, _, _, _, _, rfl⟩

/-- What an instruction without an error leaves: the core's queue, flags and what the instruction itself changed of the core; memory by its
writes; the cycle counters and, for poison that it read, the error report (R97, R98, R105, R107). -/
structure OpRan (s t : State) (c e : Nat) (w : IWord) (o : OpOut) : Prop where
  queue : ∃ more, (t.core c).queue e = (o.core.queue e).tail ++ more
  flags : ∀ i, tblGet 0 (t.core c).flags i = flagAfter o.core.flags w i
  run : (t.core c).run = o.core.run
  acc : (t.core c).acc = o.core.acc
  active : (t.core c).active = o.core.active
  loading : (t.core c).loading = o.core.loading
  ap : (t.core c).ap = o.core.ap
  sent : (t.core c).sent = o.core.sent
  bound : (t.core c).bound = o.core.bound
  sigSum : (t.core c).sigSum = o.core.sigSum
  sigLines : (t.core c).sigLines = o.core.sigLines
  poisoned : (t.core c).poisoned = (o.core.poisoned || o.ue.isSome)
  others : ∀ j, j ≠ c → t.core j = s.core j
  mem : t.mem = (s.storeAll o.writes).mem
  storePoison : t.storePoison = (s.storeAll o.writes).storePoison
  hbmPoison : t.hbmPoison = (s.storeAll o.writes).hbmPoison
  frame : s.sameQueue t ∧ s.sameSensing t ∧ s.sameSafety t ∧ t.net = s.net ∧ t.hbm = s.hbm ∧ t.cache = s.cache
  graphs : t.graphs.graphs = s.graphs.graphs
  quiet : o.ue = none → t.mgt = s.mgt ∧ t.hif = s.hif ∧ t.outputs = s.outputs ∧ t.graphs = s.graphs ∧
    ∀ a : RegAddr, a.key ≠ (ra (busyReg e) c).key → a.key ≠ (ra .CORE_STORE_STALL c).key → t.reg a = s.reg a

theorem State.wrapReg_reg_ne (s : State) (a b : RegAddr) (n : Nat) (h : b.key ≠ a.key) : (s.wrapReg a n).reg b = s.reg b := by
  rw [State.wrapReg, State.reg_setReg, if_neg h]

/-- The cycle counters (R90, R109; their values are free, log 18). -/
theorem State.countCycles_eq (s : State) (c e : Nat) : ∃ r n, s.countCycles c e = { s with regs := r, free := n } ∧
    ∀ a : RegAddr, a.key ≠ (ra (busyReg e) c).key → a.key ≠ (ra .CORE_STORE_STALL c).key → (s.countCycles c e).reg a = s.reg a := by
  refine ⟨_, _, rfl, ?_⟩
  intro a h1 h2
  unfold State.countCycles
  simp only
  rw [State.wrapReg_reg_ne _ _ _ _ h2, State.wrapReg_reg_ne _ _ _ _ h1]
  rfl

/-- The report of poison that an engine has read (R105, R107) leaves everything but registers, host link, ledger and test requests. -/
theorem State.storeUe_frame (s : State) (c e l : Nat) :
    (s.storeUe c e l).mem = s.mem ∧ (s.storeUe c e l).storePoison = s.storePoison ∧ (s.storeUe c e l).hbmPoison = s.hbmPoison ∧
    (s.storeUe c e l).cores = s.cores ∧ (s.storeUe c e l).graphs.graphs = s.graphs.graphs ∧
    s.sameQueue (s.storeUe c e l) ∧ s.sameSensing (s.storeUe c e l) ∧ s.sameSafety (s.storeUe c e l) ∧
    (s.storeUe c e l).net = s.net ∧ (s.storeUe c e l).hbm = s.hbm ∧ (s.storeUe c e l).cache = s.cache := by
  have hc : ∀ (u : State) (k e a : Nat), ∃ (r : Tbl Word), u.coreError c k e a = { u with regs := r }.raise .CORE c k (e * 256) := by
    intro u k e a
    unfold State.coreError
    dsimp only
    split
    · exact ⟨_, rfl⟩
    · exact ⟨u.regs, rfl⟩
  obtain ⟨r, hr⟩ := hc (s.satReg (ra .CORE_UE_COUNT c)) 1 e l
  simp only [State.storeUe, hr]
  simp [State.sameQueue, State.sameSensing, State.sameSafety, State.satReg, State.askTest]

theorem finishOp_ran (s : State) (c e : Nat) (w : IWord) (o : OpOut) (he : o.err = none) (hr : o.core.run = .RUNNING)
    (hp : ((o.core.takeFlag w).post w).isSome = true) : OpRan s (finishOp s c e w o) c e w o := by
  obtain ⟨qa, qb, qc, qd, qf, hdq⟩ := dequeue_keeps o.core e
  obtain ⟨ft, hft⟩ := takeFlag_keeps (o.core.dequeue e) w
  obtain ⟨x, hx⟩ := count_keeps ((o.core.dequeue e).takeFlag w) w o.fit
  have hfl : ∀ k : CoreState, k.flags = ((o.core.dequeue e).takeFlag w).flags → ∃ k', k.post w = some k' := by
    intro k hk
    have : (k.post w).isSome = true := by
      rw [post_flags k (o.core.takeFlag w) w]
      · exact hp
      · rw [hk]; exact takeFlag_flags _ _ w (by rw [hdq])
    exact Option.isSome_iff_exists.mp this
  unfold finishOp
  simp only [he]
  generalize hk : (if o.ue.isSome = true then
      { (((o.core.dequeue e).takeFlag w).count w o.fit) with poisoned := true }
      else ((o.core.dequeue e).takeFlag w).count w o.fit) = k
  have hkf : k.flags = ((o.core.dequeue e).takeFlag w).flags := by
    rw [← hk, hx]; split <;> rfl
  obtain ⟨k', hk'⟩ := hfl k hkf
  obtain ⟨f', hf'⟩ := post_keeps k k' w hk'
  have hrun : k'.run = .RUNNING := by
    rw [hf', ← hk, hx, hft, hdq]; split <;> exact hr
  have D := DispatchKeeps.settle k' hrun
  have hflag : ∀ i, tblGet 0 k'.flags i = flagAfter o.core.flags w i := by
    intro i
    rw [flags_after (o.core.dequeue e) k k' w hkf hk' i, hdq]
  simp only [hk']
  show OpRan s ((State.setCore (match o.ue with
      | some line => (s.storeAll o.writes).storeUe c e line
      | none => s.storeAll o.writes) c k'.settle).countCycles c e) c e w o
  generalize hu : (match o.ue with
      | some line => (s.storeAll o.writes).storeUe c e line
      | none => s.storeAll o.writes) = u
  obtain ⟨m, p, q, hst⟩ := State.storeAll_frame o.writes s
  have hF : u.mem = (s.storeAll o.writes).mem ∧ u.storePoison = (s.storeAll o.writes).storePoison ∧
      u.hbmPoison = (s.storeAll o.writes).hbmPoison ∧ u.cores = s.cores ∧ u.graphs.graphs = s.graphs.graphs ∧
      s.sameQueue u ∧ s.sameSensing u ∧ s.sameSafety u ∧ u.net = s.net ∧ u.hbm = s.hbm ∧ u.cache = s.cache := by
    rw [← hu]
    cases o.ue with
    | none => simp [hst, State.sameQueue, State.sameSensing, State.sameSafety]
    | some l =>
      have := State.storeUe_frame (s.storeAll o.writes) c e l
      simp only [hst] at this ⊢
      exact this
  obtain ⟨h1, h2, h3, h4, h5, h6, h7, h8, h9, h10, h11⟩ := hF
  have hcore : ∀ j, (u.setCore c k'.settle).core j = if j = c then k'.settle else s.core j := by
    intro j; rw [State.core_setCore]; split
    · rfl
    · simp [State.core, h4]
  obtain ⟨r, n, hcc, hreg⟩ := State.countCycles_eq (u.setCore c k'.settle) c e
  have hcj : ∀ j, ((u.setCore c k'.settle).countCycles c e).core j = if j = c then k'.settle else s.core j := by
    intro j; rw [hcc]; exact hcore j
  have hk0 : k' = { k with flags := f' } := hf'
  have hkk : ∃ b, k = { o.core with queueTe := qa, queueVe := qb, queueAp := qc, queueDm0 := qd, queueDm1 := qf, flags := ft, slots := x
                                    poisoned := b } ∧ b = (o.core.poisoned || o.ue.isSome) := by
    refine ⟨_, ?_, rfl⟩
    rw [← hk, hx, hft, hdq]
    cases o.ue <;> simp
  obtain ⟨b, hkk, hb⟩ := hkk
  constructor
  case queue =>
    obtain ⟨more, hm⟩ := D.queue e
    refine ⟨more, ?_⟩
    rw [hcj, if_pos rfl, hm, ← dequeue_queue, hk0, hkk, hdq]
    rcases e with _ | _ | _ | _ | e <;> rfl
  case flags => intro i; rw [hcj, if_pos rfl, D.flags]; exact hflag i
  case run => rw [hcj, if_pos rfl, D.run, hrun, hr]
  case acc => rw [hcj, if_pos rfl, D.acc, hk0, hkk]
  case active => rw [hcj, if_pos rfl, D.active, hk0, hkk]
  case loading => rw [hcj, if_pos rfl, D.loading, hk0, hkk]
  case ap => rw [hcj, if_pos rfl, D.ap, hk0, hkk]
  case sent => rw [hcj, if_pos rfl, D.sent, hk0, hkk]
  case bound => rw [hcj, if_pos rfl, D.bound, hk0, hkk]
  case sigSum => rw [hcj, if_pos rfl, D.sigSum, hk0, hkk]
  case sigLines => rw [hcj, if_pos rfl, D.sigLines, hk0, hkk]
  case poisoned => rw [hcj, if_pos rfl, D.poisoned, hk0, hkk, hb]
  case others => intro j hj; rw [hcj, if_neg hj]
  case mem => rw [hcc]; exact h1
  case storePoison => rw [hcc]; exact h2
  case hbmPoison => rw [hcc]; exact h3
  case frame => rw [hcc]; exact ⟨h6, h7, h8, h9, h10, h11⟩
  case graphs => rw [hcc]; exact h5
  case quiet =>
    intro hn
    have hus : u = s.storeAll o.writes := by rw [← hu, hn]
    have hr' : ∀ a : RegAddr, a.key ≠ (ra (busyReg e) c).key → a.key ≠ (ra .CORE_STORE_STALL c).key →
        ((u.setCore c k'.settle).countCycles c e).reg a = s.reg a := by
      intro a ha hb
      rw [hreg a ha hb, hus, hst]; rfl
    refine ⟨?_, ?_, ?_, ?_, hr'⟩ <;> rw [hcc, hus, hst] <;> rfl

/-- What an instruction leaves outside its core, its registers and its memory, when its body leaves it all. -/
theorem OpRan.done {s t : State} {c e : Nat} {w : IWord} {o : OpOut} (h : OpRan s t c e w o) (hq : o.core.queue e = (s.core c).queue e)
    (hf : o.core.flags = (s.core c).flags) (hr : (s.core c).run = .RUNNING) (hr' : o.core.run = (s.core c).run) :
    s.engineDone t c e w := by
  refine ⟨?_, ?_, ?_, h.others, h.frame.1, h.frame.2.1, h.frame.2.2.1, h.frame.2.2.2.1⟩
  · rw [← hq]; exact h.queue
  · rw [← hf]; exact h.flags
  · rw [h.run, hr', hr]

theorem OpRan.quietly {s t : State} {c e : Nat} {w : IWord} {o : OpOut} (h : OpRan s t c e w o) (hu : o.ue = none) :
    s.engineQuiet t c e := by
  obtain ⟨a, b, d, _, f⟩ := h.quiet hu
  exact ⟨a, b, d, f⟩

theorem firstPoison_nil (s : State) (h : s.storePoison = []) (c a n : Nat) : firstPoison s c a n = none := by
  simp [firstPoison, h]

/-- An instruction of an engine that may start, whose body is done without an error, and whose post fits (R97, R98). -/
theorem runOp_ran (s : State) (c e op : Nat) (w : IWord) (body : State → Nat → IWord → OpRes) (s2 : State) (o : OpOut)
    (h : s.starts c e op w) (hb : body s c w = .done s2 o) (he : o.err = none) (hr : o.core.run = (s.core c).run)
    (hf : o.core.flags = (s.core c).flags) (hp : s.postOk c w) :
    tryOp s c e op .ok body = some (finishOp s2 c e w o) ∧ OpRan s2 (finishOp s2 c e w o) c e w o := by
  obtain ⟨h1, h2, h3, h4, h5⟩ := h
  constructor
  · unfold tryOp
    cases hq : (s.core c).queue e with
    | nil => rw [hq] at h2; cases h2
    | cons x r =>
      rw [hq] at h2; cases h2
      simp only [h1, h3, h4, h5, hq, hb]
      simp
  · refine finishOp_ran s2 c e w o he (hr.trans h1) ?_
    rw [post_flags _ ((s.core c).takeFlag w) w (takeFlag_flags _ _ w hf)]
    exact hp

end Sys2Proof.Machine
end

