-- ==== Sys2Proof/Laws/Cache.lean ====
section
/-! SUPPORT. What putting a changed shelf cache into the state can do (R161, R193): memory, the cache, and an error report. -/

namespace Sys2Proof.Machine

/-- The error reports of a list of handles. -/
theorem catErrors_frame (l : List Nat) (s : State) : ∃ r o h m,
    l.foldl (fun s h => (s.catError (handleDie h) 1 h).log .CAT_COUNT_ERR (handleDie h) [h]) s =
      { s with regs := r, outputs := o, hif := h, mgt := m } := by
  induction l generalizing s with
  | nil => exact ⟨s.regs, s.outputs, s.hif, s.mgt, rfl⟩
  | cons x xs ih =>
    obtain ⟨r, o, h, m, e⟩ := ih ((s.catError (handleDie x) 1 x).log .CAT_COUNT_ERR (handleDie x) [x])
    refine ⟨r, o, h, m, ?_⟩
    rw [List.foldl_cons, e]
    have hc : ∃ q, s.catError (handleDie x) 1 x = { s with regs := q }.raise .CAT (handleDie x) 1 := by
      unfold State.catError; dsimp only; split
      · exact ⟨_, rfl⟩
      · exact ⟨s.regs, rfl⟩
    obtain ⟨q, hq⟩ := hc
    simp [hq]

/-- The changed entries written through. -/
theorem catWrites_frame (l : List (Nat × List Byte)) (s : State) : ∃ m p q,
    l.foldl (fun s w => s.writeMem w.1 w.2) s = { s with mem := m, storePoison := p, hbmPoison := q } := by
  induction l generalizing s with
  | nil => exact ⟨s.mem, s.storePoison, s.hbmPoison, rfl⟩
  | cons x r ih =>
    obtain ⟨m, p, q, h⟩ := ih (s.writeMem x.1 x.2)
    exact ⟨m, p, q, by rw [List.foldl_cons, h, State.writeMem_frame]⟩

/-- R161, R193: everything that `setCache` may change. -/
theorem State.setCache_frame (s : State) (c : ShelfCache) : ∃ mem p q r o h m,
    s.setCache c = { s with
      mem := mem, storePoison := p, hbmPoison := q, regs := r, outputs := o, hif := h, mgt := m
      cache := [0, 1, 2, 3].foldl (fun c d => c.modCat d (fun k => { k with countErrs := [] })) c } := by
  have key : ∀ (ws : List (Nat × List Byte)) (es : List Nat) (c1 : ShelfCache), ∃ mem p q r o h m,
      es.foldl (fun s h => (s.catError (handleDie h) 1 h).log .CAT_COUNT_ERR (handleDie h) [h])
        { ws.foldl (fun s w => s.writeMem w.1 w.2) s with cache := c1 } =
      { s with mem := mem, storePoison := p, hbmPoison := q, regs := r, outputs := o, hif := h, mgt := m, cache := c1 } := by
    intro ws es c1
    obtain ⟨mem, p, q, e⟩ := catWrites_frame ws s
    rw [e]
    obtain ⟨r, o, h, m, g⟩ := catErrors_frame es { s with mem := mem, storePoison := p, hbmPoison := q, cache := c1 }
    exact ⟨mem, p, q, r, o, h, m, g⟩
  exact key _ _ _

/-- The same of releasing pins, which may release none. -/
theorem State.unpin_frame (s : State) (l : List Nat) : ∃ mem p q r o h m c,
    s.unpin l = { s with mem := mem, storePoison := p, hbmPoison := q, regs := r, outputs := o, hif := h, mgt := m, cache := c } := by
  unfold State.unpin
  split
  · exact ⟨_, _, _, _, _, _, _, _, rfl⟩
  · obtain ⟨mem, p, q, r, o, h, m, e⟩ := State.setCache_frame s (s.cache.unpinAll l)
    exact ⟨mem, p, q, r, o, h, m, _, e⟩

end Sys2Proof.Machine
end

