-- ==== Sys2Proof/WellFormed.lean ====
section
/-! DEFINITION. Well-formed commands: the operands that the block's own wires, packets and messages can carry. The meanings are total
over all operands; only SQ_FETCH stops on operands that spell no packet (R252). -/

namespace Sys2Proof

/-- A 12-, 16- and 32-bit field. -/
def num12 (n : Nat) : Bool := decide (n < 2 ^ 12)
def num16 (n : Nat) : Bool := decide (n < 2 ^ 16)
def num32 (n : Nat) : Bool := decide (n < 2 ^ 32)
/-- A signed 16-bit reading. -/
def signed16 (v : Int) : Bool := decide (-2 ^ 15 ≤ v ∧ v < 2 ^ 15)
/-- A copy of a DUPLICATE graph (R113). -/
def isCopy (c : Nat) : Bool := decide (c < 2)
/-- BAR0 is 32 MiB (R241). -/
def inBar0 (o : Nat) : Bool := decide (o < 0x2000000)
/-- A 32 B word of the HBM map (R17, R199). -/
def inHbmMap (a : Nat) : Bool := decide (a < 0x1000000000)
/-- A node of a die's mesh (R216). -/
def onMesh (x y : Nat) : Bool := decide (x < 8 ∧ y < 8)
/-- The lengths of a classical CAN and of a CAN FD frame (R285). -/
def canLength (fd : Bool) (n : Nat) : Bool :=
  if fd then [0, 1, 2, 3, 4, 5, 6, 7, 8, 12, 16, 20, 24, 32, 48, 64].contains n else decide (n ≤ 8)

/-- A store has 64 banks and 131,072 lines (R89, R92). -/
def CoreHw.wf : CoreHw → Bool
  | .ce bank => decide (bank < 64)
  | .ue line => decide (line < 131072)
  | .ok => true
  | .parity => true
  | .second => true

/-- IPv4 addresses and UDP ports (R476). -/
def MgmtDatagram.wf : MgmtDatagram → Bool
  | .arp sender target => num32 sender && num32 target
  | .echo src dst _ => num32 src && num32 dst
  | .udp src srcPort dst dstPort _ => num32 src && num32 dst && num16 srcPort && num16 dstPort

/-- A well-formed command. -/
def Instr.wf : Instr → Bool
  | .registerWrite _ _ offset _ => inBar0 offset
  | .regAccessBad _ offset width _ => inBar0 offset && [1, 2, 4, 8].contains width
  | .teWload _ hw => hw.wf
  | .teXload _ hw => hw.wf
  | .teMma _ hw => hw.wf
  | .teTma _ hw => hw.wf
  | .teOut _ hw => hw.wf
  | .teAclr _ hw => hw.wf
  | .veAdd _ hw => hw.wf
  | .veSub _ hw => hw.wf
  | .veMul _ hw => hw.wf
  | .veFma _ hw => hw.wf
  | .veMax _ hw => hw.wf
  | .veMin _ hw => hw.wf
  | .veCvt _ hw => hw.wf
  | .veBcast _ hw => hw.wf
  | .veSel _ hw => hw.wf
  | .veRsum _ hw => hw.wf
  | .veRmax _ hw => hw.wf
  | .veSfu _ hw => hw.wf
  | .apQload _ hw => hw.wf
  | .apPass _ hw => hw.wf
  | .apOut _ hw => hw.wf
  | .dmCopy _ hw => hw.wf
  | .dmFill _ hw => hw.wf
  | .dmSend _ hw => hw.wf
  | .dmRecv _ hw => hw.wf
  | .dmRead _ hw => hw.wf
  | .dmWrite _ hw => hw.wf
  | .dmGather _ hw => hw.wf
  | .dmTranspose _ hw => hw.wf
  | .seqNop _ hw => hw.wf
  | .seqTokenWait _ hw => hw.wf
  | .seqTokenSend _ hw => hw.wf
  | .seqLoop _ hw => hw.wf
  | .seqBarrier _ hw => hw.wf
  | .seqFitCheck _ hw => hw.wf
  | .seqEnd _ hw => hw.wf
  | .illegalOp _ hw => hw.wf
  | .widenDecision _ frame group copy => num32 frame && num12 group && isCopy copy
  | .coreCeStorm _ bank => decide (bank < 64)
  | .coreScrub _ _ hw => hw.wf
  | .stationFire _ frame station copy attn _ => num32 frame && num16 station && isCopy copy && attn.all (fun a => decide (a.layer < 128 ∧ a.group < 64))
  | .tileArrive _ edge copy header => num16 edge && isCopy copy && decide (header.length = 64)
  | .creditReturn _ edge copy => num16 edge && isCopy copy
  | .tokenArrive _ edge copy => num16 edge && isCopy copy
  | .versionUpdate _ buffer _ => num16 buffer
  | .versionAck _ buffer _ => num16 buffer
  | .versionTimeout _ buffer _ => num16 buffer
  | .frameTimeout _ frame => num32 frame
  | .poolCreate _ _ pool die base frames shelfBytes heads d fmt _ altDie archiveLink archiveRing => decide (pool < 256 ∧ die < 256 ∧ base < 2 ^ 48 ∧ frames < 2 ^ 32 ∧ shelfBytes < 2 ^ 32 ∧ heads < 256 ∧ d < 65536 ∧ fmt < 256 ∧ altDie < 256 ∧ archiveLink < 2 ∧ archiveRing < 64)
  | .poolDestroy _ _ pool => decide (pool < 256)
  | .open_ _ _ seq pool priority layers window => num16 seq && decide (pool < 256 ∧ priority < 256 ∧ layers < 65536 ∧ window < 2 ^ 32)
  | .fork _ _ seq parent pos => num16 seq && num16 parent && num32 pos
  | .bind _ _ seq graph perFrame => num16 seq && decide (graph < 256) && num32 perFrame
  | .seal _ _ seq => num16 seq
  | .close _ _ seq => num16 seq
  | .setPriority _ _ seq priority => num16 seq && decide (priority < 256)
  | .archive _ _ seq => num16 seq
  | .query _ _ seq => num16 seq
  | .cowCopyDone seq layer index => num16 seq && decide (layer < 128) && num32 index
  | .archiveChunkWrite seq => num16 seq
  | .cacheTimeout _ frame => num32 frame
  | .hbmRead addr _ => inHbmMap addr
  | .hbmWriteAccept addr data _ => inHbmMap addr && decide (data.length = 32)
  | .memReadTimeout _ x y tag => onMesh x y && num32 tag
  | .rcLookup _ addr _ => inHbmMap addr
  | .rcFill _ addr => inHbmMap addr
  | .meshRoute _ x y msg _ => onMesh x y && decide (msg.payload.length % 64 = 0)
  | .d2dTestDone _ flitErrors _ => num16 flitErrors
  | .sqFetch _ _ header payload _ => decide (header.length = 64 ∧ payload.length = 64 * ((header.getD 2 0).toNat + 256 * (header.getD 3 0).toNat))
  | .csi2LongPacket _ _ _ dataType payload _ _ => decide (dataType < 64 ∧ payload.length < 65536)
  | .sensorEthFrame _ _ frame _ => decide (60 ≤ frame.length)
  | .sensorCanFrame _ _ id ext fd _ _ payload => decide (id < (if ext then 2 ^ 29 else 2 ^ 11)) && canLength fd payload.length
  | .decodeDone _ _ cycles => num32 cycles
  | .packageRegWrite _ offset _ => inBar0 offset
  | .mergeRun _ frame => num32 frame
  | .mergeDigestRx frame digest => num32 frame && decide (digest.length = 32)
  | .editionToken frame => num32 frame
  | .roundLimit _ expansions => num32 expansions
  | .peerHbEdge _ periodNs => num32 periodNs
  | .lanternClockWindow _ ppm => decide (-2 ^ 31 ≤ ppm ∧ ppm < 2 ^ 31)
  | .lanternFrameStart _ _ frame _ => num32 frame
  | .lanternHandoverRx _ _ frame _ => num32 frame
  | .deadlineExpiry _ _ frame => num32 frame
  | .verdictRx _ _ frame => num32 frame
  | .verdictTimeout _ _ frame => num32 frame
  | .envelopeCompare _ _ frame _ => num32 frame
  | .windowGrant _ _ us => num32 us
  | .recReq _ data => decide (data.length ≤ 64)
  | .mirHeartbeatRx _ frame _ => decide (frame.length ≤ 1600)
  | .mirExchangeRx _ frame _ => decide (frame.length ≤ 1600)
  | .mirDownRx _ frame _ => decide (frame.length ≤ 1600)
  | .hotspotSample _ a b => signed16 a && signed16 b
  | .hbmDiodeSample _ value => signed16 value
  | .hbmTempReadout _ value => signed16 value
  | .mgmtPortDatagram _ datagram => datagram.wf
  | .hifErrSummaryRead .. | .hifSetupLock .. | .coreReset .. | .coreFitClearWiden .. | .coreFitClearSkipped .. | .graphLoad ..
  | .graphUnload .. | .graphUnloadDone .. | .graphRun .. | .frameAdmit .. | .frameRelease .. | .fenceSet .. | .foldDone | .fenceLift ..
  | .stallReport .. | .passTimeout .. | .targetedSelftest .. | .selftestDone .. | .returnHome .. | .returnHomeResume .. | .seqStep ..
  | .archiveIn .. | .rowTest .. | .rowTestDone .. | .caParityAlert .. | .pcFence .. | .hbmRefresh .. | .refreshRateDown ..
  | .patrolScrub .. | .phyCalibration .. | .rcCtrlWrite .. | .meshTest .. | .d2dFlitCrcFail .. | .d2dLinkDown .. | .d2dLinkMarginal ..
  | .d2dLinkFence .. | .d2dLoopbackTest .. | .d2dTestNearEnd .. | .d2dTestFarEnd .. | .widthWordExchange .. | .sidebandTimeout ..
  | .sqEnable .. | .cqEnable .. | .sqDoorbell .. | .cqDoorbell .. | .sqTailTimeout .. | .hifSqRestart .. | .badPacketType ..
  | .completionWrite .. | .cqIrqTimer .. | .cqFullTimeout .. | .flr .. | .pciePerst .. | .tensorPutMemory .. | .tensorPutSample ..
  | .tensorGet .. | .mapEditionDelta .. | .mapEditionRoadmap .. | .planReq .. | .fitRatio .. | .powerCap .. | .setWait .. | .refOrder ..
  | .selftestPeriod .. | .contradictionLimit .. | .nop .. | .mgmt .. | .attest .. | .csi2FrameStart .. | .csi2FrameEnd ..
  | .canBusOffRecovery .. | .decodeStart .. | .decodeBudgetExpiry .. | .pixelPipeline .. | .reorderRelease .. | .streamSilence ..
  | .streamEnable .. | .streamDisable .. | .bindingEnable .. | .sampleBeginReport .. | .sampleCompleteReport .. | .setWaitExpiry ..
  | .groupEnable .. | .prismStreamEnable .. | .plannerEnable .. | .editionOrder .. | .editionStageDone .. | .roundStart ..
  | .checkRoundEnd .. | .roundCut .. | .recheckEnd .. | .wavefrontDone .. | .searchEnd .. | .outputHandover .. | .planDigestRx
  | .lanternResetRelease .. | .lockstepMismatch .. | .lanternHbToggle .. | .peerHbTimeout .. | .mpHeartbeatRx .. | .mpHeartbeatTimeout ..
  | .mpTakeoverTimeout .. | .signatureRx .. | .envelopeResultRx .. | .chunkStart .. | .chunkDone .. | .chunkAbort ..
  | .coveragePeriodEnd .. | .faultGapExpiry .. | .outageExpiry .. | .safeStateEntry .. | .statusEmit .. | .trajHeadEmit .. | .porstAssert
  | .porstRelease .. | .warmResetRequest .. | .warmResetAssert | .warmRestart .. | .restartRetryExpiry .. | .dieReset .. | .dieRejoin ..
  | .dieRejoinTimeout .. | .lanternRestart .. | .lanternRestartTimeout .. | .downFrameSend .. | .mirHeartbeatSend .. | .twinSilence
  | .roleHearTimeout | .pgoodFall .. | .avsTelemetryPoll .. | .avsRequest .. | .trayRead .. | .flowLowClear | .flowLossExpiry ..
  | .junctionSlopeFit | .thermalResistanceUpdate | .forecastRefresh | .dvfsStepDone .. | .powerOverLimit | .thermalTrip ..
  | .pwrOffReqRelease | .lifeCounterWrite | .thermalCycleSample | .primaryAbsent | .mpHeartbeatSend | .standbyTakeover | .takeoverRx ..
  | .takeoverDoneRx .. | .mgtDemote .. | .ledgerWrite .. | .mailboxSend .. | .ikisanBadType | .identify | .status | .ledgerInfo
  | .ledgerRead .. | .stickyRead .. | .eventNames | .attestMessage .. | .calRead .. | .debugChallenge | .keySet | .calWrite
  | .restoreFactory | .updateBegin | .updateData | .updateVerify | .updateActivateTdies | .updateActivateLanterns | .updateActivateHubs
  | .updateCommit | .reset | .plannedStop | .debugUnlock | .lanRstAssert .. | .pgoodRise .. | .dieClockFault .. | .hostLinkLoss ..
  | .pciePowerStateChange .. | .mirPortLinkChange .. | .sensorPortLinkChange .. | .canErrorStateChange .. | .catRegionEnable ..
  | .hifNoticeRingWrite .. | .warmRestartPgoodTimeout .. | .lanErrHoldExpiry .. | .ratingsHoldExpiry .. | .keeperCopyRefresh
  | .lanternCompareTest .. | .lanternUpdateSettle => true

end Sys2Proof
end

