-- ==== Sys2Proof/Tests/Slice0.lean ====
section
/-! SUPPORT. The tests of the model: ill-formed terms that WellFormed refuses, one-step tests on small states, and a witness for the hypotheses of
each obligation. Expected results come from the rules that the comments name. Where a hypothesis rests on a constant that the model leaves open
(Config), the witness takes a value of it as a premise. -/

namespace Sys2Proof.Tests
set_option Elab.async false
set_option maxRecDepth 20000
open Sys2Proof.Machine

/-! ### Small states -/

/-- A table that says the same of the keys 0 … n − 1. -/
def same {α : Type} (n : Nat) (a : α) : Tbl α := (List.range n).map fun i => (i, a)

/-- A lantern that runs, with its pin released. -/
def lan0 : Lantern := { run := .RUNNING, fault := false, active := false, causes := [] }

/-- A device that runs: rails good, links up, both lanterns running, hub 0's processor active, cores idle, at 10 s. -/
def dev : State := { State.reset with
  now := 10000000
  pins := { porst := true, lanRstHigh := [true, true] }
  recovery := { phase := .running }
  net := { ports := same 24 { st := 4 } }
  hif := { stage := .READY, hostReady := true, links := same 2 { up := true, perst := false } }
  lan := { lanterns := same 2 lan0 }
  thermal := { rails := same 13 { good := true } }
  mgt := { hubs := [(0, { role := .ACTIVE, announced := true }), (1, { role := .STANDBY, announced := true, heardAt := some 0 })] } }

/-- The device with core 0 as given. -/
def devCore (k : CoreState) : State := { dev with cores := [(0, k)] }

/-- The outcome is a next state that meets `p`. -/
def nextIs (o : Host.Outcome State Fault Refusal) (p : State → Bool) : Bool :=
  match o with
  | .next t => p t
  | _ => false

/-- A packet of a type with these header bytes from 16 on, on ring 0 of link 0. -/
def pkt (type : Nat) (args : List Byte) (payload : List Byte := []) : Packet :=
  { link := 0, sq := 0, header := (toLe 1 type ++ List.replicate 15 0 ++ args ++ List.replicate 48 0).take 64, payload := payload }
/-- The device with that packet at the front of ring 0 of link 0. -/
def withPacket (p : Packet) (s : State := dev) : State := s.modSq 0 0 fun q => { q with taken := [p] }
/-- The device with that graph loaded. -/
def withGraph (gr : Graph) (s : State := dev) : State := { s with graphs := { s.graphs with graphs := [gr] } }
/-! ### Well-formedness: each check refuses a term -/

/-- Ill-formed engine and sequencer commands: a bank beyond 63 (R89). -/
def illCores : List Instr :=
  ([.teWload, .teXload, .teMma, .teTma, .teOut, .teAclr, .veAdd, .veSub, .veMul, .veFma, .veMax, .veMin, .veCvt, .veBcast, .veSel, .veRsum,
    .veRmax, .veSfu, .apQload, .apPass] : List (Fin 32 → CoreHw → Instr)).map (fun f => f 0 (.ce 64)) ++
  ([.apOut, .dmCopy, .dmFill, .dmSend, .dmRecv, .dmRead, .dmWrite, .dmGather, .dmTranspose, .seqNop, .seqTokenWait, .seqTokenSend, .seqLoop,
    .seqBarrier, .seqFitCheck, .seqEnd, .illegalOp] : List (Fin 32 → CoreHw → Instr)).map (fun f => f 31 (.ue 131072))

/-- Ill-formed commands of the registers, the dataflow and the cache. -/
def illWork : List Instr :=
  [.registerWrite false 0 0x2000000 0, .regAccessBad 0 0 3 true, .widenDecision 0 (2 ^ 32) 0 0, .widenDecision 0 0 4096 0,
   .widenDecision 0 0 0 2, .coreCeStorm 0 64, .coreScrub 0 false (.ce 64), .stationFire 0 0 0 2 [] false, .tileArrive 0 0 0 [],
   .creditReturn 0 65536 0, .tokenArrive 0 0 2, .versionUpdate 0 65536 0, .versionAck 0 65536 0, .versionTimeout 0 65536 0] ++
  [.frameTimeout 0 (2 ^ 32), .poolCreate 0 0 256 0 0 0 0 0 0 0 false 0 0 0, .poolDestroy 0 0 256, .open_ 0 0 65536 0 0 0 0,
   .fork 0 0 0 65536 0, .bind 0 0 0 256 0, .seal 0 0 65536, .close 0 0 65536, .setPriority 0 0 0 256, .archive 0 0 65536,
   .query 0 0 65536, .cowCopyDone 0 128 0, .archiveChunkWrite 65536, .cacheTimeout 0 (2 ^ 32)]

/-- Ill-formed commands of memory, fabric, host link and sensors. -/
def illLinks : List Instr :=
  [.hbmRead 0x1000000000 .ok, .hbmWriteAccept 0 [] false, .memReadTimeout 0 8 0 0, .rcLookup 0 0x1000000000 .ok, .rcFill 0 0x1000000000,
   .meshRoute 0 0 8 ⟨0, false, 0, []⟩ false, .meshRoute 0 0 0 ⟨0, false, 0, [0]⟩ false, .d2dTestDone 0 65536 true,
   .sqFetch 0 0 [] [] .ok, .csi2LongPacket 0 0 0 64 [] .ok true, .sensorEthFrame 0 0 [] [], .sensorCanFrame 0 0 0x800 false false false false [],
   .sensorCanFrame 0 0 0 false true false false (List.replicate 9 0), .decodeDone 0 0 (2 ^ 32), .packageRegWrite 0 0x2000000 0]

/-- Ill-formed commands of planners, lanterns, power and management. -/
def illSafety : List Instr :=
  [.mergeRun 0 (2 ^ 32), .mergeDigestRx 0 [], .editionToken (2 ^ 32), .roundLimit 0 (2 ^ 32), .peerHbEdge 0 (2 ^ 32),
   .lanternClockWindow 0 (2 ^ 31), .lanternFrameStart 0 0 (2 ^ 32) true, .lanternHandoverRx 0 0 (2 ^ 32) true, .deadlineExpiry 0 0 (2 ^ 32),
   .verdictRx 0 0 (2 ^ 32), .verdictTimeout 0 0 (2 ^ 32), .envelopeCompare 0 0 (2 ^ 32) 0, .windowGrant 0 0 (2 ^ 32)] ++
  [.recReq 0 (List.replicate 65 0), .mirHeartbeatRx 0 (List.replicate 1601 0) true, .mirExchangeRx 0 (List.replicate 1601 0) true,
   .mirDownRx 0 (List.replicate 1601 0) true, .hotspotSample 0 32768 0, .hbmDiodeSample 0 32768, .hbmTempReadout 0 (-32769)]

theorem test_wf_refuses_cores : illCores.all (fun i => !i.wf) = true := by decide
theorem test_wf_refuses_work : illWork.all (fun i => !i.wf) = true := by decide
theorem test_wf_refuses_links : illLinks.all (fun i => !i.wf) = true := by decide
theorem test_wf_refuses_safety : illSafety.all (fun i => !i.wf) = true := by decide
theorem test_wf_refuses_datagrams : ([.arp (2 ^ 32) 0, .echo 0 (2 ^ 32) [], .udp 0 65536 0 0 []] : List MgmtDatagram).all
  (fun d => !(Instr.mgmtPortDatagram 0 d).wf) = true := by decide
theorem test_wf_accepts : ([.teMma 0 (.ce 63), .hbmRead 0xFFFFFFFFF .ue, .sensorCanFrame 0 0 0x7FF false false false false [],
  .windowGrant 0 0 170] : List Instr).all Instr.wf = true := by decide

/-- The opcode table gives no row any bits. -/
theorem test_no_word_decodes : ∀ n w, decodeTableWord n w = none := fun _ _ => rfl

/-! ### Registers (R9 … R12, R251) -/

/-- The device after SETUP_LOCK. -/
def devLocked : State := { dev with hif := { dev.hif with locked := true } }

/-- The value 0x0000_4C4B locks, and no other (R251). -/
theorem test_setup_lock : nextIs (exec (.hifSetupLock 1 0x4C4B) dev) (·.hif.locked) && nextIs (exec (.hifSetupLock 0 0x4C4C) dev) (!·.hif.locked)
    = true := by decide
/-- HIF_ERR_VECTOR is six bits wide. -/
theorem test_register_write : nextIs (exec (.registerWrite false 0 0x14 0xFFFFFFFF) dev) (fun t => t.reg (ra .HIF_ERR_VECTOR 0) == 0x3F) = true := by
  decide

theorem witness_setupLockHolds : dev.hif.hostReady = true ∧ devLocked.hif.locked = true ∧ decodeBar0 0 0x14 = .reg (ra .HIF_ERR_VECTOR 0) ∧
    (regRow .HIF_ERR_VECTOR).access = .RWL ∧ (let s := { dev with recovery := { dev.recovery with phase := .warmRequested, requestedAt := 9999000 } }
    s.recovery.requestedAt + 1000 ≤ s.now ∧ s.recovery.down = []) := by decide
theorem witness_registersAccessed : dev.setupOpen ∧ devLocked.ledgerRoom ∧ State.reset.hif.hostReady = false ∧ msixAccess 2 2 = false :=
  ⟨⟨rfl, rfl⟩, by show 0 < 4096; decide, by decide⟩

/-! ### The whole machine -/

theorem test_step_runs : nextIs (step { dev with pending := [.hifSetupLock 0 0x4C4B, .foldDone] })
    (fun t => t.hif.locked && t.pending == [.foldDone]) = true := by decide
theorem test_step_idles : nextIs (step dev) (fun t => t.now == dev.now + 1) = true := by decide
theorem test_reset : State.reset.pending = [] ∧ (State.reset.lantern 0).fault = true ∧ (State.reset.core 31).run = .RESET := by decide
/-- R3: a device whose debugged fuse is blown promises nothing. -/
theorem witness_otpGoesOneWay : (let s := { dev with mgt := { dev.mgt with otp := { debugged := true } } }
    s.mgt.otp.debugged = true ∧ s.promiseHolds 0 = false) ∧ nextIs (step dev) (fun _ => true) = true := by decide
theorem witness_invariantKept : Memory.wf dev.mem = true ∧ ∀ h, dev.sampleIds h := by
  refine ⟨by decide, fun h => ?_⟩
  have e : dev.intake h = {} := rfl
  simp [State.sampleIds, e]
/-- A header of another length spells no packet (R252). -/
theorem test_malformed_header : (match exec (.sqFetch 0 0 [0] [] .ok) dev with | .fault .malformedHeader => true | _ => false) = true := by decide

/-! ### Cores (R73 … R111) -/

/-- The op code, waiting on flag 0 and posting flag 1. -/
def opWord (op : Nat) : IWord := { op := op, waitEn := true, waitFlag := 0, postEn := true, postFlag := 1 }

/-- A core that runs a pass, with one instruction at the head of an engine's queue. -/
def withOp (e : Nat) (w : IWord) (k : CoreState := {}) : State :=
  devCore { k with
    run := .RUNNING, flags := [(0, 1), (1, 254)]
    queueTe := if e = 0 then [w] else [], queueVe := if e = 1 then [w] else [], queueAp := if e = 2 then [w] else []
    queueDm0 := if e = 3 then [w] else [], queueDm1 := if e = 4 then [w] else [] }

/-- R98 at its bounds: an instruction starts on the last count of its flag, and its post takes the other one to 255. -/
theorem witness_starts_te : ∀ op ∈ [0x01, 0x02, 0x03, 0x04, 0x05, 0x06], (withOp 0 (opWord op)).starts 0 0 op (opWord op) ∧
    (withOp 0 (opWord op)).postOk 0 (opWord op) := by
  unfold State.starts State.postOk; decide
theorem witness_starts_ve : ∀ op ∈ [0x40, 0x41, 0x42, 0x43, 0x44, 0x45, 0x46, 0x47, 0x48, 0x50, 0x51, 0x58],
    (withOp 1 (opWord op)).starts 0 1 op (opWord op) ∧ (withOp 1 (opWord op)).postOk 0 (opWord op) := by
  unfold State.starts State.postOk; decide
theorem witness_starts_ap : ∀ op ∈ [0x80, 0x81, 0x82], (withOp 2 (opWord op)).starts 0 2 op (opWord op) ∧
    (withOp 2 (opWord op)).postOk 0 (opWord op) := by
  unfold State.starts State.postOk; decide
theorem witness_starts_dm : ∀ op ∈ [0xC0, 0xC1, 0xC2, 0xC3, 0xC4, 0xC5, 0xC6, 0xC7], (withOp 3 (opWord op)).starts 0 3 op (opWord op) ∧
    (withOp 4 (opWord op)).starts 0 4 op (opWord op) ∧ ((withOp 4 (opWord op)).core 0).queue 3 = [] := by
  unfold State.starts; decide
/-- A post at 255 is an error, and a flag at 0 keeps an instruction waiting (R98). -/
theorem test_post_overflow : (let s := devCore { run := .RUNNING, flags := [(1, 255)], queueTe := [opWord 0x06] }
    ¬ s.postOk 0 { opWord 0x06 with waitEn := false }) ∧ ((devCore { run := .RUNNING }).core 0).waitOk (opWord 0x06) = false := by
  unfold State.postOk; decide

/-- A dense INT8 record of R45: group 128, no scales, code at 64, 16,448 B. -/
def denseRecord : List Byte := toLe 2 2 ++ toLe 1 2 ++ toLe 1 128 ++ toLe 2 0 ++ toLe 2 128 ++ toLe 2 128 ++ toLe 2 0 ++ toLe 4 0 ++ toLe 4 0 ++
  toLe 4 64 ++ toLe 4 16448

theorem witness_tensorEngineRuns :
    (let s := { withOp 0 (opWord 0x01) with mem := memWrite [] (coreBase 0) denseRecord }
     let bs := memRead s.mem (coreBase 0) (128 * 129)
     (s.core 0).loading = none ∧ (recHdr bs).check bs = none ∧ (recHdr bs).recBytes ≤ bs.length ∧ (recHdr bs).fmt ≠ 7 ∧ (recHdr bs).fmt ≠ 8) ∧
    (let x : WSet := { record := denseRecord, expand := false, half := 0, poison := false }
     let w : IWord := { opWord 0x03 with fmtA := 2, fmtB := 2 }
     fmtOf w.fmtB = x.fmt ∧ tePair false (fmtOf w.fmtA) (fmtOf w.fmtB) (recHdr x.record).cbFormat = true) ∧
    (let x : WSet := { record := toLe 2 1 ++ toLe 1 3 ++ toLe 1 128 ++ toLe 1 0 ++ toLe 1 0, expand := false, half := 0, poison := false }
     fmtOf 3 = x.fmt ∧ tePair true .int8 (fmtOf 3) (recHdr x.record).cbFormat = true) := by decide +kernel
theorem witness_vectorEngineRuns : bitN (opWord 0x46).imm 0 = false ∧ bitN ({ opWord 0x46 with imm := 1 } : IWord).imm 0 = true := by decide

/-- TE_ACLR clears the rows that it names and no others. -/
theorem test_te_aclr : nextIs (exec (.teAclr 0 .ok) (withOp 0 { op := 0x06, a := 3, dim0 := 1 }
      { acc := [(accKey 0 2 5, { val := 7 }), (accKey 0 3 5, { val := 7 })] }))
    (fun t => tblGet {} (t.core 0).acc (accKey 0 2 5) == { val := 7 } && tblGet {} (t.core 0).acc (accKey 0 3 5) == {}) = true := by decide +kernel

/-- A catalogue of die 0 with one FILLING shelf of 100 positions, mapped by layer 0 of sequence 1; `st` is the shelf's state. -/
def oneShelf (st : ShelfSt) : ShelfCache :=
  { cats := [(0, { run := 2, shelves := [(0, { addr := 0x100000, st := st, refs := 1, tokens := 100 })], lists := [(128, { entries := [(0, 0)], runs := [0] })] })]
    pools := [(0, { frames := 4, shelfBytes := 2048, heads := 1, d := 64 })], seqs := [(1, { st := .IN_STEP, layers := 1, length := 100 })] }

/-- Core 0 about to run AP_PASS on a descriptor of sequence 1, head 0, with the continue flag as given. -/
def apState (st : ShelfSt) (cont : Nat) (started : Bool) : State :=
  { withOp 2 { opWord 0x81 with dim0 := 1 } { ap := { started := started, pins := if started then [0] else [] } } with
    cache := oneShelf st, mem := memWrite [] (coreBase 0) (toLe 2 1 ++ toLe 1 0 ++ toLe 1 0 ++ toLe 2 1 ++ toLe 1 1 ++ toLe 1 cont) }

/-- AP_PASS: a first pass on shelves that may be pinned, a continued one, and a first one that waits for a shelf being restored. -/
theorem witness_attentionPipelineRuns :
    (let s := apState .FILLING 2 true
     s.starts 0 2 0x81 { opWord 0x81 with dim0 := 1 } ∧ s.postOk 0 { opWord 0x81 with dim0 := 1 } ∧
     (s.apDescAt 0 { opWord 0x81 with dim0 := 1 }).cont = true ∧ (s.core 0).ap.started = true) ∧
    (let s := apState .FILLING 0 false
     (s.apDescAt 0 { opWord 0x81 with dim0 := 1 }).cont = false ∧ (s.apVisible (s.apDescAt 0 { opWord 0x81 with dim0 := 1 })).length = 1 ∧
     ∀ e ∈ s.apVisible (s.apDescAt 0 { opWord 0x81 with dim0 := 1 }), (s.cache.shelf e.2).pinnable = true) ∧
    (let s := apState .RESTORING 0 false
     ∃ e ∈ s.apVisible (s.apDescAt 0 { opWord 0x81 with dim0 := 1 }), (s.cache.shelf e.2).pinnable = false) := by
  unfold State.starts State.postOk State.apVisible; decide +kernel

/-- A graph of two stations on cores 0 and 1 with one stream edge between them, its frame 0 open. -/
def gr0 : Graph :=
  { num := 0
    bundle := { header := { stations := 2, edges := 1 }
                cards := [{ station := 0, core := 0, nOut := 1, outEdges := [0] }, { station := 1, core := 1, nIn := 1, inEdges := [0] }]
                edges := [{ kind := 0, fmt := 2, producer := 0, consumer := 1, depth := 2, slotBytes := 256, frameTiles := 1 }] }
    places := [{ core := 0 }, { core := 1 }]
    streams := [{ edge := 0, copy := 0, credits := 1, depth := 2, rxLine := 1000, minFrame := 1,
                  rx := [{ slot := 0, frame := 0, seq := 0, fmt := 2, last := true, widened := false, poisoned := false, rows := 1, cols := 128
                           groupLen := 0, scaleFmt := 0 }] }]
    frames := [{ num := 0 }], nextFrame := 1 }

/-- Core 0 in a pass of a station of that graph. -/
def inPass (station : Nat) (e : Nat) (w : IWord) (gr : Graph := gr0) : State :=
  { withOp e w { station := station } with graphs := { graphs := [gr] } }

/-- The movers: a tile to send with the last credit, one to take, a read at the last line of the map's first stack and a gather at index 0. -/
theorem witness_dataMoversRun :
    ((inPass 0 3 (opWord 0xC2)).passCard 0 = some (gr0, nth {} gr0.bundle.cards 0) ∧
      (gr0.stream? (nth 0xFFFF (nth {} gr0.bundle.cards 0).outEdges 0) 0).isSome = true ∧
      (∀ st, gr0.stream? (nth 0xFFFF (nth {} gr0.bundle.cards 0).outEdges 0) 0 = some st → st.credits = 1 ∧ st.read < st.rx.length) ∧
      tblGet 0 ((inPass 0 3 (opWord 0xC2)).core 0).sent 0 < (gr0.edge 0).frameTiles ∧ (inPass 0 3 (opWord 0xC2)).coreFenced 0 = false) ∧
    ((inPass 1 4 (opWord 0xC3)).passCard 0 = some (gr0, nth {} gr0.bundle.cards 1) ∧
      gr0.stream? (nth 0xFFFF (nth {} gr0.bundle.cards 1).inEdges 0) 0 = gr0.stream? 0 0) ∧
    badRange 0x0 1 = false ∧ badRange 64 1 = true ∧
    (let w := { opWord 0xC6 with dim0 := 1, dim1 := 1, a := 131071 }
     ∀ i ∈ (withOp 3 w).gatherIndex 0 w, gatherOk w i) := by
  refine ⟨⟨rfl, rfl, ?_, by decide, rfl⟩, ⟨rfl, rfl⟩, by decide +kernel, by decide, ?_⟩
  · intro st h; cases h; decide
  · unfold gatherOk; decide +kernel

theorem witness_engineErrorsAbort :
    (∀ e ∈ List.range 5, ((devCore {}).core 0).queue e = [] ∧ ((devCore {}).core 0).run ≠ .RUNNING) ∧
    (∀ x ∈ [(0, 1), (0, 2), (0, 3), (0, 4), (0, 5), (0, 6), (1, 0x40), (1, 0x41), (1, 0x42), (1, 0x43), (1, 0x44), (1, 0x45), (1, 0x46),
        (1, 0x47), (1, 0x48), (1, 0x50), (1, 0x51), (1, 0x58), (2, 0x80), (2, 0x81), (2, 0x82), (3, 0xC0), (3, 0xC1), (3, 0xC2), (3, 0xC3),
        (3, 0xC4), (3, 0xC5), (3, 0xC6), (3, 0xC7)], (withOp x.1 (opWord x.2)).starts 0 x.1 x.2 (opWord x.2) ∧ (withOp x.1 (opWord x.2)).mgt.active < 2) ∧
    (recHdr (memRead (withOp 0 (opWord 0x01)).mem (coreBase 0) 0)).check (memRead (withOp 0 (opWord 0x01)).mem (coreBase 0) 0) ≠ none ∧
    badRange ((withOp 3 { opWord 0xC4 with dim0 := 0 }).descriptor 0 { opWord 0xC4 with dim0 := 0 }).1 1 = false ∧
    (let s := { withOp 3 { opWord 0xC4 with dim0 := 1 } with mem := memWrite [] (coreBase 0) (toLe 8 64) }
     badRange (s.descriptor 0 { opWord 0xC4 with dim0 := 1 }).1 1 = true) := by
  unfold State.starts; decide +kernel

/-! ### The sequencer (R97 … R105) -/

/-- A program word with this op, its post on flag 1 and these dim0 and imm. -/
def progWord (op dim0 imm : Nat) : BitVec 128 := BitVec.ofNat 128 (op * 2 ^ 120 + 2 ^ 98 + 2 ^ 94 + dim0 * 2 ^ 32 + imm)

/-- Core 0 in a pass of station 1 with that word at its PC. -/
def atWord (op dim0 imm : Nat) (k : CoreState := {}) (gr : Graph := gr0) : State :=
  { devCore { k with run := .RUNNING, station := 1, prog := [(0, progWord op dim0 imm)], flags := [(1, 254)] } with graphs := { graphs := [gr] } }

theorem witness_sequencerRuns :
    (∀ op ∈ [0xF0, 0xF1, 0xF2, 0xF3, 0xF4, 0xF5, 0xF6], let s := atWord op 1 1
      s.seqStarts 0 op (s.core 0).wordAtPc ∧ s.postOk 0 (s.core 0).wordAtPc ∧ (s.passCard 0).isSome = true ∧
      (s.core 0).queuesEmpty = true ∧ (s.core 0).ready = [] ∧ s.mgt.active < 2 ∧ opListed op = true) ∧
    (∀ ei ∈ maskEdges 1 [0], gr0.inputPresent 0 0 ei = true) ∧ (∃ ei ∈ maskEdges 1 [0], gr0.inputPresent 1 0 ei = false) ∧
    (∀ op ∈ [0x00, 0x07, 0x59, 0xEF, 0xF7], opListed ((atWord op 0 0).core 0).wordAtPc.op = false) ∧
    (((atWord 0xF6 0 0 { queueVe := [opWord 0x40] }).core 0).queuesEmpty = false) := by
  unfold State.seqStarts State.postOk; decide +kernel

/-- SEQ_LOOP at its bounds: 63 words, 2,047 passes. -/
theorem test_seq_loop : nextIs (exec (.seqLoop 0 .ok) (atWord 0xF3 2047 63))
    (fun t => (t.core 0).pc == 1 && (t.core 0).loops == [{ first := 1, len := 63, total := 2047, strideA := 0, strideO := 0 }]) = true := by
  decide +kernel

/-- A widen group 5 of both stations, one of which has reported that it crossed. -/
def grW (reports : List (Nat × Nat × Nat × Bool)) : Graph :=
  { gr0 with bundle := { gr0.bundle with cards := gr0.bundle.cards.map fun c => { c with fitMode := 2, widenGroup := 5 } }
             frames := [{ num := 0, reports := reports }] }

theorem witness_widenDecisionTaken :
    (let gr := grW [(5, 0, 0, true)]
     ∃ m ∈ gr.members 5 0, ∀ r ∈ [((5, 0, 0, true) : Nat × Nat × Nat × Bool)], ¬ (r.1 = 5 ∧ r.2.1 = 0 ∧ r.2.2.1 = m.station)) ∧
    (let rs := [((5, 0, 0, true) : Nat × Nat × Nat × Bool), (5, 0, 1, false)]
     let gr := grW rs
     let s := { dev with graphs := { graphs := [gr] } }
     s.graph? 0 = some gr ∧ gr.frame? 0 = some { num := 0, reports := rs } ∧ gr.members 5 0 ≠ [] ∧
     (∀ m ∈ gr.members 5 0, s.coreFenced (gr.place m.station 0).core = false ∧ ∃ r ∈ rs, r.1 = 5 ∧ r.2.1 = 0 ∧ r.2.2.1 = m.station) ∧
     s.slackOk gr { num := 0, reports := rs } (gr.members 5 0) 0 = true) := by
  refine ⟨by decide +kernel, rfl, rfl, by decide +kernel, by decide +kernel, by decide +kernel⟩

/-! ### Events of a core (R93 … R109) -/

theorem witness_coreEventsRun :
    (let s := devCore { run := .IDLE, ceBank := [(3, 65)], ceSince := 9000000 }
     64 < tblGet 0 (s.core 0).ceBank 3 ∧ s.now ≤ (s.core 0).ceSince + 1000000 ∧ s.ledgerRoom) ∧
    (devCore { run := .IDLE, ceBank := [(3, 64)] }).core 0 = { run := .IDLE, ceBank := [(3, 64)] } ∧
    (let s := devCore { run := .IDLE, scrubLine := 131071 }
     (s.core 0).run ≠ .RUNNING ∧ (s.core 0).run ≠ .RESET ∧ (s.core 0).scrubLine + 1 = 131072 ∧ s.storePoison = [] ∧ (s.core 0).passPins = [] ∧
     (s.core 0).ready = [] ∧ s.rangePoison (coreBase 0 + 128 * 131071) 128 = false ∧ s.clusterReporter 3 = some 0) ∧
    (dev.core 5).run = .RESET := by
  unfold State.ledgerRoom; decide +kernel
/-- The storm rule: 64 corrected errors of one bank are not one, 65 are (R105). -/
theorem test_ce_storm : nextIs (exec (.coreCeStorm 0 3) (devCore { ceBank := [(3, 64)], ceSince := 9000000 })) (fun t => t.graphs.tests.length == 0) = true ∧
    nextIs (exec (.coreCeStorm 0 3) (devCore { ceBank := [(3, 65)], ceSince := 9000000 })) (fun t => t.graphs.tests.length == 1) = true := by
  decide +kernel
/-! ### Loading a graph (R112 … R117, R510 … R512) -/

/-- Entries of a table for bytes from an address on, zero bytes left out. -/
def bytesAt (a : Nat) (bs : List Nat) : Tbl Byte :=
  ((List.range bs.length).map fun i => (a + i, BitVec.ofNat 8 (nth 0 bs i))).filter fun e => e.2 ≠ 0

/-- The sections of a bundle with one station on core 0, core 8 its alternate on die 1, one STREAM edge to the host: card, program (SEQ_END),
edge, no buffers, weights, initial values or store map, one fold record, forecast. -/
def bundleBody : Tbl Byte :=
  (bytesAt 4106 [0xFF, 0x0F] ++ bytesAt 4110 [1, 0, 1] ++ bytesAt 4117 [16]) ++
  bytesAt 4141 [1, 0xFF, 0xFF] ++ bytesAt 4144 (List.replicate 20 0xFF) ++ bytesAt 4166 (List.replicate 18 0xFF) ++
  bytesAt 4184 [0xFF, 0xFF, 0xFF, 0xFF, 8] ++ bytesAt 8207 [0xF6] ++ bytesAt 12289 [2, 0, 0, 0xFF, 0xFF, 2, 2, 0, 1, 0, 0, 1] ++
  bytesAt 16387 [3]

/-- The header: magic and format; one station, one edge, a 100 ms timeout, one frame in flight, period 10 ms; the section table; no inline
outputs. -/
def bundleFront : Tbl Byte := bytesAt 0 [0x42, 0x56, 0x42, 0x31, 1]
def bundleRest : Tbl Byte :=
  bytesAt 64 [1, 0, 1] ++ bytesAt 73 [1] ++ bytesAt 84 [100, 0, 0, 0, 1] ++ bytesAt 92 [0x10, 0x27] ++ bytesAt 133 [0x10] ++
  bytesAt 137 [0x10, 0, 0, 0x80] ++ bytesAt 145 [0x20, 0, 0, 0x10] ++ bytesAt 153 [0x30, 0, 0, 0x20] ++ bytesAt 161 [0x40] ++
  bytesAt 169 [0x40] ++ bytesAt 177 [0x40] ++ bytesAt 185 [0x40] ++ bytesAt 193 [0x40, 0, 0, 0x10] ++ bytesAt 201 [0x50, 0, 0, 0x10] ++
  bytesAt 208 (List.replicate 32 0xFF)

/-- The digest of the sections (R114). -/
def bundleDigest : List Byte := shake256 (memRead bundleBody 4096 16400)
/-- The image at address 0. -/
def bundleMem : Tbl Byte :=
  bundleFront ++ ((List.range 32).map fun i => (8 + i, nth 0 bundleDigest i)) ++ bundleRest ++ bundleBody

theorem tblGet_skip {α : Type} (d : α) (t : Tbl α) (k : Nat) :
    ∀ l : Tbl α, (∀ e ∈ l, e.1 ≠ k) → tblGet d (l ++ t) k = tblGet d t k
  | [], _ => rfl
  | (k', v) :: r, h => by
    have h1 : k ≠ k' := fun e => h (k', v) (by simp) e.symm
    simp only [List.cons_append, tblGet, h1, if_false]
    exact tblGet_skip d t k r fun e he => h e (by simp [he])

theorem bundleBody_span : memRead bundleMem 4096 16400 = memRead bundleBody 4096 16400 := by
  unfold memRead tblGetList
  refine List.map_congr_left fun i _ => tblGet_skip _ _ _ _ fun e he h => ?_
  simp only [List.mem_append, List.mem_map, List.mem_range] at he
  rcases he with (he | ⟨j, hj, rfl⟩) | he
  · have : ∀ e ∈ bundleFront, e.1 < 4096 := by decide +kernel
    have := this e he; omega
  · simp at h; omega
  · have : ∀ e ∈ bundleRest, e.1 < 4096 := by decide +kernel
    have := this e he; omega

theorem shake256_length (bs : List Byte) : (shake256 bs).length = 32 := by
  have h : ∀ v, (toLe 8 v).length = 8 := fun _ => rfl
  unfold shake256 sponge
  simp only [List.length_flatMap, h]
  rfl

theorem tblGet_range' {α : Type} (d : α) (f : Nat → α) (a i : Nat) (t : Tbl α) :
    ∀ n b, b ≤ i → i < b + n → tblGet d ((List.range' b n).map (fun j => (a + j, f j)) ++ t) (a + i) = f i
  | 0, b, h1, h2 => by omega
  | n + 1, b, h1, h2 => by
    rw [List.range'_succ, List.map_cons, List.cons_append, tblGet]
    by_cases h : i = b
    · subst h; simp
    · rw [if_neg (by omega)]
      exact tblGet_range' d f a i t n (b + 1) (by omega) (by omega)

theorem bundleDigest_stored : memRead bundleMem 8 32 = bundleDigest := by
  have h : ∀ i < 32, tblGet unlistedByte bundleMem (8 + i) = nth 0 bundleDigest i := by
    intro i hi
    unfold bundleMem
    rw [List.append_assoc, List.append_assoc, tblGet_skip, List.range_eq_range']
    · exact tblGet_range' _ _ _ _ _ _ _ (by omega) (by omega)
    · intro e he
      have : ∀ e ∈ bundleFront, e.1 < 8 := by decide +kernel
      have := this e he; omega
  unfold memRead tblGetList
  apply List.ext_getElem
  · simp [bundleDigest, shake256_length]
  · intro i h1 h2
    simp only [List.length_map, List.length_range] at h1
    simp only [List.getElem_map, List.getElem_range]
    rw [h i h1]
    simp [nth, List.getD, h2]

/-- The image as GRAPH_LOAD reads it. -/
def bundleImg : Img := fun o n => memRead bundleMem (0 + o) n

theorem bundle_digestOk : digestOk bundleImg = true := by
  have h1 : bundleImg.section_ 1 = (4096, 128) := by decide +kernel
  have h9 : bundleImg.section_ 9 = (20480, 16) := by decide +kernel
  unfold digestOk
  rw [h1, h9]
  simp only [bundleImg, Nat.zero_add, bundleDigest_stored]
  rw [bundleBody_span]
  exact beq_self_eq_true _

/-- Its graph header's last fields and the rest of section 0 are zero. -/
theorem bundle_tail : bundleImg.zero 240 3856 = true := by
  unfold Img.zero bundleImg memRead tblGetList
  rw [List.all_map, List.all_eq_true]
  intro i hi
  simp only [List.mem_range] at hi
  have h : tblGet unlistedByte bundleMem (0 + 240 + i) = 0 := by
    have := tblGet_skip unlistedByte [] (0 + 240 + i) bundleMem (by
      intro e he h
      simp only [bundleMem, List.mem_append, List.mem_map, List.mem_range] at he
      rcases he with ((he | ⟨j, hj, rfl⟩) | he) | he
      · have : ∀ e ∈ bundleFront, e.1 < 240 := by decide +kernel
        have := this e he; omega
      · simp at h; omega
      · have : ∀ e ∈ bundleRest, e.1 < 240 := by decide +kernel
        have := this e he; omega
      · have : ∀ e ∈ bundleBody, 4096 ≤ e.1 := by decide +kernel
        have := this e he; omega)
    rw [List.append_nil] at this
    rw [this]; rfl
  simp [h]

theorem bundle_header : headerFail bundleImg bundleImg.bundle 20496 = none := by
  unfold headerFail
  rw [bundle_tail]
  decide +kernel
theorem bundle_cards : cardsFail bundleImg bundleImg.bundle 0 = none := by decide +kernel
theorem bundle_programs : programsFail bundleImg.bundle = none := by decide +kernel
theorem bundle_edges : edgesFail bundleImg bundleImg.bundle = none := by decide +kernel
theorem bundle_buffers : buffersFail bundleImg bundleImg.bundle = none := by decide +kernel
theorem bundle_weights : weightsFail bundleImg bundleImg.bundle = none := by decide +kernel
theorem bundle_inits : initsFail bundleImg bundleImg.bundle = none := by decide +kernel
theorem bundle_map : mapFail bundleImg.bundle = none := by decide +kernel
theorem bundle_folds : foldsFail bundleImg.bundle = none := by decide +kernel
theorem bundle_forecast : forecastFail bundleImg bundleImg.bundle = none := by decide +kernel
theorem bundle_ranks : rankFail bundleImg.bundle = none := by decide +kernel
theorem bundle_placement : placementFail bundleImg.bundle [] = none := by decide +kernel
/-- The GRAPH_LOAD of the bundle at address 0, its length 20,496 B, as graph 0. -/
def loadPkt : Packet := pkt 0x01 (List.replicate 24 0 ++ toLe 8 20496)

/-- GRAPH_LOAD: a packet refused at once, a poisoned image, a bundle refused by its digest, and one that loads. -/
theorem witness_load_refused : (let s := withPacket (pkt 0x01 [])
    s.packet 0 0 0x01 = some (pkt 0x01 []) ∧ leAt (pkt 0x01 []).header 17 1 ≠ 1 ∧ firstBadStatus (s.loadArgs (pkt 0x01 [])) = some Status.ZERO_FIELD) ∧
    (let s := withPacket loadPkt { dev with hbmPoison := [(0, true)] }
     firstBadStatus (s.loadArgs loadPkt) = none ∧ s.liveCopy (loadCopies loadPkt) (leAt loadPkt.header 40 8) = none) := by decide +kernel
theorem witness_load : (let s := withPacket loadPkt { dev with mem := bundleMem }
    s.packet 0 0 0x01 = some loadPkt ∧ leAt loadPkt.header 17 1 ≠ 1 ∧ firstBadStatus (s.loadArgs loadPkt) = none ∧
    s.liveCopy (loadCopies loadPkt) (leAt loadPkt.header 40 8) = some 0 ∧ s.loadFail loadPkt (s.image 0) (s.image 0).bundle = none) := by
  refine ⟨by decide +kernel, by decide +kernel, by decide +kernel, by decide +kernel, ?_⟩
  show State.loadFail _ loadPkt bundleImg bundleImg.bundle = none
  have hc : contentFail bundleImg bundleImg.bundle 0 20496 = none := by
    simp [contentFail, bundle_header, bundle_cards, bundle_programs, bundle_edges, bundle_buffers, bundle_weights, bundle_inits, bundle_map,
      bundle_folds, bundle_forecast]
  have h1 : leAt loadPkt.header 16 1 = 0 := by decide +kernel
  have h2 : leAt loadPkt.header 40 8 = 20496 := by decide +kernel
  have h3 : loadNeeds loadPkt bundleImg.bundle = none := by decide +kernel
  have h4 : (withPacket loadPkt { dev with mem := bundleMem }).setupFail 0 bundleImg.bundle = none := by decide +kernel
  simp only [State.loadFail, bundle_digestOk, if_true, h1, h2, hc, h3, h4, bundle_ranks, Option.orElse_none]
  exact bundle_placement
theorem witness_load_digest : (let s := withPacket loadPkt
    firstBadStatus (s.loadArgs loadPkt) = none ∧ s.liveCopy (loadCopies loadPkt) (leAt loadPkt.header 40 8) = some 0 ∧
    digestOk (s.image 0) = false ∧ s.loadFail loadPkt (s.image 0) (s.image 0).bundle = some { status := Status.BAD_PACKET, sec := 0 } ∧
    s.ledgerRoom) := by
  unfold State.ledgerRoom; decide +kernel

theorem witness_unload :
    (let p := pkt 0x01 [0, 1]
     let s := withPacket p (withGraph gr0)
     s.packet 0 0 0x01 = some p ∧ leAt p.header 17 1 = 1 ∧ s.graph? (leAt p.header 16 1) = some gr0 ∧ gr0.state ≠ .unloading ∧ p.argsOnly 18 = true ∧
     (withPacket p).graph? (leAt p.header 16 1) = none) ∧
    (let gr := { gr0 with state := .unloading, frames := [] }
     (withGraph gr).graph? 0 = some gr ∧ gr.state = .unloading ∧ gr.frames = []) ∧
    ((withGraph gr0).graph? 0 = some gr0 ∧ (gr0.state ≠ .unloading ∨ gr0.frames ≠ [])) := by decide +kernel
/-- Unloading graph 0 of the device: admission stops, and GRAPH_UNLOAD_DONE takes it away once no frame is open. -/
theorem test_unload : nextIs (exec (.graphUnload 0 0) (withPacket (pkt 0x01 [0, 1]) (withGraph { gr0 with frames := [] })))
    (fun t => nextIs (exec (.graphUnloadDone 0) t) fun u => u.graphs.graphs == [] && t.graphs.graphs.length == 1) = true := by decide +kernel

/-- A graph that takes one more frame. -/
def grOpen : Graph := { gr0 with bundle := { gr0.bundle with header := { stations := 2, edges := 1, inFlight := 2 } } }

theorem witness_framesAdmitted :
    (let p := pkt 0x02 [0]
     let s := withPacket p (withGraph gr0)
     s.packet 0 0 0x02 = some p ∧ s.runBad (leAt p.header 16 1) = false ∧ p.argsOnly 17 = true ∧ p.link = 0 ∧ p.sq = 0 ∧
     (withPacket p).runBad (leAt p.header 16 1) = true ∧ (pkt 0x02 [0, 1]).argsOnly 17 = false) ∧
    (let p (n : Nat) := pkt 0x07 [] (toLe 2 0 ++ toLe 2 n ++ List.replicate 12 0 ++ List.replicate (8 * n) 0)
     (withPacket (p 1) (withGraph gr0)).packet 0 0 0x07 = some (p 1) ∧ stepBad (p 1) = false ∧ leAt (p 1).payload 2 2 ≠ 0 ∧
     (withPacket (p 1) (withGraph gr0)).runBad 0 = false ∧ (withPacket (p 1)).runBad 0 = true ∧ stepBad (p 0) = false ∧
     leAt (p 0).payload 2 2 = 0 ∧ stepBad (pkt 0x07 []) = true) ∧
    (let r : FrameReq := { graph := 0 }
     let s := withGraph grOpen { dev with graphs := { requests := [r] } }
     s.graph? 0 = some grOpen ∧ s.graphs.requests.find? (fun r => r.graph == (0 : Fin 64).val) = some r ∧ grOpen.state = .running ∧
     s.graphs.folding = false ∧ s.shadeAdmits grOpen = true ∧ grOpen.frames.length < grOpen.bundle.header.inFlight ∧ r.setFrame = none ∧
     r.steps = none ∧ grOpen.unplaceable = false ∧ r.invalid = false ∧ r.sq = 0xFF) ∧
    (let es : List StepEntry := [{ seq := 1, newTokens := 1, inputRow := 0 }]
     let s := withGraph grOpen { dev with graphs := { requests := [{ graph := 0, steps := some es }] } }
     s.stepWaits es = false ∧ (s.checkEntries grOpen es).any (·.live) = false) ∧
    (gr0.bundle.header.inFlight ≤ gr0.frames.length) := by decide +kernel
/-- A GRAPH_RUN opens the graph's next frame once it is admitted. -/
theorem test_frame_opens : nextIs (exec (.graphRun 0 0) (withPacket (pkt 0x02 [0]) (withGraph grOpen)))
    (fun t => nextIs (exec (.frameAdmit 0) t) fun u =>
      (u.graphs.graphs.map fun g => (g.frames.map (·.num), g.nextFrame)) == [([0, 1], 2)] && u.graphs.requests == []) = true := by decide +kernel

/-- The stream of `gr0` with these in-flight tiles, credits and fill. -/
def grS (inFlight : List Tile) (credits depth minFrame : Nat) : Graph :=
  { gr0 with streams := [{ edge := 0, copy := 0, credits := credits, depth := depth, rxLine := 1000, inFlight := inFlight, minFrame := minFrame
                           rx := [{ slot := 0, frame := 0, seq := 0, fmt := 2, last := true, widened := false, poisoned := false, rows := 1
                                    cols := 128, groupLen := 0, scaleFmt := 0 }] }] }
/-- A tile of station 0 for that stream. -/
def tile0 (stream : Nat) : Tile := { stream := stream, frame := 0, fmt := 2, last := true, rows := 1, cols := 128, producer := 0, body := List.replicate 128 0 }

theorem witness_dataflowMoves :
    ((withGraph gr0).graph? 0 = some gr0 ∧ gr0.frame? 0 = some { num := 0 } ∧ gr0.card? 1 0 = some (nth {} gr0.bundle.cards 1) ∧
      gr0.fireReady { num := 0 } (nth {} gr0.bundle.cards 1) 0 = true ∧ (gr0.place 1 0).placed = true ∧
      (withGraph gr0).coreFenced (gr0.place 1 0).core = false) ∧
    gr0.fireReady { num := 0, fired := [(1, 0)] } (nth {} gr0.bundle.cards 1) 0 = false ∧
    (let gr := grS [tile0 0] 0 2 0
     (withGraph gr).graph? 0 = some gr ∧ gr.stream? 0 0 = gr.streams.head? ∧ tileDisagrees 0 0 (gr.edge 0) (tile0 0) = false ∧
     gr.tileUnwanted (gr.edge 0) 0 0 = false ∧ (gr.streams.all (fun st => st.nextInOrder (tile0 0))) = true ∧ (gr.edge 0).consumer ≠ 0xFFFF ∧
     (gr.place 1 0).core < 32) ∧
    (tileDisagrees 0 0 (gr0.edge 0) (tile0 1) = true ∧ gr0.bundle.edges.length ≤ (tile0 1).stream) ∧
    ((grS [] 1 2 0).streams.all (fun st => st.credits < st.depth && st.inFlight == [])) = true ∧
    ((grS [] 2 2 0).streams.all (fun st => st.depth ≤ st.credits)) = true ∧ ((withGraph gr0).core (gr0.place 0 0).core).run ≠ .RUNNING ∧
    takeFirst (fun t : Token => t.graph == 0 && t.edge == 0 && t.copy == 0) [{ graph := 0, frame := 0, edge := 0, copy := 0 }] =
      some ({ graph := 0, frame := 0, edge := 0, copy := 0 }, []) := by decide +kernel
/-- A station fires once for a frame (R129). -/
theorem test_fires_once : nextIs (exec (.stationFire 0 0 1 0 [] false) (withGraph gr0)) (fun t =>
    nextIs (exec (.stationFire 0 0 1 0 [] false) t) fun u => decide (u = t) && (t.reg (ra .TDE_FIRE_COUNT 0) == 1)) = true := by decide +kernel
/-- A tile lands in the consumer's receive slot; one of another stream sets TDE_ERR_STATUS bit 0. -/
theorem test_tile : nextIs (exec (.tileArrive 0 0 0 []) (withGraph (grS [tile0 0] 0 2 0))) (fun t =>
      (t.graphs.graphs.map fun g => g.streams.map fun st => (st.rx.length, st.nextSlot, st.creditsBack)) == [[(2, 1, 0)]]) = true ∧
    nextIs (exec (.tileArrive 0 0 0 []) (withGraph (grS [tile0 1] 0 2 0))) (fun t =>
      (t.graphs.graphs.map fun g => g.streams.map fun st => (st.rx.length, st.creditsBack)) == [[(1, 1)]] &&
      t.reg (ra .TDE_ERR_STATUS 0) == 1) = true := by decide +kernel
/-- A version 1 of buffer 0 of graph 0, home on die 0: yet to reach die 1, to be acknowledged by dies 1 and 2, one of which has it. -/
def vmove : VersionMove :=
  { graph := 0, buffer := 0, version := 1, home := 0, toSend := [1], toAck := [1, 2], arrived := [2], since := 9999900
    then_ := .token { graph := 0, frame := 0, edge := 0, copy := 0 } }
def withMove (v : VersionMove) : State := { dev with graphs := { versions := [v] } }

theorem witness_versionsMove :
    ((withMove vmove).graphs.versions.find? (fun v => v.graph == 0 && v.buffer == 0 && v.toSend.contains 1) = some vmove) ∧
    ((withMove vmove).graphs.versions.find? (fun v => v.graph == 0 && v.buffer == 0 && v.toSend.contains 2) = none) ∧
    (takeFirst (fun v : VersionMove => v.graph == 0 && v.buffer == 0 && v.toAck.contains 2 && v.arrived.contains 2) (withMove vmove).graphs.versions =
      some (vmove, []) ∧ ∃ x ∈ vmove.toAck, x ≠ 2) ∧
    (let v := { vmove with toAck := [2] }
     takeFirst (fun v : VersionMove => v.graph == 0 && v.buffer == 0 && v.toAck.contains 2 && v.arrived.contains 2) (withMove v).graphs.versions =
      some (v, []) ∧ ∀ x ∈ v.toAck, x = 2) ∧
    ((withMove vmove).graphs.versions.find? (fun v => v.graph == 0 && v.buffer == 0 && v.toAck.contains 1 && v.since + 100 ≤ dev.now) = some vmove ∧
      vmove.home < 4) ∧
    ([{ vmove with since := 9999901 }].find? (fun v => v.graph == 0 && v.buffer == 0 && v.toAck.contains 1 && v.since + 100 ≤ dev.now) = none) := by
  decide +kernel

/-- `gr0` with its frame opened at 9.9 s and a timeout of 100 ms; `grDone`: the frame was withheld. -/
def grLate (openedAt : Nat) : Graph :=
  { gr0 with bundle := { gr0.bundle with header := { stations := 2, edges := 1, timeoutMs := 100 } }, frames := [{ num := 0, openedAt := openedAt }] }
def grDone : Graph := { gr0 with frames := [{ num := 0, withheld := true, codes := [Status.INVALID] }] }

theorem witness_framesComplete :
    ((withGraph (grLate 9900000)).graph? 0 = some (grLate 9900000) ∧ (9900000 + 1000 * 100 ≤ dev.now) ∧ dev.now < 9900001 + 1000 * 100) ∧
    ((withGraph grDone).graph? 0 = some grDone ∧ (grDone.frames.all fun fr => (withGraph grDone).releasable grDone fr) = true) ∧
    ((withGraph gr0).releasable gr0 { num := 0 } = false ∧ gr0.frames.head? = some { num := 0 }) ∧
    (let gr := { gr0 with bundle := { gr0.bundle with header := { stations := 2, edges := 1, safety := 1 } } }
     gr.bundle.header.safety = 1 ∧ (withGraph gr).judges 0 gr { num := 0 } = true) := by decide +kernel
/-- A withheld frame completes and its graph counts it (R141). -/
theorem test_release : nextIs (exec (.frameRelease 0) (withGraph grDone)) (fun t =>
    (t.graphs.graphs.map fun g => (g.frames.map (·.num), g.doneCount, g.withheld)) == [([], 1, 1)]) = true := by decide +kernel

/-- Core 9 fenced and tested; die 2 fenced and tested. -/
def fenced9 : State := { dev with graphs := { fencedCores := [9], fencedDies := [2], liftable := [9, 34] } }

theorem witness_fencesFold :
    (∀ u ∈ ([.core 0, .core 31, .cluster 7, .die 3] : List FenceUnit), dev.unitFenced u = false) ∧ fenced9.unitFenced (.core 9) = true ∧
    (({ dev with graphs := { folding := true } } : State).graphs.folding = true ∧ ({ dev with graphs := { folding := true } } : State).dieFenced 0 = false) ∧
    dev.graphs.folding = false ∧ ((9 ∈ fenced9.graphs.fencedCores) ∧ 9 ∈ fenced9.graphs.liftable ∧ fenced9.graphs.folding = false ∧
      ∀ gr ∈ fenced9.graphs.graphs, gr.unplaceable = false) ∧
    (2 ∈ fenced9.graphs.fencedDies ∧ 32 + 2 ∈ fenced9.graphs.liftable ∧ (∀ x ∈ fenced9.recovery.dieResets, x.1 ≠ 2) ∧
      ∀ k : Fin 4, fenced9.catRegion k = none) ∧
    (∃ x ∈ unitTests (.core 9), x ∉ ({ fenced9 with graphs := { fenced9.graphs with liftable := [] } } : State).graphs.liftable) ∧
    (let p := pkt 0x0B [1, 0]
     (withPacket p (withGraph gr0)).packet 0 0 0x0B = some p ∧ leAt p.header 16 1 = 1 ∧ p.argsOnly 20 = true ∧
     (withPacket p (withGraph gr0)).graph? (leAt p.header 17 1) = some gr0 ∧ gr0.state = .running ∧ (withPacket p (withGraph gr0)).homeFenced gr0 = false ∧
     (withPacket p).graph? (leAt p.header 17 1) = none ∧
     ({ withGraph gr0 with graphs := { fencedCores := [1] } } : State).homeFenced gr0 = true) ∧
    (let gr := { gr0 with state := .paused, frames := [] }
     (withGraph gr).graph? 0 = some gr ∧ gr.state = .paused ∧ gr.frames = [] ∧ (withGraph gr).homeFenced gr = false) := by decide +kernel
/-- A fence starts a fold; FOLD_DONE ends it; a core goes back into service only after its test. -/
theorem test_fence : nextIs (exec (.fenceSet (.core 9)) dev) (fun t => t.graphs.folding && t.coreFenced 9 && nextIs (exec .foldDone t) fun u =>
      !u.graphs.folding && nextIs (exec (.fenceLift (.core 9)) u) fun v => v.coreFenced 9) = true ∧
    nextIs (exec (.fenceLift (.core 9)) fenced9) (fun t => !t.coreFenced 9) = true := by decide +kernel

theorem witness_stallsAndTests :
    (let p := pkt 0x0B [0, 0, 31]
     (withPacket p).packet 0 0 0x0B = some p ∧ leAt p.header 16 1 = 0 ∧ p.argsOnly 20 = true ∧ leAt p.header 18 2 ≤ 31 ∧
     31 < leAt (pkt 0x0B [0, 0, 32]).header 18 2) ∧
    (let s := inPass 1 0 (opWord 0x06)
     (s.passCard 0).isSome = true ∧ (s.core 0).run = .RUNNING ∧ (s.core 0).firedAt + 0 ≤ s.now ∧
     (∀ t ∈ s.graphs.tests ++ s.graphs.testing, ¬ (t.unit = 0 ∧ t.cause = 0)) ∧ s.coreFenced 0 = false ∧ s.mgt.queue.length < ledgerQueueMax) ∧
    (let q (c : Nat) : TestReq := { unit := 5, cause := c, at_ := 0 }
     (∀ t ∈ dev.graphs.testing, t.unit ≠ 5) ∧ takeFirst (fun (t : TestReq) => t.unit == 5) [q 0] = some (q 0, []) ∧ (q 0).cause ≠ 2 ∧ (q 0).cause ≠ 6 ∧
     ((tblGet [] dev.lan.glints 5 ++ [dev.lan.checked]).filter (fun x => dev.lan.checked < x + 1000)).length < 3 ∧
     takeFirst (fun (t : TestReq) => t.unit == 5) [q 6] = some (q 6, []) ∧ (q 6).cause = 6) := by decide +kernel
/-! ### The shelf cache (R154 … R195) -/

/-- A CACHE_OP packet of one entry, and the device with it, a catalogue on die 0 and this cache. -/
def cpkt : Packet := pkt 0x08 [] (toLe 2 1 ++ List.replicate 78 0)
def catDev (c : ShelfCache) : State := (withPacket cpkt dev).setReg (ra .CAT_REGION_BASE_LO 0) 0x08000001#32 |> fun s => { s with cache := c }
/-- Pool 0 with one LIVE sequence 1 of one layer, without shelves; the pool is bound-only when `b`. -/
def liveSeq (b : Bool) (window : Nat) : ShelfCache :=
  { cats := [(0, { run := 2 })], pools := [(0, { frames := 4, shelfBytes := 65536, heads := 1, d := 32, fmt := 5, boundOnly := b })]
    seqs := [(1, { st := .LIVE, layers := 1, window := window })] }

theorem witness_poolsManaged :
    ((catDev {}).packet 0 0 cacheOp = some cpkt ∧ ((catDev {}).nextEntry 0 0 cacheOp).isSome = true) ∧
    (let s := catDev {}
     let x : Pool := { die := 0, base := 0, frames := 1, shelfBytes := 0x10000, heads := 1, d := 32, fmt := 5, altDie := 0xFF }
     0x10000 ∈ [0x10000, 0x20000, 0x40000, 0x80000, 0x100000, 0x200000] ∧ 256 * x.tokenBytes ≤ 0x10000 ∧ inStack 0 (1 * 0x10000) 0 = true ∧
     s.reservedRange 0 (1 * 0x10000) = false ∧ (s.cache.pool 15).exists_ = false ∧ s.serves 0 63 = false ∧ s.dieFenced 0 = false ∧ s.catRegion 0 ≠ none) ∧
    inStack 0x3FFFF0000 0x20000 0 = false ∧
    (let s := catDev { liveSeq false 0 with seqs := [] }
     (s.cache.pool 0).exists_ = true ∧ (∀ x ∈ s.cache.seqs, x.2.pool = 0 → x.2.st = .CLOSED) ∧
     ∀ x ∈ (s.cache.cat (s.cache.pool 0).die).shelves, x.2.pool ≠ 0) ∧
    (¬ ∀ x ∈ (liveSeq false 0).seqs, x.2.pool = 0 → x.2.st = .CLOSED) := by decide +kernel
/-- POOL_CREATE as pool 15, at the edge of the reserved catalogue region and inside it. -/
theorem test_pool_create : (let mk (base : Nat) := exec (.poolCreate 0 0 15 0 base 1 0x10000 1 32 5 false 0xFF 0 63) (catDev {})
    nextIs (mk 0x7FF0000) (fun t => (t.cache.pool 15).exists_) && nextIs (mk 0x8000000) (fun t => !(t.cache.pool 15).exists_) &&
    nextIs (mk 0x9FF0000) (fun t => !(t.cache.pool 15).exists_) && nextIs (mk 0xA000000) fun t => (t.cache.pool 15).exists_) = true := by
  decide +kernel

theorem witness_sequencesManaged :
    ((2 ≤ 4095 ∧ ((liveSeq false 0).seq 2).st = .CLOSED ∧ ((liveSeq false 0).pool 0).exists_ = true) ∧ ((liveSeq false 0).seq 1).st ≠ .CLOSED) ∧
    (let s := catDev (liveSeq false 0)
     let r := s.cache.seq 1
     r.st = .LIVE ∧ r.basePos ≤ r.length ∧ r.layers ≤ 128 ∧ (s.cache.cat (s.cache.pool r.pool).die).usedRuns.length +
      ((List.range r.layers).map fun l => ((s.cache.list 1 l).entries.length + 62) / 63).sum ≤ catRuns) ∧
    (let c := liveSeq true 256
     let r := c.seq 1
     r.st = .LIVE ∧ (c.pool 0).boundOnly = true ∧ 256 ≤ r.window ∧ r.bound = false ∧
     (c.pool 0).reservedTotal + ((r.window + 255) / 256 + 2) * r.layers ≤ (c.pool 0).freeCount) ∧
    (let c := liveSeq true 1024
     (c.pool 0).freeCount < (c.pool 0).reservedTotal + (((c.seq 1).window + 255) / 256 + 2) * (c.seq 1).layers) ∧
    (∃ l, l < 1 ∧ ((oneShelf .FILLING).list 1 l).entries ≠ []) ∧ (∀ l, l < 1 → ((liveSeq false 0).list 1 l).entries = []) ∧
    ((liveSeq false 0).seq 1).busy = false ∧ ((oneShelf .FILLING).seq 1).busy = true := by
  refine ⟨by decide +kernel, by decide +kernel, by decide +kernel, by decide +kernel, ⟨0, by decide, by decide +kernel⟩, ?_, by decide, by decide⟩
  intro l hl
  obtain rfl : l = 0 := by omega
  decide +kernel
/-- OPEN makes a LIVE sequence; CLOSE of one in a step is NOT_READY and leaves it. -/
theorem test_open_close : nextIs (exec (.open_ 0 0 2 0 7 128 0) (catDev (liveSeq false 0))) (fun t =>
      (t.cache.seq 2).st == .LIVE && (t.cache.seq 2).layers == 128) = true ∧
    nextIs (exec (.close 0 0 1) (catDev (oneShelf .FILLING))) (fun t => (t.cache.seq 1).st == .IN_STEP) = true ∧
    nextIs (exec (.close 0 0 1) (catDev (liveSeq false 0))) (fun t => (t.cache.seq 1).st == .CLOSED) = true := by decide +kernel

/-- A copy under way, an archive at the one shelf, a stall past its timeout. -/
def cow0 : CowCopy := { seq := 1, layer := 0, index := 0, source := 0, dest := 1, graph := 0, frame := 0, entry := 0 }
def arch0 : ArchiveJob := { seq := 1, pool := 0 }
def stall0 : Stall := { graph := 0, frame := 0, entry := 0, seq := 1, layer := 0, since := 0, restarted := 9000000, timeoutMs := 1000 }
/-- The ARCHIVE_IN of one 64 B chunk of sequence 1, epoch 0, chunk 0. -/
def restorePkt : Packet := pkt 0x09 [] (toLe 2 1 ++ List.replicate 10 0 ++ toLe 2 1 ++ List.replicate 10 0 ++ toLe 4 64 ++ List.replicate 100 0)

theorem witness_archivesRun :
    ((let s := { dev with cache := { oneShelf .FILLING with cows := [cow0] } }
      s.cache.cows.find? (fun x => x.seq == 1 && x.layer == 0 && x.index == 0) = some cow0 ∧ s.cache.appends = [] ∧
      s.cache.archives.find? (fun j => j.seq == 1) = none ∧ s.cache.cows.find? (fun x => x.seq == 1 && x.layer == 1 && x.index == 0) = none)) ∧
    (let s := { dev with hif := { dev.hif with cqs := [(0, { enabled := true })] }, cache := { oneShelf .FILLING with archives := [arch0] } }
     s.cache.archives.find? (fun j => j.seq == 1) = some arch0 ∧ s.cache.nextOut arch0 = some (0, 0) ∧ (s.cache.shelf 0).tokens ≠ 0 ∧
     ((s.cache.shelf 0).st = .FILLING ∧ (s.cache.shelf 0).pins < 65535)) ∧
    (({ oneShelf .COPYING with archives := [arch0] } : ShelfCache).shelf 0).st = .COPYING ∧
    (let s := { withGraph gr0 with cache := { oneShelf .FILLING with stalls := [stall0] } }
     s.cache.stalls.find? (fun t => t.graph == (0 : Fin 64).val && t.frame == 0 && t.restarted + 1000 * t.timeoutMs ≤ s.now) = some stall0 ∧
     s.graph? 0 = some gr0 ∧ gr0.frame? 0 = some { num := 0 } ∧ (s.cache.pool (s.cache.seq stall0.seq).pool).die < 4) ∧
    ([{ stall0 with restarted := 9000001 }].find? (fun t => t.graph == 0 && t.frame == 0 && t.restarted + 1000 * t.timeoutMs ≤ dev.now) = none) ∧
    ((withPacket restorePkt).packet 0 0 0x09 = some restorePkt ∧ restoreBad restorePkt = false ∧ restoreBad (pkt 0x09 []) = true ∧
      (let c : ShelfCache := { liveSeq false 0 with seqs := [(1, { st := .ARCHIVED, layers := 1, chunks := 2 })] }
       let b := restorePkt.payload
       leAt b 0 2 = 1 ∧ leAt b 4 4 = (c.seq 1).epoch ∧ leAt b 16 4 < (c.seq 1).chunks ∧ leAt b 12 2 = 1 ∧ leAt b 20 4 = 0 ∧
       leAt b 20 4 + leAt b 24 4 ≤ leAt b 12 2 * (c.pool 0).tokenBytes)) := by decide +kernel
/-! ### HBM and remote caches (R196 … R213) -/

/-- The device with stack 0 READY; `k` changes its controller. -/
def hbmDev (k : McState → McState := id) (s : State := dev) : State := s.modMc 0 fun m => k { m with run := 3, setAvail := 0xFF, present := true }

theorem witness_hbmAccessed :
    (hbmEnd ≤ hbmEnd ∧ (dev.mc 0).run ≠ 3) ∧
    (let s := hbmDev
     0 < hbmEnd ∧ (s.mc (stackOf 0)).run = 3 ∧ s.setFenced 0 = false ∧ s.retired 0 = false ∧
     ((s.mc 0).pc (hbmPc 0)).writeQueue.contains (0 / 64) = false ∧ s.rangePoison (0 / 32 * 32) 32 = false ∧
     ((s.mc 0).pc (hbmPc 0)).ceLogged = none ∧ s.mgt.queue.length < ledgerQueueMax ∧ (0x3FFFFFFC0 < hbmEnd ∧ 0x3FFFFFFC0 % 64 = 0 ∧ stackOf 0x3FFFFFFC0 = 0)) ∧
    (let s := hbmDev fun m => { m with pcs := [(hbmPc 0, { writeQueue := [0], ceLogged := some 9000000 })] }
     ((s.mc 0).pc (hbmPc 0)).writeQueue.contains (0 / 64) = true ∧ s.now < 9000000 + 60000000) ∧
    (let s := hbmDev fun m => { m with coolSince := some 9000000, refresh := 2 }
     (s.mc 0).coolSince = some 9000000 ∧ 0 < (s.mc 0).refresh ∧ 9000000 + 1000000 ≤ s.now) ∧ (hbmDev.mc 0).refresh = 0 ∧
    (let s := hbmDev fun m => { m with scrubPos := stackBytes - 64 }
     (s.mc 0).run = 3 ∧ s.rangePoison (0 * stackBytes + (s.mc 0).scrubPos) 64 = false ∧ (s.mc 0).scrubPos % 64 = 0 ∧ (s.mc 0).scrubPos < stackBytes ∧
     stackBytes ≤ (s.mc 0).scrubPos + 64 ∧ (s.mc 0).lastCalibration + 256000 ≤ s.now) ∧
    ¬ ((dev.mc 1).run = 3 ∧ (dev.mc 1).lastCalibration + 256000 ≤ dev.now) := by decide +kernel
/-- A write stands in memory and is forwarded to a read behind it (R205). -/
theorem test_hbm_write_read : nextIs (exec (.hbmWriteAccept 64 [1, 2] false) hbmDev) (fun t => nextIs (exec (.hbmRead 65 .ok) t) fun u =>
    memRead u.mem 64 3 == [1, 2, 0] && u.reg (ra .MC_RAW_WAITS 0) == 1) = true := by decide +kernel
/-- An uncorrectable word is poisoned and its row is to be tested (R200, R201). -/
theorem test_hbm_ue : nextIs (exec (.hbmRead 32 .ue) hbmDev) (fun t => t.rangePoison 32 32 && !t.rangePoison 0 32 && !t.rangePoison 64 32 &&
    (t.mc 0).rowTests.length == 1) = true := by decide +kernel

theorem witness_hbmRepaired :
    (let s := hbmDev fun m => { m with rowTests := [{ addr := 0 }] }
     (s.mc 0).run = 3 ∧ (∀ y ∈ (s.mc 0).rowTests, y.started = false) ∧ (s.mc 0).rowTests = [{ addr := 0 }] ∧
     ∀ x, (s.mc 0).rowTests.head? = some x → x.started = false) ∧
    (let s := hbmDev fun m => { m with rowTests := [{ addr := 0, started := true }], glints := [(rowKey 0 + 1, 0)] }
     (∃ y ∈ (s.mc 0).rowTests, y.started = true) ∧ stackOf 0 = 0 ∧ (∀ g ∈ (s.mc 0).glints, g.1 = rowKey 0 → g.2 + 86400000000 ≤ s.mgtTime) ∧
     (s.mc 0).repairs.length < 256 ∧ ((s.mc 0).retired.filter (fun b => b / 0x80000 == hbmSet 0)).length < 64) ∧
    ((hbmDev.mc 0).run = 3 ∧ ((hbmDev.mc 0).pc 31).st = 0) ∧
    (let s := hbmDev fun m => { m with pcs := [(31, { st := 2 })] }
     ((s.mc 0).pc 31).st = 2 ∧ hbmSet 0x380000000 = 31 / 4 ∧ stackOf 0x380000000 = 0) := by
  refine ⟨⟨by decide +kernel, by decide +kernel, by decide +kernel, ?_⟩, by decide +kernel, by decide +kernel, by decide +kernel⟩
  intro x hx
  cases hx
  rfl
/-- The fifth failure of a command loses the set (R203). -/
theorem test_ca_parity : nextIs (exec (.caParityAlert 0 5 3) hbmDev) (fun t => ((t.mc 0).pc 5).st == 0 && t.reg (ra .MC_CA_REPLAYS 0) == 4) = true ∧
    nextIs (exec (.caParityAlert 0 5 4) hbmDev) (fun t => ((t.mc 0).pc 5).st == 2 && (t.mc 0).lostSets == [1]) = true := by decide +kernel

/-- A graph with one buffer of 256 B on die 1's stack at version 3, and die 0's cache watching it, with this line. -/
def rcDev (ls : List RcLine) (fills : List RcFill) (errs : Tbl Nat) (now : State := dev) : State :=
  (({ withGraph { gr0 with bundle := { gr0.bundle with buffers := [{ addr := 0x400000000, bytes := 256, home := 1, at_ := 0x400000000, version := 3 }] } } now with
      hbm := { rcs := [(0, { lines := ls, fills := fills, wayErrors := errs, ranges := [(0, 0)] })] } }).setReg (ra .RC_CTRL 0) 1#32)
def rcLine (v : Nat) : RcLine := { addr := 0x400000080 / 128, graph := 0, buffer := 0, version := v, way := 2, data := List.replicate 128 0 }
def rcFill0 (o : Bool) : RcFill := { addr := 0x400000080 / 128, graph := 0, buffer := 0, version := 3, overtaken := o }

theorem witness_remoteCachesRun :
    (let s := rcDev [] [] []
     s.rangeOf 0 0x4000000FF = some (0, 0) ∧ 0x4000000FF < hbmEnd ∧ stackOf 0x4000000FF ≠ 0 ∧ s.rcOn 0 = true ∧ s.rangeOf 0 0x400000100 = none ∧
     ∀ l ∈ (s.rc 0).lines, l.addr ≠ 0x4000000FF / 128) ∧
    (let s := rcDev [rcLine 3] [] []
     (s.rc 0).lines.find? (fun l => l.addr == 0x400000080 / 128) = some (rcLine 3) ∧ (rcLine 3).version = s.versionAt 0 0 0 ∧
     tblGet 0 (s.rc 0).wayErrors 2 ≠ 3) ∧
    (let s := rcDev [rcLine 2] [] [(2, 3)]
     (s.rc 0).lines.find? (fun l => l.addr == 0x400000080 / 128) = some (rcLine 2) ∧ (rcLine 2).version ≠ s.versionAt 0 0 0 ∧
     tblGet 0 (s.rc 0).wayErrors 2 = 3) ∧
    (∀ o ∈ [true, false], let s := rcDev [] [rcFill0 o] []
     takeFirst (fun (f : RcFill) => f.addr == 0x400000080 / 128) (s.rc 0).fills = some (rcFill0 o, []) ∧
     s.rangePoison (128 * (rcFill0 o).addr) 128 = false ∧ s.rcOn 0 = true ∧ ((s.rc 0).newWay (rcSet 0x400000080)).isSome = true) ∧
    dev.hif.hostReady = true ∧ dev.hif.locked = false := by decide +kernel
/-- A stale line is no hit (R212). -/
theorem test_rc_stale : nextIs (exec (.rcLookup 0 0x400000080 .ok) (rcDev [rcLine 2] [] [])) (fun t => t.reg (ra .RC_STALE 0) == 1 &&
      t.reg (ra .RC_HITS 0) == 0 && (t.rc 0).fills.length == 1) = true ∧
    nextIs (exec (.rcLookup 0 0x400000080 .ok) (rcDev [rcLine 3] [] [])) (fun t => t.reg (ra .RC_HITS 0) == 1) = true := by decide +kernel
/-! ### The network (R214 … R236) -/

/-- A message: channel, destination and source (die, x, y), tag; reads carry address 0. -/
def msg (vc dd dx dy sd sx sy tag : Nat) (rd : Bool := false) : NetMsg :=
  { header := BitVec.ofNat 64 (vc * 2 ^ 62 + dd * 2 ^ 59 + dx * 2 ^ 56 + dy * 2 ^ 53 + sd * 2 ^ 50 + sx * 2 ^ 47 + sy * 2 ^ 44 + tag)
    read := rd, addr := 0, payload := [] }
/-- The device with these messages and its routes set. -/
def netDev (ms : List MeshMsg) (reads : List OpenRead := []) : State :=
  let s := dev.setRoutes
  { s with net := { s.net with messages := ms, reads := reads, meshTests := [1, 5], ports := same 24 { st := 4, width := 0xFF, peerWidth := 0xFF, role := 0xA } } }

theorem witness_meshRuns :
    (isNode 0 6 0 = false ∧ isNode 0 5 7 = true ∧ isNode 5 3 2 = true ∧ isNode 5 3 3 = false) ∧
    (let m := msg 2 0 5 7 0 0 0 9
     let s := netDev [{ die := 0, x := 5, y := 7, msg := m }, { die := 0, x := 5, y := 6, msg := m }]
     { die := (0 : Fin 6).val, x := 5, y := 7, msg := m } ∈ s.net.messages ∧ m.dstDie = 0 ∧ m.dst = (5, 7) ∧ m.dst ≠ (5, 6) ∧ m.vc ≠ 3 ∧
     ∀ n ∈ s.net.messages, ¬ (n.die = 0 ∧ n.x = 4 ∧ n.y = 7 ∧ n.msg = m)) ∧
    (let s := { netDev [] with net := { (netDev []).net with routes := [(0, 7 * 2 ^ 9)] } }
     let m := msg 2 3 0 0 0 1 1 9 true
     m.dstDie ≠ 0 ∧ portPeer 0 (s.route 0 m.dstDie) = none ∧ m.vc = 2 ∧ m.read = true) ∧
    (let s := netDev []
     let m := msg 0 1 0 0 0 1 1 9
     m.dstDie ≠ 0 ∧ s.route 0 m.dstDie = 1 ∧ portPeer 0 1 = some (1, 1) ∧ exitModule (s.port 0 1) (modulesOf 0 1) m = some 0 ∧
     moduleNode 0 1 0 = (5, 2) ∧ (s.port 0 1).st = 4 ∧ (s.port 1 1).st = 4) ∧
    (let r : OpenRead := { die := 0, x := 1, y := 1, tag := 9, since := 9999900, msg := msg 2 3 0 0 0 1 1 9 true }
     (netDev [] [r]).net.reads.find? (fun r => r.die == 0 && r.x == 1 && r.y == 1 && r.tag == 9 && r.since + 100 ≤ dev.now) = some r ∧ r.msg.tag = 9 ∧
     (netDev [] [{ r with since := 9999901 }]).net.reads.find? (fun r => r.die == 0 && r.x == 1 && r.y == 1 && r.tag == 9 && r.since + 100 ≤ dev.now) = none) ∧
    ((1 : Fin 6).val ∈ (netDev []).net.meshTests ∧ (5 : Fin 6).val ∈ (netDev []).net.meshTests ∧ (0 : Fin 6).val ∉ (netDev []).net.meshTests) := by
  decide +kernel

/-- The device with port 1 of die 0, and its peer, as given. -/
def portDev (x : PortState) : State := { dev with net := { dev.net with ports := same 24 x } }

theorem witness_linkFaultsHandled :
    (portPeer 0 1 = some (1, 1) ∧ portPeer 4 2 = none) ∧ (((portDev { st := 4, flitFails := 5 }).port 0 1).st = 4 ∧ 5 ≤ ((portDev { st := 4, flitFails := 5 }).port 0 1).flitFails) ∧
    ((portDev { st := 4, flitFails := 4 }).port 0 1).flitFails < 5 ∧ ((portDev { st := 3 }).port 0 1).st ≠ 4 ∧
    (let x := (portDev { st := 4, replaySec := 1001 }).port 0 1
     1000 < x.replaySec ∧ x.marginalAt = none) ∧ ((portDev { st := 4, replaySec := 1000 }).port 0 1).replaySec ≤ 1000 ∧
    (((portDev { st := 1 }).port 0 1).st = 1 ∧ ((portDev { st := 1 }).port 0 1).fenced = false) ∧
    (let s := portDev { st := 5, fenced := true, untested := true }
     (s.port 0 1).fenced = true ∧ (s.port 0 1).untested = true ∧ (s.port 0 1).lasting = false ∧ s.dieUp 0 = true ∧ s.dieUp 1 = true ∧
     (s.port 0 1).glints + 1 < 3) ∧
    3 ≤ ((portDev { st := 5, fenced := true, untested := true, glints := 2 }).port 0 1).glints + 1 := by decide +kernel
/-- A link falls only after five failures of one flit (R228), on both ends. -/
theorem test_link_down : nextIs (exec (.d2dLinkDown 0 1 0) (portDev { st := 4, flitFails := 4 })) (fun t => (t.port 0 1).st == 4) = true ∧
    nextIs (exec (.d2dLinkDown 0 1 0) (portDev { st := 4, flitFails := 5 })) (fun t => (t.port 0 1).st == 1 && (t.port 1 1).st == 1 && (t.port 0 2).st == 4) = true := by
  decide +kernel

theorem witness_linksTrained :
    (let s := portDev { st := 2 }
     portPeer 0 1 = some (1, 1) ∧ (s.port 0 1).st = 2 ∧ (s.port 1 1).st = 2 ∧ bits 0xFF#32 27 0 = bits 0xF00000FF#32 27 0 ∧
     ({ s.port 0 1 with width := 0xFF, peerWidth := 0xFF, role := 0xA } : PortState).usable (modulesOf 0 1) = true ∧
     bits 0xFF#32 27 0 ≠ bits 0x7F#32 27 0 ∧ (s.port 0 1).tries < 4 ∧ (s.port 0 1).sidebandFails + 1 < 3 ∧ portPeer 0 1 ≠ none ∧ (s.port 0 1).st ≠ 6 ∧
     ∀ t ∈ s.net.portTests, t.1 ≠ 0) ∧
    (4 ≤ ((portDev { st := 2, tries := 4 }).port 0 1).tries ∧ 3 ≤ ((portDev { st := 2, sidebandFails := 2 }).port 0 1).sidebandFails + 1) ∧
    (let s := portDev { st := 3 }
     (s.port 0 1).st = 3 ∧ s.dieUp 0 = true ∧ s.dieUp 1 = true) ∧ ((portDev { st := 6 }).port 0 1).st = 6 ∧
    (takeFirst (fun (t : Nat × Nat × Nat × Nat) => t.1 == 0) [((0, 1, 1, 4) : Nat × Nat × Nat × Nat)] = some ((0, 1, 1, 4), [])) := by decide +kernel
/-- A near-end test ends with the port's former state and its result (R234). -/
theorem test_near_end : nextIs (exec (.d2dTestNearEnd 0 1) (portDev { st := 4 })) (fun t => (t.port 0 1).st == 6 &&
    nextIs (exec (.d2dTestDone 0 3 true) t) fun u => (u.port 0 1).st == 4 && u.reg (ra .D2D_TEST_RESULT 0) == 0x10000003#32) = true := by decide +kernel
/-! ### The host link (R237 … R276) -/

/-- The device with ring 0 of link 0 enabled: 1,024 units, completions on ring 0, and these registers besides. -/
def ringDev (q : SqState) (c : CqState) : State :=
  ({ dev with hif := { dev.hif with sqs := [(0, q)], cqs := [(0, c)] } } |>.setReg (ra .HIF_SQ_CFG 0 0) 0x80100000#32)
    |>.setReg (ra .HIF_CQ_CFG 0 0) 0x80100000#32 |>.setReg (ra .HIF_SQ_BASE_LO 0 0) 0x100000#32

theorem witness_ringSetUp :
    (let s := ringDev {} { enabled := true }
     s.hif.hostReady = true ∧ s.hif.locked = false ∧ (s.sq 0 0).run = .DISABLED ∧ badRingSize 0x80100000#32 = false ∧
     (s.cq 0 (bits 0x80100000#32 5 0)).enabled = true ∧
     s.inWindow (s.addrOf (ra .HIF_SQ_BASE_LO 0 0) (ra .HIF_SQ_BASE_HI 0 0), 64 * ringUnits 0x80100000#32) = false) ∧
    badRingSize 0x800F0000#32 = true ∧ badRingSize 0x80190000#32 = true ∧ badRingSize 0x80180000#32 = false ∧
    ((ringDev { run := .IDLE } {}).sq 0 0).run ≠ .DISABLED ∧ ((ringDev {} {}).cq 0 0).enabled = false ∧
    (let s := ringDev {} {}
     s.inWindow (s.addrOf (ra .HIF_CQ_BASE_LO 0 0) (ra .HIF_CQ_BASE_HI 0 0), 64 * ringUnits 0x80100000#32) = false ∧
     s.inWindow (s.addrOf (ra .HIF_CQ_STAT_LO 0 0) (ra .HIF_CQ_STAT_HI 0 0), 64) = false ∧ s.isArchiveRing 0 0 = false) ∧
    ({ ringDev {} {} with cache := liveSeq false 0 }).isArchiveRing 0 0 = true := by decide +kernel
/-- A ring of 2 ^ 15 bytes is refused, one of 2 ^ 16 is not (R244). -/
theorem test_ring_size : nextIs (exec (.sqEnable 0 0 0x800F0000#32) (ringDev {} { enabled := true })) (fun t => (t.sq 0 0).run == .DISABLED &&
      (t.reg (ra .HIF_ERR_STATUS 0)).getLsbD 1) = true ∧
    nextIs (exec (.sqEnable 0 0 0x80100000#32) (ringDev {} { enabled := true })) (fun t => (t.sq 0 0).run == .IDLE) = true := by decide +kernel

theorem witness_doorbellsMove :
    (let s := ringDev { run := .IDLE, head := 3, tail := 5 } {}
     s.sqUnits 0 0 = 1024 ∧ (s.sq 0 0).run ≠ .DISABLED ∧ ringDist 1024 3 5 ≤ ringDist 1024 3 2 ∧ ¬ ringDist 1024 3 5 ≤ ringDist 1024 3 4 ∧
     bits 1023#32 17 0 < 1024 ∧ ¬ bits 1024#32 17 0 < 1024) ∧
    (let s := ringDev {} { enabled := true, head := 1023, tail := 2 }
     s.cqUnits 0 0 = 1024 ∧ (s.cq 0 0).enabled = true ∧ ringDist 1024 1023 2 ≤ ringDist 1024 1023 2 ∧ ¬ ringDist 1024 1023 3 ≤ ringDist 1024 1023 2) := by
  decide +kernel

/-- A NOP's header; a header that names type 0. -/
def nopHeader : List Byte := (pkt 0x0C []).header
theorem witness_packetsTaken :
    (nopHeader.length = 64 ∧ leAt nopHeader 2 2 = 0) ∧ ¬ ((List.replicate 63 (0 : Byte)).length = 64) ∧
    (let s := ringDev { run := .IDLE, head := 1023, tail := 0 } { enabled := true }
     let p : Packet := { link := 0, sq := 0, header := nopHeader, payload := [], epoch := (s.link 0).epoch }
     s.linkRuns 0 = true ∧ (s.sq 0 0).run = .IDLE ∧ (s.sq 0 0).taken = [] ∧ (s.sq 0 0).head ≠ (s.sq 0 0).tail ∧
     p.units ≤ ringDist (s.sqUnits 0 0) (s.sq 0 0).head (s.sq 0 0).tail ∧ (p.order = true → (s.sq 0 0).outstanding = 0) ∧ p.headerOk = true ∧
     p.type ≠ 0x08 ∧ p.type ≠ 0x0A) ∧
    ((ringDev { run := .IDLE } {}).sq 0 0).head = ((ringDev { run := .IDLE } {}).sq 0 0).tail ∧
    ((ringDev { shortSince := some 9999000 } {}).sq 0 0).shortSince = some 9999000 ∧ 9999000 + 1000 ≤ dev.now ∧ dev.now < 9999001 + 1000 ∧
    ((ringDev { run := .ERROR } {}).sq 0 0).run = .ERROR ∧
    ((withPacket (pkt 0x0F [])).front 0 0 = some (pkt 0x0F []) ∧ 0x0E < (pkt 0x0F []).type ∧ ¬ 0x0E < (pkt 0x0E []).type) ∧
    ((withPacket (pkt 0x0C [])).packet 0 0 0x0C = some (pkt 0x0C []) ∧ (pkt 0x0C []).argsOnly 16 = true ∧ (pkt 0x0C [1]).argsOnly 16 = false) := by
  decide +kernel
/-- A NOP is taken, completes OK and moves the ring's head (R266). -/
theorem test_nop : nextIs (exec (.sqFetch 0 0 nopHeader [] .ok) (ringDev { run := .IDLE, head := 1023, tail := 0 } { enabled := true })) (fun t =>
    nextIs (exec (.nop 0 0) t) fun u => (u.sq 0 0).head == 0 && ((u.cq 0 0).queue.map (·.status)) == [Status.OK] && (u.sq 0 0).taken == []) = true := by
  decide +kernel

/-- A completion of a NOP without payload. -/
def comp0 : Completion := { kind := 0x80, link := 0, cq := 0, tag := 0, status := 0, cmdType := 0x0C, sq := 0 }
theorem witness_completionsWritten :
    (let s := ringDev { run := .IDLE } { enabled := true, queue := [comp0] }
     (s.cq 0 0).queue = comp0 :: [] ∧ s.linkRuns 0 = true ∧ (s.cq 0 0).enabled = true ∧ comp0.link = 0 ∧ comp0.cq = 0 ∧ comp0.part = 0 ∧
     comp0.payload.length ≤ 65600 ∧ comp0.units ≤ s.cqRoom 0 0) ∧
    (let s := ringDev { run := .IDLE } { enabled := true, queue := [comp0], head := 1, tail := 0 }
     s.cqRoom 0 0 < comp0.units) ∧
    (let s := (ringDev { run := .IDLE } { enabled := true, firstAt := some 9999900 }).setReg (ra .HIF_CQ_MOD 0 0) 0x6400#32
     (s.cq 0 0).firstAt = some 9999900 ∧ s.field (ra .HIF_CQ_MOD 0 0) 23 8 = 100 ∧ 9999900 + 100 ≤ s.now ∧ (s.link 0).up = true ∧
     (s.reg (ra .MSIX_TABLE 0 (s.field (ra .HIF_CQ_CFG 0 0) 5 0) 3)).getLsbD 0 = false) ∧
    (let s := ringDev {} { fullSince := some 9900000 }
     (s.cq 0 0).fullSince = some 9900000 ∧ 9900000 + 100000 ≤ s.now ∧ (s.cq 0 0).fullLogged = false) := by decide +kernel
/-- A ring with one free unit takes a completion of one unit, and is full then (R248). -/
theorem test_completion_room : nextIs (exec (.completionWrite 0 0 false) (ringDev { run := .IDLE } { enabled := true, queue := [comp0], head := 2, tail := 0 }))
      (fun t => (t.cq 0 0).tail == 1 && (t.cq 0 0).queue == [] && t.cqRoom 0 0 == 0) = true := by decide +kernel

theorem witness_linkEventsRun :
    ((dev.link 0).up = true ∧ (dev.link 0).perst = false ∧ (dev.link 0).lost = false ∧ dev.pins.porst = true ∧
      ∀ u, u < 12 → (dev.streamOn 0 u && dev.streamHost 0 u) = false) ∧ (State.reset.link 0).up = false := by decide +kernel

/-- A TENSOR_PUT of 64 bytes to this address, a TENSOR_GET from it, a management message. -/
def putPkt (a n : Nat) : Packet := pkt 0x03 ([0, 1] ++ List.replicate 14 0 ++ toLe 8 a ++ toLe 4 n) (List.replicate 64 7)
def getPkt (a : Nat) : Packet := pkt 0x04 ([0, 1] ++ List.replicate 14 0 ++ toLe 8 a ++ toLe 4 64)
/-- A SAMPLE part of 64 bytes at offset 64 of a 192-byte sample of stream 0, format 0x20. -/
def samplePkt (offset : Nat) : Packet :=
  pkt 0x03 ([1, 0, 0x11, 0] ++ toLe 2 8 ++ toLe 2 8 ++ [3, 0, 0, 0] ++ toLe 4 192 ++ toLe 8 5 ++ toLe 8 0 ++ toLe 4 offset) (List.replicate 64 7)
def sampleDev : State :=
  ({ dev with sin := [(0, { run := 1, samples := [{ id := 0, stream := 0, index := 5, got := 64 }] })] } : State).setReg (ra .SIN_S_CFG 0 0) 0xC0110000#32

theorem witness_hostDataPackets :
    (let p := putPkt 0x3FFFFFFC0 64
     let s := withPacket p
     s.packet 0 0 0x03 = some p ∧ leAt p.header 16 1 = 0 ∧ p.itemsOk = true ∧ p.items = [(0x3FFFFFFC0, 64)] ∧ s.putStatus (0x3FFFFFFC0, 64) = 0 ∧
     64 ≤ p.payload.length ∧ zeroFrom p.payload 64 p.payload.length = true ∧ s.buffersIn 0x3FFFFFFC0 64 = []) ∧
    (let p := putPkt hbmEnd 64
     let s := withPacket p
     p.items = [(hbmEnd, 64)] ∧ itemSkewed (hbmEnd, 64) = false ∧ s.putStatus (hbmEnd, 64) ≠ 0) ∧
    (leAt (pkt 0x03 [2]).header 16 1 ≠ 1 ∧ leAt (pkt 0x03 [2]).header 16 1 ≠ 0) ∧
    (let p := samplePkt 64
     let s := withPacket p sampleDev
     s.front 0 0 = some p ∧ p.type = 3 ∧ leAt p.header 16 1 = 1 ∧ s.intakeRuns p.link = true ∧ hostStream p.link p.samplePart.stream = some 0 ∧
     s.partStatus p (some 0) = 0 ∧ (s.openSample p.link 0).isSome = true ∧ s.buffered p.link 0 = false ∧ p.samplePart.last = false) ∧
    (let p := samplePkt 0
     (withPacket p sampleDev).partStatus p (hostStream p.link p.samplePart.stream) ≠ 0) ∧
    (let p := getPkt 0x3FFFFFFC0
     (withPacket p).packet 0 0 0x04 = some p ∧ p.itemsOk = true ∧ leAt p.header 16 1 = 0 ∧ p.payload = [] ∧
     (p.items.map (·.2)).foldl (· + ·) 0 ≤ 65536 ∧ ∀ x ∈ p.items, x.2 ≠ 0 ∧ itemSkewed x = false ∧ validRange x.1 x.2 = true) ∧
    (let m := toLe 2 0x4B49 ++ [1, 1] ++ toLe 4 32 ++ List.replicate 24 0
     let p := pkt 0x0D (toLe 4 32) (m ++ List.replicate 32 0)
     (withPacket p).packet 0 0 0x0D = some p ∧ leAt p.header 16 4 = 32 ∧ zeroFrom p.payload 32 p.payload.length = true ∧
     zeroFrom p.header 20 44 = true ∧ requestOk (p.payload.take 32) = true ∧ requestOk (p.payload.drop 32) = false) := by decide +kernel
/-- TENSOR_PUT writes its bytes and TENSOR_GET answers them (R259, R260). -/
theorem test_put_get : nextIs (exec (.tensorPutMemory 0 0) (withPacket (putPkt 64 64))) (fun t => memRead t.mem 64 64 == List.replicate 64 7 &&
    memGet t.mem 63 == 0 && memGet t.mem 128 == 0 && t.getItem (64, 64) == (List.replicate 64 7, false)) = true := by decide +kernel

/-- A CONFIG packet of one item, and the device with it at the front. -/
def cfgPkt (code g unit v : Nat) : Packet := pkt 0x0A (toLe 2 1) (toLe 2 code ++ toLe 1 g ++ [0] ++ toLe 2 unit ++ [0, 0] ++ toLe 4 v ++ List.replicate 52 0)
/-- Graph 0 on group 0 of the aligners. -/
def grouped (s : State) : State := s.setReg (ra .ALN_G_CFG 0 0) 0x80000000#32

theorem witness_configItems :
    (∀ v ∈ [256, 65536], let p := cfgPkt 1 0 1 v
     let s := withPacket p (withGraph gr0)
     (match s.nextEntry 0 0 configType with
      | some (q, e) => decide (q = p) && leAt e 0 2 == 1 && decide (s.graph? (leAt e 2 1) = some gr0) && leAt e 4 2 == 1 && itemValue e == v
      | none => false) = true ∧ (s.sq 0 0).run ≠ .HELD ∧ (∃ c ∈ gr0.bundle.cards, c.station = 1) ∧ gr0.bundle.header.safety ≠ 1 ∧ s.hif.locked = false) ∧
    (∀ v ∈ [120, 360, 119, 361], let p := cfgPkt 2 0 0 v
     (match (withPacket p).nextEntry 0 0 configType with
      | some (_, e) => leAt e 0 2 == 2 && itemValue e == v
      | none => false) = true) ∧
    (∀ v ∈ [3, 4, 5, 6], let p := cfgPkt v 0 0 1000
     let s := withPacket p (grouped dev)
     (match s.nextEntry 0 0 configType with
      | some (_, e) => leAt e 0 2 == v && itemValue e == 1000 && decide (s.groupOfGraph (leAt e 2 1) ≠ none)
      | none => false) = true) := by decide +kernel
/-- POWER_CAP at its bounds (R264, R444). -/
theorem test_power_cap : (let cap (v : Nat) := exec (.powerCap 0 0) (withPacket (cfgPkt 2 0 0 v) { dev with thermal := { dev.thermal with cap := 200 } })
    nextIs (cap 120) (·.thermal.cap == 120) && nextIs (cap 360) (·.thermal.cap == 360) && nextIs (cap 119) (·.thermal.cap == 200) &&
    nextIs (cap 361) (·.thermal.cap == 200)) = true := by decide +kernel

/-- Both planners with a road map of four nodes, edition 1 the newest. -/
def planDev (run : PlanRun := .READY) : State := { dev with pln := { pl := same 2 { run := run, map := { nodes := 4 }, newest := 1 }, lastNumber := 1 } }
def deltaPkt (n base : Nat) : Packet := pkt 0x05 ([3, 0, 0, 0] ++ toLe 4 base ++ toLe 4 n) (if n = 0 then [] else toLe 4 5 ++ List.replicate 60 0)
def planPkt (node : Nat) : Packet := pkt 0x06 ([3, 0] ++ toLe 2 1 ++ toLe 4 0 ++ toLe 4 node)

theorem witness_planPacketsTaken :
    (∀ x ∈ [(0, 0), (1, 0), (1, 1), (1, 7)], let p := deltaPkt x.1 x.2
     let s := withPacket p planDev
     s.packet 0 0 0x05 = some p ∧ leAt p.header 17 1 = 0 ∧ leAt p.header 24 4 = x.1 ∧ leAt p.header 20 4 = x.2 ∧ zeroFrom p.header 28 36 = true ∧
     zeroFrom p.payload (4 * x.1) p.payload.length = true ∧ (∀ e ∈ p.deltaEntries, bitsN e 31 28 < (s.planSetNow s.planLeader).n) ∧
     repeats (p.deltaEntries.map fun e => (deltaCell e).1) = false ∧ p.planners = 3 ∧ s.namedPlanners p.planners ≠ [] ∧
     (withPacket p).namedPlanners p.planners = []) ∧
    (let p := pkt 0x05 ([3, 1] ++ List.replicate 14 0 ++ toLe 8 0 ++ toLe 4 4096)
     let s := withPacket p planDev
     s.packet 0 0 0x05 = some p ∧ leAt p.header 17 1 = 1 ∧ zeroFrom p.header 18 14 = true ∧ zeroFrom p.header 44 20 = true ∧ p.payload = [] ∧
     s.namedPlanners p.planners ≠ []) ∧
    (let p := planPkt 3
     let s := withPacket p planDev
     s.front 0 0 = some p ∧ p.type = 0x06 ∧ leAt p.header 18 2 = 1 ∧ zeroFrom p.header 17 1 = true ∧ zeroFrom p.header 36 28 = true ∧
     s.namedPlanners p.planners = [0, 1] ∧ (∀ h ∈ s.namedPlanners p.planners, s.requestStatus h p = 0) ∧
     ∀ h ∈ s.namedPlanners p.planners, (s.planner h).requests.length < 8) ∧
    (withPacket (planPkt 4) planDev).requestStatus 0 (planPkt 4) ≠ 0 := by decide +kernel
/-- A PLAN_REQ waits at both planners; one that names a node past the road map's completes at once (R262, R377). -/
theorem test_plan_req : nextIs (exec (.planReq 0 0) (withPacket (planPkt 3) planDev)) (fun t => (t.planner 0).requests.length == 1 &&
      (t.planner 1).requests.length == 1) = true ∧
    nextIs (exec (.planReq 0 0) (withPacket (planPkt 4) planDev)) (fun t => (t.planner 0).requests.length == 0) = true := by decide +kernel

theorem witness_attestationsSigned :
    (let p := pkt 0x0E []
     (withPacket p).front 0 0 = some p ∧ p.type = 0x0E ∧ leAt p.header 48 1 ≤ 1 ∧ zeroFrom p.header 49 15 = true ∧ p.payload = [] ∧
     dev.mgt.attestWait.length < 16) ∧ ¬ leAt (pkt 0x0E (List.replicate 32 0 ++ [2])).header 48 1 ≤ 1 ∧
    (let s := { dev with mgt := { dev.mgt with attestWait := [.packet (pkt 0x0E [])] } }
     s.mgt.attestWait = .packet (pkt 0x0E []) :: [] ∧ s.managed = true ∧ (s.hubMgt s.mgt.active).xmssNext < 2 ^ 40 ∧
     (s.hubMgt s.mgt.active).xmssEnd ≤ (s.hubMgt s.mgt.active).xmssNext ∧ s.mgt.active < 2 ∧ s.mgt.queue.length < ledgerQueueMax) ∧
    (let s := { dev with mgt := { dev.mgt with hubs := [(0, { role := .ACTIVE, xmssNext := 2 ^ 40 })] } }
     2 ^ 40 ≤ (s.hubMgt s.mgt.active).xmssNext) := by decide +kernel
/-! ### Sensors (R277 … R309) -/

/-- Hub 0's intake runs: CSI-2 port 0 with stream 0 (8-bit raw, at most 8 × 8, virtual channel 0), Ethernet port 0 with stream 8 (UDP port 5000) of
this format and share, CAN port 0 with a filter on identifier 0x123. -/
def sinDev (ethFmt : Nat) (samples : List Sample := []) (ready : List Nat := []) : State :=
  [(ra .SIN_S_CFG 0 0, 0x80010000#32), (ra .SIN_P_CFG 0 0, 0x88000000#32), (ra .SIN_S_SIZE 0 0, 0x00080008#32),
   (ra .SIN_S_CFG 0 8, BitVec.ofNat 32 (0x80000000 + ethFmt * 65536 + 5000)), (ra .SIN_P_CFG 0 4, 0x80000000#32), (ra .SIN_S_SIZE 0 8, 0x00100010#32),
   (ra .SIN_S_BUF 0 8, 1#32), (ra .SIN_S_BUDGET_CAP 0 8, 10#32), (ra .SIN_S_RATIO 0 8, 100#32), (ra .SIN_P_CFG 0 6, 0x80000000#32),
   (ra .SIN_S_CFG 0 12, 0x80000000#32), (ra .SIN_P_FILT 0 6 0, 0x80000123#32), (ra .SIN_P_FILT 0 6 1, 0x7FF#32)].foldl
    (fun s x => s.setReg x.1 x.2) { dev with sin := [(0, { run := 1, nextId := 5, samples := samples, ready := ready })] }

/-- An Ethernet frame with a UDP datagram to this port, its IP checksum and FCS right. -/
def udpFrame (port : Nat) (body : List Byte) : List Byte :=
  let n := 28 + body.length
  let ip (ck : Nat) : List Byte := [0x45, 0] ++ toBe 2 n ++ [0, 0, 0, 0, 64, 17] ++ toBe 2 ck ++ List.replicate 8 0
  let f := List.replicate 12 0 ++ [8, 0] ++ ip (0xFFFF - onesSum (ip 0)) ++ toBe 2 1 ++ toBe 2 port ++ toBe 2 (8 + body.length) ++ [0, 0] ++ body
  f ++ toLe 4 (crc32 f).toNat

/-- A grey 16 × 16 JPEG, 4:2:0: one quantisation table of ones, one code for DC difference 0, one for the end of a block. -/
def jpeg0 : List Byte :=
  [0xFF, 0xD8, 0xFF, 0xDB, 0, 67, 0] ++ List.replicate 64 1 ++ [0xFF, 0xC0, 0, 17, 8, 0, 16, 0, 16, 3, 1, 0x22, 0, 2, 0x11, 0, 3, 0x11, 0] ++
  [0xFF, 0xC4, 0, 20, 0x00, 1] ++ List.replicate 15 0 ++ [0] ++ [0xFF, 0xC4, 0, 20, 0x10, 1] ++ List.replicate 15 0 ++ [0] ++
  [0xFF, 0xDA, 0, 12, 3, 1, 0, 2, 0, 3, 0, 0, 63, 0, 0x00, 0x0F, 0xFF, 0xD9]
/-- It as one fragment of a JPEG stream (R282). -/
def fragment : List Byte := toLe 2 0x4A46 ++ [3, 0] ++ toLe 4 0 ++ toLe 4 0 ++ toLe 4 jpeg0.length ++ toLe 8 77 ++ jpeg0

/-- An open sample of stream `u`. -/
def open0 (u : Nat) : Sample := { id := 4, stream := u, index := 0 }

theorem witness_csi :
    ((dev.intakeRuns 0 = false) ∧
     (let s := sinDev 0x10
      s.csiStream 0 0 0 = some 0 ∧ s.sampleIds 0 ∧ s.entriesFull 0 0 = false ∧ s.openSample 0 0 = none) ∧
     (let s := sinDev 0x10 [open0 0]
      s.csiStream 0 0 0 = some 0 ∧ s.sampleIds 0 ∧ s.openSample 0 0 = some (open0 0) ∧ (open0 0).kind = .DATA ∧ csiType (s.streamFmt 0 0) = 0x2A ∧
      s.pipeWaits 0 0 = false ∧ (open0 0).embedded = false ∧ ((s.setReg (ra .SIN_S_STAMP 0 0) 0x80000000#32).sinReg 0 .SIN_S_STAMP 0).getLsbD 31 = true ∧
      s.linesKind 0 0 [[1, 2], [3, 4]] = .DATA ∧ s.linesKind 0 0 [[1, 2], [3]] = .DIM_IMPLAUSIBLE ∧ s.linesKind 0 0 (List.replicate 8 (List.replicate 8 1)) = .DATA ∧
      s.linesKind 0 0 (List.replicate 9 [1]) = .DIM_IMPLAUSIBLE ∧ s.linesKind 0 0 [[], []] = .EMPTY)) := by
  unfold State.sampleIds; decide +kernel
/-- A CSI-2 frame of two lines becomes a 2 × 2 sample (R279, R290). -/
theorem test_csi_frame : nextIs (exec (.csi2FrameStart 0 0 0 .ok []) (sinDev 0x10)) (fun a => nextIs (exec (.csi2LongPacket 0 0 0 0x2A [1, 2] .ok true) a) fun b =>
    nextIs (exec (.csi2LongPacket 0 0 0 0x2A [3, 4] .ok true) b) fun c => nextIs (exec (.csi2FrameEnd 0 0 0 .ok) c) fun d =>
      ((d.intake 0).samples.map fun x => (x.st, x.width, x.height, x.lines)) == [(.ready, 2, 2, [[1, 2], [3, 4]])]) = true := by decide +kernel

theorem witness_eth :
    (let s := sinDev 0x10
     s.intakeRuns 0 = true ∧ s.portOn 0 4 = true ∧ readEth none (udpFrame 5000 fragment) = .udp 5000 fragment ∧ s.udpStream 0 0 5000 = some 8 ∧
     s.udpStream 0 0 5001 = none ∧ s.streamFmt 0 8 = 0x10 ∧ s.openSample 0 8 = none ∧ s.entriesFull 0 8 = false ∧ leAt fragment 0 2 = 0x4A46 ∧
     24 < fragment.length ∧ leAt fragment 2 1 % 4 = 3 ∧ leAt fragment 8 4 = 0 ∧ leAt fragment 12 4 = (fragment.drop 24).length ∧
     s.heldBytes 0 8 + (fragment.drop 24).length ≤ s.shareBytes 0 8) ∧
    readEth none (List.replicate 63 0) = .drop ∧
    (let f : List Byte := List.replicate 12 0 ++ [0x88, 0x08] ++ List.replicate 46 0
     readEth none (f ++ toLe 4 (crc32 f).toNat) = .ignore) ∧
    (let f : List Byte := List.replicate 12 0 ++ [0x86, 0xDD] ++ List.replicate 46 0
     readEth none (f ++ toLe 4 (crc32 f).toNat) = .other) ∧
    (let s := (sinDev 0x20 [open0 8]).setReg (ra .SIN_S_PT 0 8 6) 0x0000FFFF#32 |>.setReg (ra .SIN_S_PT 0 8 7) 0#32
     s.openSample 0 8 = some (open0 8) ∧ leAt (s.pointDesc 0 8) 24 2 = 0xFFFF ∧ leAt (s.pointDesc 0 8) 31 1 = 0 ∧
     bitN (leAt fragment (leAt (s.pointDesc 0 8) 28 2) 1) (leAt (s.pointDesc 0 8) 30 1) = false ∧
     s.heldBytes 0 8 + fragment.length ≤ s.shareBytes 0 8 ∧
     (recordsOf (s.pointDesc 0 8) fragment false).length ≤ (s.streamMax 0 8).1 * (s.streamMax 0 8).2) := by decide +kernel

theorem witness_canFramesKept :
    (let s := sinDev 0x10
     s.intakeRuns 0 = true ∧ s.portOn 0 6 = true ∧ (s.sinPort 0 6).busOff = false ∧ s.canAccepts 0 6 0x123 = true ∧ s.streamOn 0 12 = true ∧
     s.canAccepts 0 6 0x122 = false ∧ s.portOn 0 7 = false) ∧
    ({ dev with sin := [(0, { ports := [(6, { busOff := true })] })] } : State).sinPort 0 6 = { busOff := true } := by decide +kernel

/-- A JPEG sample that waits for a decoder, and one that is in decoder 3 since 9.9999 s. -/
def jpegReady : Sample := { open0 8 with st := .ready, data := jpeg0 }
def jpegIn : Sample := { open0 8 with st := .decoding, data := jpeg0, decoder := some 3, decodeSince := 9999990 }

theorem witness_decodersRun :
    (let s := sinDev 0x10 [jpegReady] [4]
     (s.intake 0).ready = [4] ∧ s.sample? 0 4 = some jpegReady ∧ s.jpegBad 0 8 jpeg0 = false ∧ s.freeDecoder 0 = some 0 ∧ s.jpegBad 0 8 (jpeg0.take 60) = true ∧
     s.sampleIds 0 ∧ jpegReady.kind = .DATA ∧ s.streamFmt 0 8 = 0x10) ∧
    (let s := sinDev 0x10 ((List.range 8).map fun d => { open0 8 with id := d, decoder := some d })
     s.freeDecoder 0 = none) ∧
    (let s := sinDev 0x10 [jpegIn]
     s.inDecoder 0 3 = some jpegIn ∧ s.budgetCycles 0 8 = 8000 ∧ s.sampleIds 0 ∧ jpegIn.decodeSince * 800 + s.budgetCycles 0 8 ≤ s.now * 800 ∧
     s.now * 800 < (jpegIn.decodeSince + 1) * 800 + s.budgetCycles 0 8) := by
  unfold State.sampleIds; decide +kernel
/-- The grey JPEG decodes to 16 × 16 samples of 128 in each component (R295). -/
theorem test_jpeg : ((decodeJpeg jpeg0).map fun r => (r.1, r.2.1, r.2.2.map fun p => (p.length, p.all (· == 128)))) =
    some (16, 16, [(256, true), (256, true), (256, true)]) := by decide +kernel
theorem witness_decoded : ((sinDev 0x10 [jpegIn]).decoded 0 jpegIn).isSome = true ∧
    (sinDev 0x10 [{ jpegIn with data := jpeg0.take 60 }]).decoded 0 { jpegIn with data := jpeg0.take 60 } = none := by decide +kernel
/-! ### Samples, sets and merges (R290, R306 … R340) -/

theorem witness_samplesBecomeTiles :
    (let x : Sample := { open0 0 with st := .ready, assigned := true, lines := [[1, 2], [3, 4]] }
     let s := sinDev 0x10 [x]
     s.intakeRuns 0 = true ∧ s.frontSample 0 0 = some x ∧ s.pipeReady 0 x = true ∧ s.bindingsOf 0 0 = [] ∧ (s.streamFmt 0 0 ≠ 0x20) ∧
     s.frontSample 0 1 = none ∧ x.kind = .DATA) ∧
    (let x : Sample := { open0 8 with st := .decoded, assigned := true }
     let s := sinDev 0x20 [x]
     s.frontSample 0 8 = some x ∧ s.pipeReady 0 x = true ∧ s.streamFmt 0 8 = 0x20) ∧
    (sinDev 0x10 [open0 0]).pipeReady 0 (open0 0) = false ∧
    (let x : Sample := { open0 0 with st := .decoded, assigned := true, sent := true }
     (sinDev 0x10 [x]).frontSample 0 0 = some x ∧ (sinDev 0x10 [x]).tilesWait 0 0 x.frames = false ∧ x.last = none) ∧
    (let x : Sample := { open0 0 with st := .done, assigned := true, kind := .LOST }
     (sinDev 0x10 [x]).frontSample 0 0 = some x ∧ (sinDev 0x10 [x]).setTurn 0 0 x.set = true ∧ x.kind ≠ .DATA) := by decide +kernel

theorem witness_sensorUnitsEnabled :
    (let s := (sinDev 0x10).setReg (ra .SIN_S_SILENCE 0 0) 100#32
     s.intakeRuns 0 = true ∧ s.fromPort 0 0 = true ∧ (s.stream 0 0).silent = false ∧
     (s.stream 0 0).lastBegin + 1000 * (s.sinReg 0 .SIN_S_SILENCE 0).toNat ≤ s.now ∧ s.openSample 0 0 = none ∧ s.mgt.queue.length < ledgerQueueMax ∧
     s.hif.hostReady = true ∧ s.hif.locked = false ∧ s.streamOn 0 1 = false ∧ s.bufUnits 0 = 1 ∧ s.bufUnits 0 + s.sinField 0 .SIN_S_BUF 1 8 0 ≤ 256) ∧
    (let s := ((sinDev 0x10).setReg (ra .SIN_S_BUF 0 1) 255#32).setReg (ra .SIN_S_BUF 0 2) 256#32
     s.bufUnits 0 + s.sinField 0 .SIN_S_BUF 1 8 0 = 256 ∧ 256 < s.bufUnits 0 + s.sinField 0 .SIN_S_BUF 2 8 0) ∧
    (let s := ((sinDev 0x10).setReg (ra .SIN_B_BASE 0 0) 0x00080008#32).setReg (ra .SIN_B_BAND 0 0) 8#32
     s.bindingBad 0 (s.bindingOf 0 0 0x80000200#32) = false ∧ s.graph? (s.bindingOf 0 0 0x80000200#32).graph = none ∧
     s.bindingBad 0 (s.bindingOf 0 1 0x80000200#32) = true) ∧
    ((dev.cameraOf 0 0 0xC0000000#32).bad = false ∧ ((dev.setReg (ra .PRM_C_D 0 0 4) 1#32).cameraOf 0 0 0xC0000000#32).bad = true) ∧
    ((sinDev 0x20).pointSum 0 0 ≤ 262144 ∧ (∀ n ∈ (sinDev 0x20).pointNeeds 0 0 0x80000000#32, (sinDev 0x20).needBad n = false) ∧
      262144 < ((sinDev 0x20).setReg (ra .SIN_S_SIZE 0 8) 0x02000201#32).pointSum 0 0) ∧
    (let s := dev.setReg (ra .PRM_BEV_SIZE 0) 0x04000400#32
     s.field (ra .PRM_BEV_SIZE 0) 10 0 = 1024 ∧ s.field (ra .PRM_BEV_SIZE 0) 26 16 = 1024 ∧ s.needBad (s.bevNeed 0 0x80000000#32) = false ∧
     1024 < (s.setReg (ra .PRM_BEV_SIZE 0) 0x04010400#32).field (ra .PRM_BEV_SIZE 0) 26 16) := by decide +kernel

/-- Group 0: stream 0 alone, for graph 0; its sets and the begin or end of sample 4 as the intake's oldest report. -/
def setDev (g : GroupSt) (a : AlignStream) (begins : Bool) : State :=
  let s := [(ra .ALN_G_CFG 0 0, 0x80000000#32), (ra .ALN_G_CFG 1 0, 0x80000000#32), (ra .ALN_G_MEMBERS 0 0, 1#32), (ra .ALN_G_MEMBERS 1 0, 1#32),
    (ra .ALN_G_REF_ORDER 0 0, 0xFFFFFFF0#32), (ra .ALN_G_REF_ORDER 1 0, 0xFFFFFFF0#32), (ra .ALN_S_CFG 0 0, 0x02000000#32)].foldl
    (fun s x => s.setReg x.1 x.2) (sinDev 0x10 [open0 0])
  { s with
    sin := tblMod {} s.sin 0 fun i => { i with reports := [{ id := 4, stream := 0, arrival := 1000, begins := begins }] }
    aln := { groups := [(0, g)], streams := [(0, a)] } }
/-- A set with sample 4 of stream 0 as its member. -/
def set0 (n : Nat) : FrameSet := { num := n, frames := [], tau := 0, waitUs := 1000, firstDone := some 9999000, members := [{ stream := 0, id := 4, arrival := 1000 }] }

theorem witness_setsFormAndClose :
    (dev.intake 0).reports = [] ∧ dev.groupOf (packageStream 0 0) = none ∧
    (let s := setDev {} { st := .REFERENCE } true
     s.groupOf (packageStream 0 0) = some 0 ∧ s.slotOf 0 0 1000 = (some 0, false) ∧ (s.group 0).nextSet ≤ 0 ∧ (s.pendingSets 0).length < 8 ∧
     s.set? 0 0 = none ∧ s.mgt.active < 2) ∧
    (let s := setDev { nextSet := 8, sets := (List.range 8).map set0 } { st := .REFERENCE } true
     s.slotOf 0 0 1000 = (some 8, false) ∧ (s.group 0).nextSet ≤ 8 ∧ 8 ≤ (s.pendingSets 0).length ∧ (s.group 0).dropping = false) ∧
    ((setDev { nextSet := 1 } { st := .ADMITTED, arrivalFit := [(0, 0)], lastSet := some (0, 1000) } true).slotOf 0 0 1000 = (some 0, true)) ∧
    (let s := setDev { nextSet := 1, sets := [set0 0] } { st := .REFERENCE } false
     ((s.group 0).sets.map (·.num)).Nodup ∧ set0 0 ∈ (s.group 0).sets ∧ (set0 0).closed = false ∧
     (s.group 0).sets.find? (fun x => x.members.any fun m => m.stream == packageStream 0 0 && m.id == 4) = some (set0 0) ∧
     (s.group 0).sets.find? (fun x => !x.closed) = some (set0 0) ∧ 9999000 + (set0 0).waitUs ≤ s.now ∧ s.now < 9999001 + (set0 0).waitUs) ∧
    (let s := setDev {} {} true
     s.groupBad 0 0x80000000#32 = false ∧ (s.setReg (ra .ALN_G_CFG 0 0) 0#32).groupOn 0 = false ∧
     (s.setReg (ra .ALN_G_REF_ORDER 0 0) 0xFFFFFFF1#32).groupBad 0 0x80000000#32 = true) ∧
    packageRegs.contains Reg.ALN_G_WAIT = true := by decide +kernel
/-- The ninth set is dropped and counted (R320). -/
theorem test_ninth_set : nextIs (exec (.sampleBeginReport 0 .ok) (setDev { nextSet := 8, sets := (List.range 8).map set0 } { st := .REFERENCE } true))
    (fun t => (t.group 0).nextSet == 9 && (t.group 0).sets.length == 8 && t.reg (ra .ALN_G_DROPPED 0 0) == 1) = true := by decide +kernel

/-- A merge of two sources of graph 0 whose input token of frame 0 has come, and with a digest of the leading hub's. -/
def mergeDev (digest : Option (Nat × List Byte)) : State :=
  let gr : Graph := { gr0 with
    bundle := { gr0.bundle with
      edges := gr0.bundle.edges ++ [{ kind := 1, fmt := 1, buffer := 0 }, { kind := 1, fmt := 1, buffer := 1 }]
      buffers := [{ addr := 0, bytes := 0x200000, at_ := 0 }, { addr := 0x10000000, bytes := 0x4004000, at_ := 0x10000000 }] }
    frames := [{ num := 0, tokens := [(1, 0)] }] }
  let s := [(ra .ALN_MERGE_CFG 0, 0x80010880#32), (ra .ALN_MERGE_CFG 1, 0x80010880#32), (ra .ALN_MERGE_EDGES 0, 0x00020001#32),
    (ra .ALN_MERGE_EDGES 1, 0x00020001#32)].foldl (fun s x => s.setReg x.1 x.2) (withGraph gr (sinDev 0x10))
  { s with sin := same 2 { run := 1 }, aln := { merges := [(0, { digest := digest })] } }

theorem witness_layersMerged :
    (let s := mergeDev none
     ((s.graph? (s.mergeCfg 0).graph).bind (·.frame? 0)) = some { num := 0, tokens := [(1, 0)] } ∧ (s.mergeCfg 0).en = true ∧ s.intakeRuns 0 = true ∧
     (s.mergeCfg 0).input = 1 ∧ (s.mergeCfg 0).output = 2 ∧ (s.mergeCfg 0).sources = 2 ∧ s.rangePoison 0 (2 * layerCells) = false ∧
     editionCopy 0x10000000 0 + 0x1000 + layerCells ≤ hbmEnd ∧
     ({ s with hbmPoison := [(5, true)] } : State).rangePoison 0 (2 * layerCells) = true) ∧ (dev.mergeCfg 0).en = false ∧
    (let s := mergeDev (some (7, [1]))
     (tblGet {} s.aln.merges s.mgt.active).digest = some (7, [1]) ∧ s.mergesPaired = true ∧ (s.lantern 0).works = true) ∧ dev.mergesPaired = false := by
  decide +kernel
theorem witness_layersMerged_open : ∀ b, (mergeDev none).setFenced b = false ∧ (mergeDev none).retired b = false := by
  intro b
  have h : ∀ n, (mergeDev none).mc n = {} := fun n => rfl
  have h2 : ∀ d, (mergeDev none).dieFenced d = false := fun d => rfl
  simp [State.setFenced, State.retired, h, h2]
/-! ### The planners (R346 … R381) -/

/-- A graph with an edition edge, its token of frame 0 at the planner; its buffer lies at address 0. -/
def gr11 (bytes : Nat := 0x4004000) : Graph :=
  { num := 0, bundle := { header := { edges := 1 }, edges := [{ kind := 1, fmt := 2, producer := 0, consumer := 0xFFFF }], buffers := [{ bytes := bytes }] }
    frames := [{ num := 0, tokens := [(0, 0)] }], nextFrame := 1 }
/-- The planners on, bound to that graph, with a good edition header for frame 0 in its copy. -/
def tokenDev (candidates : Nat := 1) : State :=
  let s := withGraph gr11 (planDev.setReg (ra .PLN_CFG 0) 0x80000000#32)
  { s with mem := memWrite s.mem 40 (toLe 4 candidates ++ toLe 4 100) }
/-- A planner with this job in front, one slice to a bank. -/
def stageDev (w : Staging) (x : PlannerState := {}) : State :=
  let s := (planDev.modPlanner 0 fun p => { x with run := .READY, map := p.map, newest := 1, staging := [{ edition := 2, planners := 3, what := w }] })
  (withGraph gr11 s).setReg (ra .PLN_SLICES 0) 0x01F40000#32

theorem witness_editionsStaged :
    (let s := { dev with graphs := { graphs := [gr11 0] } }
     s.setupOpen ∧ s.graph? 0 = some (gr11 0) ∧ editionEdgeBad (gr11 0).bundle 0 = true ∧ editionEdgeBad gr11.bundle 0 = false ∧
     (maskReg (ra .PLN_CFG 0) 0x80000000#32).getLsbD 31 = true ∧ (maskReg (ra .PLN_CFG 0) 0#32).getLsbD 31 = false) ∧
    (let s := tokenDev
     s.planLeader = 0 ∧ s.reg (ra .PLN_CFG 0) = 0x80000000#32 ∧ s.graph? 0 = some gr11 ∧ gr11.frame? 0 = some { num := 0, tokens := [(0, 0)] } ∧
     s.plannerRuns 0 = true ∧ s.letThrough gr11 0 = true ∧ editionCopy (gr11.edgeBuffer 0) 0 = 0 ∧ (s.readMem 0 64).2 = false ∧
     s.editionOk 0 0 (s.readMem 0 64).1 = true ∧ (tokenDev 0).editionOk 0 0 ((tokenDev 0).readMem 0 64).1 = false ∧
     ((s.markPoison 0 32 true).readMem 0 64).2 = true) ∧
    (dev.reg (ra .PLN_CFG dev.planLeader)).getLsbD 31 = false ∧
    (let j : StageJob := { edition := 2, planners := 3, what := .delta [] }
     let s := { planDev with pln := { planDev.pln with orders := [(0, j)] } }
     takeFirst (fun (x : Nat × StageJob) => x.1 == 0) s.pln.orders = some ((0, j), []) ∧ ∀ x ∈ s.pln.orders, x.1 ≠ 1) ∧
    (∀ w ∈ [Staging.delta [5], .graph 0 0 0 {} 0, .roadmap { nodes := 4 }], let s := stageDev w
     (s.planner 0).staging = { edition := 2, planners := 3, what := w } :: [] ∧ s.plannerRuns 0 = true ∧
     ((s.planner 0).banks.filter fun x => (s.planner 0).keeps 0 x.edition).length < 3 ∧ bitN 3 0 = true ∧ (s.planner 0).round = none ∧
     (s.planSetNow 0).n = 1 ∧ s.rangePoison 0x1000 1048576 = false) ∧
    (planDev.planner 0).staging = [] ∧
    (let s := stageDev (.delta [5]) { banks := [{ edition := 1 }, { edition := 7 }, { edition := 8 }], frameRounds := [(0, 0, 7, 0), (0, 1, 8, 0)] }
     3 ≤ ((s.planner 0).banks.filter fun x => (s.planner 0).keeps 0 x.edition).length) := by
  unfold State.setupOpen; decide +kernel
/-- The token of a good edition gets the next number and waits at both planners; one for no candidate withholds the frame (R351, R353). -/
theorem test_edition_token : nextIs (exec (.editionToken 0) tokenDev) (fun t => t.pln.lastNumber == 2 &&
      (t.planner 0).staging.map (·.edition) == [2] && t.pln.orders.map (fun x => (x.1, x.2.edition)) == [(1, 2)]) = true ∧
    nextIs (exec (.editionToken 0) (tokenDev 0)) (fun t => t.pln.lastNumber == 1 && ((t.frame? 0 0).map (·.withheld)) == some true) = true := by
  decide +kernel

/-- A planner with a round in a phase; alone, or leading a pair. -/
def roundDev (ph : RoundPhase) (limit : Option Nat := none) : State :=
  (withGraph gr11 planDev).modPlanner 0 fun p => { p with
    round := some { for_ := .frame 0 0, phase := ph, er := 1, es := 1, start := 0, goal := 1, wanted := 1, startedAt := 9999000, limit := limit } }
def planReq0 : PlanRequest := { id := 0, pkt := planPkt 3, planners := 1, takenAt := 0 }
def handed0 : Handed := { for_ := .frame 0 0, hub := 0, record := [1, 2, 3], status := 0 }
def digestDev (d : Option (List Byte)) : State :=
  let s := withGraph gr11
  { s with pln := { s.pln with handed := [handed0], digests := [(.frame 0 0, d)] } }

theorem witness_roundsStart :
    (let s := planDev.modPlanner 0 fun p => { p with frameRounds := [(0, 1, 1, 9), (0, 0, 1, 5)], banks := [{ edition := 1, hdr := { start := 3 } }] }
     let p := s.planner 0
     s.plannerRuns 0 = true ∧ p.round = none ∧ sortBy (fun (x : Nat × Nat × Nat × Nat) => x.2.1) p.frameRounds = [(0, 0, 1, 5), (0, 1, 1, 9)] ∧
     p.run = .READY ∧ (s.readMem p.map.addr p.map.len).2 = false ∧ ((p.bank? 1).getD {}).hdr.start < p.map.nodes ∧
     ((p.bank? 1).getD {}).hdr.goal < p.map.nodes) ∧
    (let s := planDev.modPlanner 0 fun p => { p with requests := [planReq0] }
     (s.planner 0).frameRounds = [] ∧ (s.planner 0).requests = planReq0 :: [] ∧ s.planLeader = 0 ∧ s.requestStatus 0 planReq0.pkt = 0 ∧
     s.requestStatus 0 (planPkt 4) ≠ 0) ∧
    ((planDev.planner 0).requests = [] ∧ (dev.planner 0).round = none ∧ dev.plannerRuns 0 = false ∧ ((roundDev .check).planner 0).round ≠ none) := by decide +kernel
theorem witness_roundsRun :
    (∀ ph ∈ [RoundPhase.check, .recheck, .wavefront, .search, .output], let s := roundDev ph
     s.plannerRuns 0 = true ∧ s.mgt.active < 2 ∧ ((s.planner 0).round.map fun r => (r.phase, r.follows 0, r.paired)) = some (ph, false, false)) ∧
    (let s := roundDev .check (some 10000500)
     ((s.planner 0).round.map fun r => (r.limit, r.set.guard)) = some (some 10000500, 500) ∧ 10000500 ≤ s.now + 500 ∧ s.now + 500 < 10000501) ∧
    (let c : Cut := { for_ := .frame 0 0, kind := .missed, value := 1 }
     let s := { planDev with pln := { planDev.pln with cuts := [(0, c)] } }
     takeFirst (fun (x : Nat × Cut) => x.1 == 0) s.pln.cuts = some ((0, c), []) ∧ ∀ x ∈ s.pln.cuts, x.1 ≠ 1) := by decide +kernel
theorem witness_roundsCompared :
    (let s := digestDev none
     (takeFirst (fun (d : RoundFor × Option (List Byte)) => s.pln.handed.any fun y => y.for_ == d.1) s.pln.digests) = some ((RoundFor.frame 0 0, none), []) ∧
     s.pln.handed.find? (fun y => y.for_ == .frame 0 0) = some handed0 ∧ handed0.hub < 2 ∧ s.mgt.active < 2 ∧ (none : Option (List Byte)) ≠ some (shake256 handed0.record)) ∧
    dev.pln.digests = [] := by decide +kernel
/-- A check round whose edition is still the newest goes on to the wavefront, and the wavefront to the search (R360). -/
theorem test_round_phases : (nextIs (exec (.checkRoundEnd 0 .ok) (roundDev .check)) fun t => ((t.planner 0).round.map (·.phase)) == some .wavefront) = true ∧
    (nextIs (exec (.wavefrontDone 0 .ok) (roundDev .wavefront)) fun t => ((t.planner 0).round.map (·.phase)) == some .search) = true := by decide +kernel
/-- Records that agree release their frame's pair; a missing digest is a mismatch (R375, R376). -/
theorem test_digest : nextIs (exec .planDigestRx (digestDev (some (shake256 [1, 2, 3])))) (fun t => ((t.frame? 0 0).map (·.pairMatched)) == some true &&
      t.reg (ra .PLN_MISMATCH 0) == 0) = true ∧
    nextIs (exec .planDigestRx (digestDev none)) (fun t => t.reg (ra .PLN_MISMATCH 0) == 1) = true := by decide +kernel
/-! ### The lanterns (R382 … R417) -/

/-- The device with lantern 0 as given. -/
def lanDev (x : Lantern) (s : State := dev) : State := s.modLantern 0 fun _ => x

theorem witness_lanternsWatch :
    (let s := State.reset
     nth false s.pins.lanRstHigh 0 = false ∧ dev.railGood 6 = true ∧ nth false dev.pins.lanRstHigh 0 = true ∧ (s.lantern 0).run = .RESET ∧
     (s.lantern 0).works = false ∧ nth false { dev with pins := {} }.pins.lanRstHigh 1 = false ∧ { dev with pins := {} }.railGood 7 = true) ∧
    (let s := lanDev { lan0 with clockBad := true, clockDev := 6000, badPeriods := 3 }
     (s.lantern 0).works = true ∧ (s.lantern 0).run ≠ .FAILED ∧ (s.lantern 0).badPeriods = 3 ∧ (s.lantern 0).clockOut = true ∧
     (dev.lantern 0).badPeriods < 3) ∧
    (let s := lanDev { lan0 with since := 9999000 }
     (s.lantern 0).peerLost = false ∧ (s.lantern 0).peerHeard.getD (s.lantern 0).since + 1000 ≤ s.now) ∧
    { dev with mgt := { dev.mgt with beats := [0] } }.mgt.beats.contains 0 = true ∧
    (∀ h ∈ [9995000, 9995001], (lanDev { lan0 with mpHeard := some h }).lantern 0 = { lan0 with mpHeard := some h }) ∧
    9995000 + 5000 ≤ dev.now ∧ dev.now < 9995001 + 5000 ∧ dev.recovery.phase = .running ∧ 9950000 + 50000 ≤ dev.now ∧ dev.now < 9950001 + 50000 ∧
    (((lanDev { lan0 with mpSilentAt := some 9950000 }).lantern 0).warmRequests.filter fun t => dev.now < t + requestWindow).length < 3 ∧
    (let s := lanDev { lan0 with errHold := [(10, 10000000)] }
     tblGet 0 (s.lantern 0).errHold 10 ≤ s.now ∧ (s.lantern 0).errLast.contains 10 = false) ∧
    dev.now < tblGet 0 ((lanDev { lan0 with errHold := [(10, 10000001)] }).lantern 0).errHold 10 ∧
    (let s := lanDev { lan0 with ratingsSince := some 0 }
     (s.lantern 0).ratingsSince = some 0 ∧ 0 + 10000000 ≤ s.now ∧ s.outOfRatings = false ∧ s.now < 1 + 10000000) := by decide +kernel
/-- A lantern reads the twin's heartbeat as good at its bounds of 450 and 550 ms, and fails itself at the fourth bad period when its own clock is
out (R386). -/
theorem test_heartbeat_bounds : (let s := lanDev { lan0 with clockBad := true, clockDev := 6000, badPeriods := 3 }
    (∀ p ∈ [450000, 550000], nextIs (exec (.peerHbEdge 0 p) s) (fun t => (t.lantern 0).run == .RUNNING && (t.lantern 0).badPeriods == 0) = true) ∧
    ∀ p ∈ [449999, 550001], nextIs (exec (.peerHbEdge 0 p) s) (fun t => (t.lantern 0).run == .FAILED) = true) := by decide +kernel

/-- A safety-relevant graph with a frame handed over at 9 999 800 µs; checking SHADOW, its two outputs as tokens, one envelope in its image. -/
def gr12 : Graph :=
  { num := 0, image0 := 0x10000, imageLen := 256
    bundle := { header := { edges := 2, safety := 1, checking := 2, deadline := 5000, trigger := 0 }
                edges := [{ kind := 1, fmt := 2, producer := 0, consumer := 0xFFFF }, { kind := 1, fmt := 2, producer := 0, consumer := 0xFFFF }]
                buffers := [{ bytes := 64 }] }
    frames := [{ num := 7, tokens := [(0, 0), (1, 0)], handedOver := true, handoverAt := 9999800, openedAt := 9990000 }], nextFrame := 8 }
def shadowDev (x : LanFrame := { graph := 0, frame := 7, start := some 9995000 }) (h : State → State := id) : State :=
  let s := withGraph gr12 (lanDev { lan0 with frames := [x] })
  h { s with mem := memWrite s.mem 0x10004 (toLe 2 1 ++ List.replicate 58 0 ++ toLe 2 0 ++ toLe 2 1) }
def fr12 : Frame := { num := 7, tokens := [(0, 0), (1, 0)], handedOver := true, handoverAt := 9999800, openedAt := 9990000 }
def sig (copy : Nat) (sum : BitVec 64) : SigMsg := { lantern := 0, graph := 0, frame := 7, station := 3, copy := copy, sum := sum, lines := 1, widened := false }

theorem witness_framesTimed :
    ((lanDev lan0 (withGraph gr12)).startable 0 7 = true ∧ ((lanDev lan0 (withGraph gr12)).lantern 0).frame? 0 7 = none ∧
     (withGraph gr12).startable 0 6 = false) ∧
    (let s := shadowDev
     s.graph? 0 = some gr12 ∧ gr12.frame? 7 = some fr12 ∧ fr12.handedOver = true ∧ s.judges 0 gr12 fr12 = true ∧
     ((s.lantern 0).frame? 0 7).any (·.handed) = false ∧ (s.lantern 0).frame? 0 7 = some { graph := 0, frame := 7, start := some 9995000 } ∧
     9995000 + gr12.bundle.header.deadline ≤ s.now ∧ s.now < 9995001 + gr12.bundle.header.deadline ∧ (s.lantern 0).works = true ∧
     s.frame? 0 7 = some fr12 ∧ (fr12.verdictOf 0).back = false ∧ fr12.handoverAt + 200 ≤ s.now) ∧
    ((withGraph gr12).judges 0 gr12 { fr12 with verdictA := { back := true } } = true ∧ (Frame.verdictOf { fr12 with verdictA := { back := true } } 0).back = true) ∧
    ((shadowDev { graph := 0, frame := 7, verdict := some { onTime := true, latency := 5, passed := true } }).lantern 0).frame? 0 7 =
      some { graph := 0, frame := 7, verdict := some { onTime := true, latency := 5, passed := true } } := by decide +kernel
theorem witness_framesJudged :
    (∀ n ∈ [5, 6], let b := BitVec.ofNat 64 n
     let s := shadowDev { graph := 0, frame := 7, signatures := [(3, 0, 5#64, 1, false)] } fun s => { s with lan := { s.lan with sigs := [sig 1 b] } }
     takeFirst (fun (m : SigMsg) => m.lantern == 0) s.lan.sigs = some (sig 1 b, []) ∧ (s.lantern 0).works = true ∧ (s.graph? 0).isSome = true ∧
     (LanFrame.signaturePair { graph := 0, frame := 7, signatures := [(3, 0, 5#64, 1, false), (3, 1, b, 1, false)] } 3) = some (b == 5#64) ∧
     (LanFrame.kinds { graph := 0, frame := 7 }).contains (Failed.ctorIdx .signature) = false) ∧
    (∀ m ∈ dev.lan.sigs, m.lantern ≠ 0) := by decide +kernel
theorem witness_envelopesCompared :
    (let s := shadowDev
     (match (s.envelopesOf gr12)[0]? with
      | some x => decide (x.primary = 0 ∧ x.shadow = 1)
      | none => false) = true ∧ s.comparatorRuns 0 = true ∧ gr12.bundle.header.checking = 2 ∧ fr12.compared.contains (0, 0) = false ∧
     fr12.withheld = false ∧ gr12.outputThere fr12 0 = true ∧ gr12.outputThere fr12 1 = true ∧ gr12.outputThere { fr12 with tokens := [] } 0 = false) ∧
    (let m (p : Bool) : EnvMsg := { lantern := 0, graph := 0, frame := 7, entry := 0, hub := 1, outside := 0, passed := p }
     let x (p : Bool) : LanFrame := { graph := 0, frame := 7, envelopes := [(0, 0, 0, p), (0, 1, 0, p)] }
     let s := shadowDev { graph := 0, frame := 7, envelopes := [(0, 0, 0, true)] } fun s => { s with lan := { s.lan with envs := [m true] } }
     takeFirst (fun (m : EnvMsg) => m.lantern == 0) s.lan.envs = some (m true, []) ∧ s.entryResult (x true) 0 = some (true, true) ∧
     s.entryResult (x false) 0 = some (false, true) ∧ s.entryResult { graph := 0, frame := 7, envelopes := [(0, 1, 0, true)] } 0 = none ∧
     (x false).kinds.contains (Failed.ctorIdx .envelope) = false) := by decide +kernel
/-- A verdict is late at the deadline and not a microsecond before (R390); two signatures that differ are a mismatch (R393). -/
theorem test_deadline : nextIs (exec (.deadlineExpiry 0 0 7) shadowDev) (fun t => (t.lantern 0).late == 1) = true ∧
    nextIs (exec (.deadlineExpiry 0 0 7) (shadowDev { graph := 0, frame := 7, start := some 9995001 })) (fun t => (t.lantern 0).late == 0) = true := by
  decide +kernel
theorem test_signatures : (∀ n ∈ [5, 6],
    nextIs (exec (.signatureRx 0) (shadowDev { graph := 0, frame := 7, signatures := [(3, 0, 5#64, 1, false)] } fun s =>
      { s with lan := { s.lan with sigs := [sig 1 (BitVec.ofNat 64 n)] } })) (fun t => (t.lantern 0).mismatch == (if n = 5 then 0 else 1)) = true) := by decide +kernel

/-- The device with a unit of the self-test as given. -/
def unitDev (u : Nat) (x : TestUnit) (s : State := { dev with cores := same 32 { run := .IDLE } }) : State := s.modTestUnit u fun _ => x

theorem witness_lanternsAct :
    ((dev.lantern 0).works = true ∧ (∀ u ∈ [0, 15, 32, 33, 36, 38, 40], dev.granter u = 0 ∧ dev.testable u = true) ∧
      ∀ u ∈ [16, 31, 34, 35, 37, 39, 41], dev.granter u = 1 ∧ dev.testable u = true) ∧
    (∀ u ∈ [0, 31, 32, 41], let s := unitDev u { windowEnd := 10000170 }
     (s.testUnit u).running = false ∧ (s.testUnit u).passed < unitChunks u ∧ s.now + 170 ≤ (s.testUnit u).windowEnd ∧ s.unitIdle u = true) ∧
    (dev.testUnit 0).windowEnd < dev.now + 170 ∧
    (let s := unitDev 0 { running := true }
     (s.testUnit 0).running = true ∧ (s.testUnit 0).rerun = false ∧ (s.lantern (s.granter 0)).works = true ∧ (s.testUnit 1).running = false) ∧
    ((dev.lantern 0).periodAt + (dev.lantern 0).periodMs * 1000 ≤ dev.now ∧ dev.now < 10000000 + (dev.lantern 0).periodMs * 1000) ∧
    (let s := withGraph gr12
     s.gapOver 0 0 (s.lantern 0).config.gapMs = true ∧ s.gapOver 0 0 (s.lantern 0).config.outageMs = true ∧ (s.lantern 0).run = .RUNNING ∧
     s.gapOver 0 1 (s.lantern 0).config.gapMs = false) ∧
    (lanDev { lan0 with causes := [causeOutage] }).safeCause 0 = some (causeOutage, 0xFFFF) ∧ dev.safeCause 0 = none ∧ dev.managed = true ∧
    State.reset.managed = false ∧ dev.recovery.phase = .running ∧ (toLe 4 0 ++ toLe 2 64 ++ [0, 0]).length = 8 := by decide +kernel
/-- A window is 170 µs at least; a chunk starts when that much of it is left (R403). -/
theorem test_windows : nextIs (exec (.windowGrant 0 0 170) dev) (fun t => (t.testUnit 0).windowEnd == 10000170) = true ∧
    nextIs (exec (.windowGrant 0 0 169) dev) (fun t => (t.testUnit 0).windowEnd == 0) = true ∧
    nextIs (exec (.chunkStart 0) (unitDev 0 { windowEnd := 10000170 })) (fun t => (t.core 0).run == .SELFTEST) = true ∧
    nextIs (exec (.chunkStart 0) (unitDev 0 { windowEnd := 10000169 })) (fun t => (t.core 0).run == .IDLE) = true := by decide +kernel
/-! ### Resets and the mirror link (R418 … R438) -/

/-- The device with a package reset in this phase, asked for or asserted at 9 999 000 µs. -/
def phaseDev (p : ResetPhase) (stage : Nat := 0) : State :=
  { dev with recovery := { dev.recovery with phase := p, requestedAt := 9999000, assertedAt := 9000000 }, hif := { dev.hif with bootStage := stage } }

theorem witness_packageResets :
    (dev.pins.porst = true ∧ tblWf {} dev.mgt.hubs = true ∧ tblWf {} dev.lan.lanterns = true ∧ (dev.lantern 0).works = true) ∧
    (let s := { State.reset with thermal := { rails := same 13 { good := true } } }
     s.pins.porst = false ∧ s.pgoodLow = false ∧ State.reset.pgoodLow = true ∧ (s.lantern 0).works = false ∧ (s.lantern 1).works = false) ∧
    dev.recovery.phase ≠ .coldBoot ∧
    (let s := lanDev { lan0 with warmRequests := [9000000, 8000000] }
     let near (s : State) := (s.lantern 0).warmRequests.filter fun t => s.now < t + 600000000
     (near s).length < 3 ∧ s.recovery.phase = .running ∧ (s.lantern 0).works = true ∧
     3 ≤ (near (lanDev { lan0 with warmRequests := [9000000, 8000000, 0] })).length) ∧
    dev.managed = true ∧ State.reset.managed = false ∧
    (let s := phaseDev .warmRequested
     s.recovery.phase = .warmRequested ∧ s.recovery.requestedAt + 1000 ≤ s.now ∧ s.now < 9999001 + 1000 ∧ s.recovery.down = [] ∧
     tblWf {} s.mgt.hubs = true) ∧
    (let s := { phaseDev .warmRestart 1 with thermal := {} }
     s.recovery.phase = .warmRestart ∧ s.hif.bootStage ≤ 1 ∧ s.pgoodLow = true ∧ (phaseDev .warmRestart 1).pgoodLow = false ∧
     s.recovery.assertedAt + 1000000 ≤ s.now ∧ (s.lantern 0).works = true ∧ (s.lantern 0).pwrOff = none) ∧
    ((lanDev { lan0 with warmWait := some 0, warmRequests := [] }).lantern 0).warmWait = some 0 ∧ 0 + 10000000 ≤ dev.now ∧ dev.now < 1 + 10000000 := by
  decide +kernel
/-- The third request of a lantern within 600 s is a warm reset, the fourth holds PWR_OFF_REQ_N low (R427). -/
theorem test_warm_requests :
    nextIs (exec (.warmResetRequest 0) (lanDev { lan0 with warmRequests := [9000000, 8000000] })) (fun t => t.recovery.phase == .warmRequested &&
      (t.lantern 0).pwrOff.isNone) = true ∧
    nextIs (exec (.warmResetRequest 0) (lanDev { lan0 with warmRequests := [9000000, 8000000, 0] })) (fun t => t.recovery.phase == .running &&
      (t.lantern 0).pwrOff.isSome) = true := by decide +kernel

theorem witness_unitsRejoin :
    (dev.managed = true ∧ dev.recovery.phase = .running ∧ dev.recovery.dieResets = [] ∧ dev.scopeRuns 1 = false) ∧
    (let s := { dev with recovery := { dev.recovery with dieResets := [(0, 9700000, false)] } }
     (∃ r ∈ s.recovery.dieResets, r.1 = 0) ∧ s.widthsAgreed 0 = true ∧ s.scopeRuns 1 = false ∧
     s.recovery.dieResets.find? (fun x => x.1 == 0) = some (0, 9700000, false) ∧ 9700000 + 300000 ≤ s.now ∧ s.now < 9700001 + 300000 ∧
     { s with net := {} }.widthsAgreed 0 = false) ∧
    (let s := { lanDev { lan0 with run := .UPDATING } with recovery := { dev.recovery with lanRestarts := [(0, 9700000)] } }
     (s.lantern 0).run = .UPDATING ∧ s.recovery.lanRestarts.find? (fun x => x.1 == 0) = some (0, 9700000) ∧ (s.lantern 0).run ≠ .RESET) ∧
    (let s := lanDev { lan0 with since := 9000000, judged := 8 } { dev with mgt := { dev.mgt with
        update := { phase := .ACTIVATING, scope := 2, unit := 8, step := 3 } } }
     s.scopeRuns 2 = true ∧ s.mgt.update.unit = 8 ∧ s.mgt.update.step = 3 ∧ (s.lantern 0).run = .RUNNING ∧ (s.lantern 1).run = .RUNNING ∧
     (s.lantern 0).since + 1000000 ≤ s.now ∧ 8 ≤ (s.lantern 0).judged ∧ s.now < 9000001 + 1000000 ∧ (dev.lantern 0).judged < 8) ∧
    (let s := dev
     s.setupOpen ∧ s.catRegion 3 = none ∧ (0x02000001#32).getLsbD 0 = true ∧
     stackOf (bits 0xFE000001#32 31 25 * 0x2000000 + (s.setReg (ra .CAT_REGION_BASE_HI 3) 0xF#32).field (ra .CAT_REGION_BASE_HI 3) 15 0 * 0x100000000) = 3 ∧
     stackOf (bits 0x02000001#32 31 25 * 0x2000000 + s.field (ra .CAT_REGION_BASE_HI 3) 15 0 * 0x100000000) ≠ 3) ∧
    (let s := { dev with cache := { dev.cache with pools := [(0, { die := 0, frames := 1 })] } }.setReg (ra .CAT_REGION_BASE_LO 0) 1#32
     (s.catRegion 0).isSome = true ∧ ∃ e ∈ s.cache.pools, e.2.exists_ = true ∧ e.2.die = 0) := by
  unfold State.setupOpen; decide +kernel
/-- A die is back, or it is logged as failed after 300 ms (R419). -/
theorem test_die_rejoin : (let s := { dev with recovery := { dev.recovery with dieResets := [(0, 9700000, false)] } }
    nextIs (exec (.dieRejoin 0 true true) s) (fun t => t.recovery.dieResets == []) &&
    nextIs (exec (.dieRejoin 0 false true) s) (fun t => t.recovery.dieResets.length == 1) &&
    nextIs (exec (.dieRejoinTimeout 0) s) (fun t => t.recovery.dieResets == [] && t.mgt.queue.any (fun e => e.ev == .DIE_REJOIN_FAIL))) = true := by
  decide +kernel

/-- The device with the mirror link on port 0 enabled and up. -/
def mirDev (p : MirPort := { up := true }) (m : MirrorState → MirrorState := id) : State :=
  ({ dev with mirror := m { dev.mirror with ports := [(0, p)] } }).setReg (ra .MIR_CFG 0) 0x80000000#32
/-- A frame of a kind, its own sequence and health 0, with its CRC; bytes 32 on as given. -/
def mirFrame0 (kind : Nat) (block : List Byte := []) (health : Nat := 0) (boot : Nat := 0) : List Byte :=
  let p := toLe 2 0x4D52 ++ [1, BitVec.ofNat 8 kind] ++ toLe 4 0 ++ toLe 4 boot ++ toLe 4 health ++ List.replicate 16 0 ++ block
  List.replicate 12 0 ++ toBe 2 0x88B5 ++ p ++ toLe 4 (crc32 p).toNat

/-- What a port reads of a frame: the byte at 3, bit 18 of the health word. -/
def mirReads (f : List Byte) (ok : Bool := true) : Option (Nat × Bool) × Bool :=
  let r := mirDev.mirParse 0 f ok
  (r.1.map fun p => (leAt p 3 1, bitN (leAt p 12 4) 18), r.2)

theorem witness_mirrorSends :
    (let s := { mirDev with recovery := { dev.recovery with down := [(0, 2, 3)] } }
     s.recovery.down.find? (fun x => x.1 == 0) = some (0, 2, 3) ∧ s.mirSends 0 = true ∧ ∀ x ∈ s.recovery.down, x.1 ≠ 1) ∧
    mirDev.firmware 0 = true ∧ State.reset.firmware 0 = false ∧ mirDev.mirSends 1 = false ∧ mirDev.mgt.active < 2 ∧ mirDev.twinLost = false := by
  decide +kernel
theorem witness_mirrorReceives :
    mirReads (mirFrame0 1) = (some (1, false), false) ∧ mirReads (mirFrame0 1 [] 0x40000) = (some (1, true), false) ∧
    mirReads (mirFrame0 3) = (some (3, false), false) ∧ mirReads (mirFrame0 1) false = (none, true) ∧
    mirReads (mirFrame0 1 [] 0 |>.dropLast) = (none, true) ∧ mirReads (1 :: (mirFrame0 1).tail) = (none, false) := by decide +kernel
/-! ### Supplies and temperatures (R439 … R464) -/

/-- The device with thermal state changed. -/
def thmDev (f : ThermalState → ThermalState) (s : State := dev) : State := { s with thermal := f s.thermal }
/-- A rail as given. -/
def railDev (r : Nat) (x : RailState) : State := thmDev fun t => { t with rails := tblSet {} t.rails r x }

theorem witness_suppliesWatched :
    (State.reset.railGood 0 = false ∧ (∀ r ∈ [0, 3, 4, 5, 6, 7, 12], dev.railGood r = true) ∧ dev.mgt.active < 2 ∧ dev.alive = true ∧
      State.reset.alive = false ∧ (∀ l ∈ [0, 1], (dev.lantern l).works = true ∧ nth false dev.pins.lanRstHigh l = true) ∧
      ({ dev with thermal := {} } : State).railGood 6 = false ∧ dev.managed = true ∧ dev.recovery.phase = .running ∧ State.reset.managed = false) ∧
    (∀ x ∈ [9990000, 9990001], ((railDev 0 { telemetryAt := x }).rail 0).telemetryAt = x) ∧ 9990000 + 10000 ≤ dev.now ∧ dev.now < 9990001 + 10000 ∧
    (∀ m ∈ [590, 610], m ≤ ((railDev 0 { requested := 600 }).rail 0).requested + 10 ∧ ((railDev 0 { requested := 600 }).rail 0).requested ≤ m + 10) ∧
    ((railDev 0 { requested := 600 }).rail 0).requested + 10 < 611 ∧ 589 + 10 < ((railDev 0 { requested := 600 }).rail 0).requested ∧
    (∀ n ∈ [0, 12], ((thmDev fun t => { t with clocks := [(7, { target := some n })] }).clusterClock 7).target = some n) ∧
    (dev.clusterClock 7).target = none ∧
    (∀ a ∈ [9000000, 9000001], (thmDev fun t => { t with overSince := some a }).thermal.overSince = some a) ∧ dev.thermal.overSince = none ∧
    9000000 + 1000000 ≤ dev.now ∧ dev.now < 9000001 + 1000000 ∧
    (let s := { dev with now := 600000000 }
     s.managed = true ∧ s.thermal.lifeWritten + 600000000 ≤ s.now ∧ dev.now < dev.thermal.lifeWritten + 600000000) := by decide +kernel
/-- A voltage lies in 600 … 850 mV whatever the table of R443 holds (which is the device's own). -/
theorem voltage_bounds (s : State) (d step : Nat) : 600 ≤ s.voltageFor d step ∧ s.voltageFor d step ≤ 850 := by
  unfold State.voltageFor; exact ⟨Nat.le_max_left _ _, Nat.max_le.mpr ⟨by decide, Nat.min_le_left _ _⟩⟩
theorem railNeed_low (s : State) (r : Nat) : 600 ≤ s.railNeed r := by
  unfold State.railNeed; split
  · exact (voltage_bounds _ _ _).1
  · simp only []; split
    · exact Nat.le_refl _
    · exact (voltage_bounds _ _ _).1
theorem witness_avsRequests :
    (∀ x ∈ [(0, 0), (1, 1), (1, 0)], ((railDev 5 { requested := x.1, confirmed := x.2 }).rail 5).requested = x.1 ∧
      ((railDev 5 { requested := x.1, confirmed := x.2 }).rail 5).confirmed = x.2) ∧
    (∀ n c, n ≤ 1 → n ≠ (railDev 5 { requested := n, confirmed := c }).railNeed 5) ∧
    ((railDev 5 { held := true }).rail 5).held = true ∧ ((railDev 5 { held := true }).rail 5).confirmed < (railDev 5 { held := true }).railNeed 5 ∧
    (let s := thmDev fun t => { t with rails := [(5, { requested := dev.railNeed 5 })] }
     (s.rail 5).requested = s.railNeed 5) := by
  refine ⟨by decide +kernel, fun n c h => ?_, rfl, ?_, ?_⟩
  · have := railNeed_low (railDev 5 { requested := n, confirmed := c }) 5; omega
  · have := railNeed_low (railDev 5 { held := true }) 5
    have e : ((railDev 5 { held := true }).rail 5).confirmed = 0 := rfl
    omega
  · rfl
/-- Telemetry 10 mV off the request confirms it, 11 mV off does not (R443). -/
theorem test_telemetry : (let s := railDev 4 { requested := 700 }
    nextIs (exec (.avsTelemetryPoll 4 (some (710, 3))) s) (fun t => (t.rail 4).confirmed == 700) &&
    nextIs (exec (.avsTelemetryPoll 4 (some (711, 3))) s) (fun t => (t.rail 4).confirmed == 0)) = true := by decide +kernel
/-- A core rail's fall fences its die and empties its keeper; a clock fault of one cluster fences four cores (R207, R413). -/
theorem test_rail_fall : nextIs (exec (.pgoodFall 3) dev) (fun t => t.dieFenced 3 && !t.dieFenced 2 && t.mgt.queue.any (fun e => e.ev == .RAIL_PGOOD_LOW)) = true ∧
    nextIs (exec (.dieClockFault 0 (some 1)) dev) (fun t => t.coreFenced 4 && t.coreFenced 7 && !t.coreFenced 3 && !t.coreFenced 8) = true := by
  decide +kernel

/-- A spot that has been read at 50 °C on both sensors. -/
def spot0 : SpotState := { a := 400, b := 400, seenA := true, seenB := true, value := 400 }
/-- The device with the tray on, its nominal flow 50. -/
def trayDev (f : ThermalState → ThermalState := id) : State := (thmDev f).setReg (ra .THM_CFG 0) 0x80320000#32

theorem witness_spotsRead :
    (∀ v ∈ [360, 440], plausible spot0.seenA spot0.a v 40 = true) ∧ (∀ v ∈ [359, 441], plausible spot0.seenA spot0.a v 40 = false) ∧
    (∀ v ∈ [-440, 1200], plausible false 0 v 40 = true) ∧ (∀ v ∈ [-441, 1201], plausible false 0 v 40 = false) ∧
    tblGet ({} : SpotState) (thmDev fun t => { t with spots := [(21, spot0)] }).thermal.spots 21 = spot0 ∧
    (let x := tblGet ({} : SpotState) (thmDev fun t => { t with spots := [(25, { spot0 with badA := true })] }).thermal.spots (22 + 3)
     x.seenA = true ∧ x.badA = true ∧ plausible x.seenB x.b 441 40 = false) := by decide +kernel
theorem witness_trayReads :
    (State.reset.managed = false ∧ trayDev.managed = true ∧ trayDev.trayOn = true ∧ dev.trayOn = false ∧ bitN 2 1 = true ∧ bitN 1 1 = false ∧
      trayDev.flowNom = 50 ∧ trayDev.thermal.trayLost = false ∧ 149 < 3 * trayDev.flowNom ∧ 3 * trayDev.flowNom ≤ 150 ∧ trayDev.thermal.flowSt = 0) ∧
    (∀ k ∈ [2, 1], (trayDev fun t => { t with trayFails := k }).thermal.trayFails = k) ∧
    (trayDev fun t => { t with flowSt := 2 }).thermal.flowSt = 2 ∧
    (let s := thmDev fun t => { t with flowOkSince := some 0, flowSt := 1 }
     let u := { s with now := 60000000 }
     s.thermal.flowSt = 1 ∧ s.flowFine = true ∧ u.flowFine = true ∧ 0 + 60000000 ≤ u.now ∧ s.now < 0 + 60000000) ∧
    (let s := lanDev { lan0 with lossAt := some 0 }
     (s.lantern 0).lossAt = some 0 ∧ (s.lantern 0).works = true ∧ 0 + 10000000 ≤ s.now ∧ s.now < 1 + 10000000 ∧ (s.lantern 0).pwrOff = none ∧
     (s.lantern 0).powered = true) ∧
    (5 ∉ dev.thermal.trips ∧ 5 ∈ (thmDev fun t => { t with trips := [5] }).thermal.trips) ∧
    (∀ a ∈ [9990000, 9990001], { dev with pins := { dev.pins with railsFellAt := some a } }.pins.railsFellAt = some a) ∧ dev.pins.railsFellAt = none := by
  decide +kernel
/-- The junction in m°C at 50 °C, rising 2 K in 50 ms; a history of a second. -/
def slopeDev (f : ThermalState → ThermalState := id) : State := thmDev fun t => f { t with
  spots := [(0, spot0)], junctions := [(9990000, 49900)], slopes := List.replicate 19 2000, predicted := List.replicate 20 (1000, 0), history := List.replicate 100 (50000, 4500, 1000) }
theorem witness_forecastsMade :
    (let s := slopeDev
     let js := (s.now, s.hottest * 125) :: s.thermal.junctions.filter fun x => s.now ≤ x.1 + 50000
     fitSlope s.now js = some 10000 ∧ (10000 :: s.thermal.slopes).length = 20 ∧ (∀ x ∈ 10000 :: s.thermal.slopes, (1500 : Int) < x) ∧
     steadyWork s.thermal.predicted = true ∧ s.thermal.flowSt ≠ 2 ∧ steadyWork [(1000, 0)] = false) ∧
    fitSlope dev.now [(dev.now, dev.hottest * 125)] = none ∧
    (let s := slopeDev fun t => { t with flowSt := 2, shade := 3, slowSince := some 8000000, junctions := [(9990000, 50000)] }
     let js := (s.now, s.hottest * 125) :: s.thermal.junctions.filter fun x => s.now ≤ x.1 + 50000
     fitSlope s.now js = some 0 ∧ s.thermal.trayOk = false ∧ s.thermal.shade = 3 ∧ s.thermal.slowSince = some 8000000 ∧ 8000000 + 2000000 ≤ s.now) ∧
    (let s := slopeDev fun t => { t with trayOk := true }
     s.thermal.trayOk = true ∧ s.thermal.history.length = 100 ∧ 1000 ≤ mean (s.thermal.history.map (·.2.2))) ∧
    (slopeDev.thermal.rStep = none ∧ slopeDev.thermal.lastPower + 400 ≤ mean (slopeDev.thermal.history.map (·.2.2)) ∧ slopeDev.thermal.rEst ≤ 880) ∧
    (let s := thmDev fun t => { t with trayOk := true, rEst := 900, rHighSince := some 0 }
     880 < s.thermal.rEst ∧ s.thermal.rHighSince = some 0 ∧ 0 + 10000000 ≤ s.now ∧ s.thermal.flowSt = 0) ∧
    (let s := thmDev fun t => { t with trayOk := true, inlet := 7501 }
     s.thermal.trayOk = true ∧ 7500 < s.thermal.inlet ∧ dev.thermal.trayOk = false ∧ dev.thermal.shade < 3) := by decide +kernel
/-- A level that has been satisfied for a second is left downwards. Whether it is satisfied rests on the predicted power, which is free: here 0. -/
theorem witness_levelLowered (h : ∀ f l i, Config.predictedPower f l i = 0) :
    let s := thmDev fun t => { t with shade := 1, lowerSince := some 9000000 }
    let ps := [0, 1, 2, 3].map s.predicted
    let u : State := { s with thermal := { s.thermal with spots := s.forecast ps } }
    u.levelOk ps 0 = true ∧ 0 < s.thermal.shade ∧ 9000000 + 1000000 ≤ s.now := by
  have e : ∀ l, dev.predicted l = List.replicate 200 0 := by
    intro l
    unfold State.predicted
    rw [show Config.predictedPower dev.free l = fun _ => 0 from funext (h dev.free l)]
    rfl
  refine ⟨?_, by decide, by decide⟩
  have : ([0, 1, 2, 3].map (thmDev fun t => { t with shade := 1, lowerSince := some 9000000 }).predicted) = List.replicate 4 (List.replicate 200 0) := by
    show [dev.predicted 0, dev.predicted 1, dev.predicted 2, dev.predicted 3] = _
    rw [e, e, e, e]; rfl
  simp only [this]
  decide +kernel
/-- The bounds of R446 … R448: a reading 5 °C from the last is taken, one more is not; both out stand for 115 °C and a trip. -/
theorem test_spot : (let s := thmDev fun t => { t with spots := [(0, spot0)] }
    nextIs (exec (.hotspotSample 0 440 400) s) (fun t => (tblGet ({} : SpotState) t.thermal.spots 0).value == 440) &&
    nextIs (exec (.hotspotSample 0 441 400) s) (fun t => (tblGet ({} : SpotState) t.thermal.spots 0).value == 400) &&
    nextIs (exec (.hotspotSample 0 441 441) s) (fun t => (tblGet ({} : SpotState) t.thermal.spots 0).value == 920 && t.thermal.trips == [0])) = true := by
  decide +kernel
/-! ### Management (R465 … R493) -/

/-- The device with its management changed. -/
def mgtDev (f : MgtState → MgtState) : State := { dev with mgt := f dev.mgt }
/-- Hub 0 as given. -/
def hubDev (h0 : HubMgt) (f : MgtState → MgtState := id) : State := mgtDev fun m => f { m with hubs := tblSet {} m.hubs 0 h0 }

theorem witness_primaryAbsent :
    (let s (a : Nat) := { mgtDev (fun m => { m with hubs := [(1, { announced := true, startedAt := some a })] }) with
        recovery := { phase := .coldBoot }, hif := { bootStage := 4 } }
     b2n (s 0).pins.primarySampled = 0 ∧ (s 0).recovery.phase = .coldBoot ∧ (s 0).hif.bootStage = 4 ∧ ((s 0).hubMgt 0).announced = false ∧
     ((s 0).hubMgt 1).announced = true ∧ ((s 0).hubMgt 1).role = .BOOT ∧ ((s 9900000).hubMgt 1).startedAt = some 9900000 ∧
     9900000 + 100000 ≤ (s 0).now ∧ (s 0).now < 9900001 + 100000) ∧ (dev.hubMgt 0).announced = true := by decide +kernel
theorem witness_processorsTakeOver :
    (State.reset.managed = false ∧ dev.managed = true ∧ (∀ n ∈ [0, 3, 5], dev.reaches 4 n = true) ∧ (dev.link 1).lost = false ∧
      tblGet 0 dev.mgt.dieActive 3 = 0 ∧ ({ dev with net := {} } : State).reaches 4 3 = false ∧ (mgtDev fun m => { m with dieActive := [(3, 1)] }).mgt.dieActive = [(3, 1)]) ∧
    (let s (a : Nat) := mgtDev fun m => { m with hubs := [(0, { role := .ACTIVE, announced := true }), (1, { role := .STANDBY, announced := true, heardAt := some a })] }
     ((s 9995000).hubMgt 1).heardAt = some 9995000 ∧ ((s 9995000).hubMgt 1).role = .STANDBY ∧ ((s 9995000).hubMgt 1).demoted = false ∧
     dev.recovery.phase = .running ∧ 9995000 + 5000 ≤ dev.now ∧ dev.now < 9995001 + 5000 ∧ (dev.link 0).lost = false ∧ dev.reaches 5 4 = true ∧
     (hubDev {}).hubMgt 0 = {}) ∧
    (let s := mgtDev fun m => { m with takeover := some 0, dieHeard := [(0, 9995000)] }
     s.mgt.takeover.isSome = true ∧ 0 ∉ s.mgt.accepted ∧ s.reaches 4 0 = true ∧ tblGet 0 s.mgt.dieHeard 0 + 5000 ≤ s.now ∧ s.now < 9995001 + 5000) ∧
    (let s := mgtDev fun m => { m with takeover := some 0, dieHeard := [(0, 9995000)], doneTo := [0] }
     0 ∈ s.mgt.doneTo ∧ 1 ∉ s.mgt.doneTo) ∧
    (let s := mgtDev fun m => { m with hubs := [(0, { role := .ACTIVE }), (1, { role := .ACTIVE, ackAt := some 9995000 })], takeover := some 0 }
     (s.hubMgt 1).role = .ACTIVE ∧ (s.link 1).lost = false ∧ s.mgt.active ≠ 1 ∧ s.mgt.takeover.isSome = true ∧ s.reaches 4 5 = true ∧
     (s.hubMgt 1).ackAt = some 9995000 ∧ (dev.hubMgt 1).role ≠ .ACTIVE) := by decide +kernel
/-- An entry that waits for the ledger, and its notice ring. -/
def entry0 : LogEntry := { ev := .RAIL_PGOOD_LOW, die := 0, detail := [0], at_ := 9000000 }
def ledgerDev (dropped : Nat) (room : Nat := 5) : State :=
  { mgtDev fun m => { m with queue := [entry0], droppedPending := dropped } with
    hif := { dev.hif with cqs := [(3, { enabled := true, head := room, tail := 2 })] } } |>.setReg (ra .HIF_NOTICE_RING 0) 0x80000003#32
    |>.setReg (ra .HIF_CQ_CFG 0 3) 0x80100000#32
theorem witness_ledgerWritten :
    (∀ d ∈ [0, 9], let s := ledgerDev d
     s.mgt.queue = entry0 :: [] ∧ s.managed = true ∧ s.mgt.active < 2 ∧ s.mgt.droppedPending = d ∧ (s.link 0).lost = false ∧
     (s.reg (ra .HIF_NOTICE_RING 0)).getLsbD 31 = true ∧ bits (s.reg (ra .HIF_NOTICE_RING 0)) 5 0 = 3 ∧ (s.cq 0 3).enabled = true ∧
     bits (s.reg (ra .HIF_NOTICE_RING 0)) 10 8 ≤ entry0.ev.severity ∧ s.cqRoom 0 3 = 2) ∧ dev.mgt.queue = [] := by decide +kernel
/-- A notice takes two units: with one free it is dropped (R267). -/
theorem test_ledger : nextIs (exec (.ledgerWrite []) (ledgerDev 0)) (fun t => ((t.cq 0 3).queue.map (·.kind)) == [0x82] && t.mgt.nextSeq == 1) = true ∧
    nextIs (exec (.ledgerWrite [0]) (ledgerDev 0 4)) (fun t => (t.cq 0 3).queue == [] && t.mgt.nextSeq == 1) = true := by decide +kernel

/-- An untagged Ikisan message that came by a ring, and the device with it alone. -/
def ikMsg (type : Nat) (body : List Byte) : IkMsg :=
  { via := .ring (pkt 0x0D []), bytes := toLe 2 0x4B49 ++ [1, BitVec.ofNat 8 type] ++ toLe 4 (32 + body.length) ++ List.replicate 24 0 ++ body }
def msgDev (m : IkMsg) (s : State := dev) : State := { s with mgt := { s.mgt with inbox := [m] } }
/-- A message that a state can take, and a CONTROL message that it accepts. -/
theorem takes_message (m : IkMsg) (ok : IkMsg → Bool) (h : ok m = true) : (msgDev m).takesMessage ok m dev :=
  ⟨rfl, [], by simp [msgDev, takeFirst, h], rfl⟩
theorem takes_control (m : IkMsg) (s : State) (t : Nat) (ha : ((msgDev m s).authentic m && m.type == t && controlType t && (msgDev m s).managed) = true) :
    (msgDev m s).takesControl t m { s with mgt := { s.mgt with inbox := [], counter := max s.mgt.counter m.counter } } := by
  simp only [Bool.and_eq_true, beq_iff_eq] at ha
  obtain ⟨⟨⟨a, b⟩, c⟩, d⟩ := ha
  exact ⟨d, a, b, [], by simp [msgDev, takeFirst, b, c], rfl⟩

theorem witness_portAnswers :
    (let s := ({ dev with mgt := dev.mgt } : State).setReg (ra .MGT_NET_CFG 0) 0x80001234#32 |>.setReg (ra .MGT_NET_IP 0) 0x0A000001#32
     s.portServes 0 = true ∧ s.portServes 1 = false ∧ s.netIp 0 = 0x0A000001 ∧ s.field (ra .MGT_NET_CFG 0) 15 0 = 0x1234 ∧
     requestOk (ikMsg 2 []).bytes = true ∧ (ikMsg 2 []).bytes.length ≤ 1472 ∧ requestOk [0] = false) ∧
    (let s := dev.setReg (ra .MGT_MBX_DATA 0 0 0) 0x02014B49#32 |>.setReg (ra .MGT_MBX_DATA 0 0 1) 32#32
     let bs := ((List.range 256).flatMap fun i => toLe 4 (s.reg (ra .MGT_MBX_DATA 0 0 i)).toNat).take 32
     dev.hif.hostReady = true ∧ State.reset.hif.hostReady = false ∧ (0x80000020#32).getLsbD 31 = true ∧ bits 0x80000020#32 15 0 = 32 ∧
     requestOk bs = true ∧ controlType (IkMsg.type { via := .mailbox 0, bytes := bs }) = false) := by decide +kernel
theorem witness_messagesAnswered :
    (∀ x ∈ [((0 : Nat), ([] : List Byte)), (1, []), (2, []), (3, []), (4, []), (5, []), (6, [0, 0, 0xE8, 3]), (7, List.replicate 33 0), (8, []), (9, []), (1, [0])],
      (msgDev (ikMsg x.1 x.2)).takesMessage (fun m => m.type == x.1) (ikMsg x.1 x.2) dev ∧ (ikMsg x.1 x.2).body = x.2) ∧
    knownType (ikMsg 0 []).type = false ∧
    (∀ n ∈ [0, 1, 1000, 1001], let m := ikMsg 6 ([0, 0] ++ toLe 2 n)
     m.body.length = 4 ∧ leAt m.body 2 2 = n) ∧
    (∀ b ∈ [List.replicate 33 0, List.replicate 32 0 ++ [1] ++ List.replicate 15 0], let m := ikMsg 7 b
     33 ≤ m.body.length ∧ m.body.length ≤ 48 ∧ leAt m.body 32 1 ≤ 1 ∧ zeroFrom m.body 33 15 = true) ∧
    dev.mgt.attestWait.length < 16 ∧ (mgtDev fun m => { m with attestWait := List.replicate 16 (.message (ikMsg 7 [])) }).mgt.attestWait.length = 16 ∧
    (let s := hubDev { role := .ACTIVE, announced := true, xmssNext := 5, xmssEnd := 6 } fun m => { m with attestWait := [.message (ikMsg 7 (List.replicate 33 0))] }
     s.mgt.attestWait = .message (ikMsg 7 (List.replicate 33 0)) :: [] ∧ s.managed = true ∧ (s.hubMgt s.mgt.active).xmssNext < 2 ^ 40 ∧
     (s.hubMgt s.mgt.active).xmssNext < (s.hubMgt s.mgt.active).xmssEnd) := by
  refine ⟨fun x hx => ⟨takes_message _ _ ?_, ?_⟩, by decide +kernel, by decide +kernel, by decide +kernel, by decide +kernel, by decide +kernel, by decide +kernel⟩ <;>
    revert x <;> decide +kernel
/-- Where the manual leaves a body's layout open (log 48) the clauses are met under some layout: here word f of the body, data from byte 8 on. -/
theorem field_word (hf : ∀ t f, Config.ikisanField t f = (4 * f, 4)) (m : IkMsg) (f : Nat) : m.field f = leAt m.body (4 * f) 4 := by
  unfold IkMsg.field; rw [hf]
theorem data_eight (hd : ∀ t, Config.ikisanData t = 8) (m : IkMsg) : m.data = m.body.drop 8 := by unfold IkMsg.data; rw [hd]
/-- A body of words. -/
def words (l : List Nat) : List Byte := l.flatMap (toLe 4)
theorem witness_messageFields (hf : ∀ t f, Config.ikisanField t f = (4 * f, 4)) :
    (∀ n ∈ [0, 1, 1000, 1001], (ikMsg 4 (words [0, n])).field 1 = n) ∧
    (∀ x ∈ [(0, 0), (0xF0000, 65536), (0xF0001, 65536), (0, 65537)], (ikMsg 5 (words [x.1, x.2])).field 0 = x.1 ∧ (ikMsg 5 (words [x.1, x.2])).field 1 = x.2) ∧
    (∀ x ∈ [(0, 0, 0), (0, 0xF0000, 65536), (0, 0xF0001, 65536), (1, 0x10000, 65536), (1, 0x3F0000, 65536), (1, 0x3F0001, 65536), (2, 0, 1), (1, 0, 65537)],
      let m := ikMsg 8 (words [x.1, x.2.1, x.2.2])
      m.field 0 = x.1 ∧ m.field 1 = x.2.1 ∧ m.field 2 = x.2.2) := by
  simp only [field_word hf]; decide +kernel
/-- IDENTIFY and an unknown type are answered on the ring they came by (R479, R489). -/
theorem test_messages : nextIs (exec .ikisanBadType (msgDev (ikMsg 0x7F []))) (fun t => t.mgt.inbox == []) = true ∧
    nextIs (exec .status (msgDev (ikMsg 1 []))) (fun t => t.mgt.inbox.length == 1) = true := by decide +kernel
theorem witness_controlTaken :
    (∀ t ∈ [0x10, 0x11, 0x12, 0x13, 0x14, 0x15, 0x16, 0x17, 0x18, 0x19, 0x1A], ∀ b ∈ [([] : List Byte), List.replicate 32 0],
      (msgDev (ikMsg t b)).takesControl t (ikMsg t b) { dev with mgt := { dev.mgt with inbox := [], counter := max dev.mgt.counter (ikMsg t b).counter } } ∧
      (ikMsg t b).body = b) ∧
    dev.activating = false ∧ (mgtDev fun m => { m with update := { phase := .PAUSED } }).activating = true ∧ State.reset.managed = false ∧
    dev.mgt.key = none ∧ dev.recovery.phase = .running ∧ (phaseDev .stopped).recovery.phase ≠ .running ∧
    (let m : IkMsg := { ikMsg 0x18 [] with via := .port 0 0 }
     takeFirst (fun (y : IkMsg) => controlType y.type) (msgDev m).mgt.inbox = some (m, []) ∧ (msgDev m).authentic m = false ∧ (msgDev m).mgt.active < 2) ∧
    takeFirst (fun (y : IkMsg) => controlType y.type) dev.mgt.inbox = none := by
  refine ⟨fun t ht b hb => ⟨takes_control _ _ _ ?_, ?_⟩, by decide +kernel, by decide +kernel, by decide +kernel, by decide +kernel, by decide +kernel,
    by decide +kernel, by decide +kernel, by decide +kernel⟩ <;> revert b <;> revert t <;> decide +kernel
/-- A PLANNED_STOP with counter 6 that carries the tag of a key of 32 zeros. -/
def taggedStop : IkMsg :=
  let front := toLe 2 0x4B49 ++ [1, 0x19] ++ toLe 4 48 ++ toLe 8 6 ++ List.replicate 6 0 ++ [2] ++ List.replicate 9 0
  { via := .port 0 0, bytes := front ++ kmac (List.replicate 32 0) front }
/-- A tagged message is accepted when its tag is right and its counter rises (R478). -/
theorem witness_tagged :
    let s (n : Nat) := msgDev taggedStop (mgtDev fun x => { x with key := some (List.replicate 32 0), counter := n })
    (s 5).mgt.key = some (List.replicate 32 0) ∧ (s 5).authentic taggedStop = true ∧ (s 6).authentic taggedStop = false := by decide +kernel
/-- The first bytes of sample 4 of NIST's KMAC256 examples, and the cosine of 60° (R283). -/
theorem test_kmac : (kmac256 ((List.range 32).map fun i => BitVec.ofNat 8 (0x40 + i)) [0, 1, 2, 3] 512
    ([0x4D, 0x79, 0x20, 0x54, 0x61, 0x67, 0x67, 0x65, 0x64, 0x20, 0x41, 0x70, 0x70, 0x6C, 0x69, 0x63, 0x61, 0x74, 0x69, 0x6F, 0x6E])).take 4 =
    [0x20, 0xC5, 0x70, 0xC3] := by decide +kernel
theorem test_centidegree : cosCentidegree 6000 = 0x3F000000 ∧ sinCentidegree (-4500) = 0xBF3504F3 ∧ sinCentidegree 18000 = 0 := by decide +kernel

theorem witness_controlFields (hf : ∀ t f, Config.ikisanField t f = (4 * f, 4)) (hd : ∀ t, Config.ikisanData t = 8) :
    (∀ x ∈ [(0xFFFF, 1), (0x10000, 0), (0x10000, 1), (0x3FFFFF, 1), (0x400000, 1)], let m := ikMsg 0x11 (words [x.1, 0] ++ List.replicate x.2 9)
      m.field 0 = x.1 ∧ m.data = List.replicate x.2 9) ∧
    (∀ x ∈ [(3, 0), (3, 4095), (0, 4096), (3, 4096), (3, 0x1000000), (3, 0x1000001), (6, 4096), (7, 4096)], let m := ikMsg 0x13 (words [x.1, x.2])
      m.field 0 = x.1 ∧ m.field 1 = x.2 ∧ kindOk 3 = true ∧ kindOk 6 = true ∧ kindOk 0 = false ∧ kindOk 7 = false ∧ slotSize 3 = 0x1000000) ∧
    (∀ x ∈ [(3, 15), (3, 16), (3, 4095), (3, 4096), (3, 0)], let m := ikMsg 0x14 (words [x.1, x.2] ++ [9])
      m.field 0 = x.1 ∧ m.field 1 = x.2 ∧ m.data = [9]) ∧
    (∀ x ∈ [(1, 0), (2, 0), (3, 0), (3, 1), (4, 0)], (ikMsg 0x16 (words [x.1, x.2])).scope = x.1 ∧ (ikMsg 0x16 (words [x.1, x.2])).field 1 = x.2) ∧
    (mgtDev fun m => { m with slots := [(3, { writing := some (16, 4096) })] }).slotRec 3 = { writing := some (16, 4096) } ∧ (dev.slotRec 3).writing = none := by
  simp only [IkMsg.scope, field_word hf, data_eight hd]; decide +kernel
theorem witness_activations :
    (let s := mgtDev fun m => { m with slots := [(3, { pending := true })] }
     dev.tdiesRefused = true ∧ s.tdiesRefused = false ∧ s.liveTdies.head? = some 0) ∧
    (let s := mgtDev fun m => { m with slots := [(2, { pending := true })] }
     (s.slotRec 2).pending = true ∧ (s.lantern 1).run = .RUNNING ∧ (dev.slotRec 2).pending = false) ∧
    dev.mirror.twin ≠ .ALIVE ∧ dev.mgt.otp.ordering = 1 ∧ (mgtDev fun m => { m with otp := { m.otp with ordering := 2 } }).mgt.otp.ordering ≠ 1 ∧
    dev.tokenOk [] = false ∧ causePlanned ∉ (dev.lantern 0).causes := by
  refine ⟨?_, ?_, ?_, ?_, ?_, ?_, ?_⟩ <;> decide +kernel
/-- A written image passes when the vendor's key and the signature check, which the model leaves open, agree with it (R482); one byte off, its header is
refused. -/
def image0 (magic : Nat := 0x494D4731) : List Byte :=
  toLe 4 magic ++ [3, 0] ++ List.replicate 58 0 ++ shake256 [] ++ List.replicate 68 0
def imageDev (magic : Nat := 0x494D4731) : State := mgtDev fun m => { m with
  slots := [(3, { writing := some (4096, 4096) })]
  hubs := tblMod {} m.hubs 0 fun h => { h with flash := { h.flash with erased := [7], images := [(7, tblSetList erasedByte [] 0 (image0 magic))] } } }
theorem witness_imageRefused : (imageDev 0x494D4732).imageFault 0 3 true = some 0 ∧ ((imageDev).slotRec 3).writing.isSome = true := by decide +kernel
theorem witness_imageGood (hv : ∀ k, Config.vendorKey k = shake256 (List.replicate 68 0)) (hx : ∀ a b c, Config.xmssVerify a b c = true) :
    imageDev.imageFault 0 3 true = none := by
  unfold State.imageFault
  simp only [hv, hx]
  decide +kernel
/-- A token for the device's dies with its last nonce (R492), where the vendor's key and the signature check agree with it. -/
def token (a b nonce : List Byte) : List Byte :=
  toLe 4 0x44424755 ++ toLe 4 7 ++ padTo 16 a ++ padTo 16 b ++ nonce ++ List.replicate (tokenBytes - 72) 0
theorem witness_tokenOk (hu : ∀ d, Config.uniqueId d = [1]) (hv : ∀ k, Config.vendorKey k = [2]) (hx : ∀ a b c, Config.xmssVerify a b c = true) :
    (mgtDev fun m => { m with nonce := some (List.replicate 32 3) }).tokenOk (token [1] [1] (List.replicate 32 3)) = true := by
  unfold State.tokenOk dieUid
  simp only [hu, hv, hx]
  decide +kernel
/-- A first message of each kind is taken and answered; without a tag a CONTROL message by the port is refused (R478). -/
theorem test_control : nextIs (exec .keySet (msgDev (ikMsg 0x10 (List.replicate 32 5)))) (fun t => t.mgt.key == some (List.replicate 32 5)) = true ∧
    nextIs (exec .keySet (msgDev (ikMsg 0x10 (List.replicate 31 5)))) (fun t => t.mgt.key == none) = true ∧
    nextIs (exec .plannedStop (msgDev { ikMsg 0x19 [] with via := .port 0 0 })) (fun t => !(t.lantern 0).fault && t.mgt.inbox == []) = true := by
  decide +kernel

end Sys2Proof.Tests
end

section
/-! SUPPORT. No command changes the one-time programmable bits, but UPDATE_COMMIT and DEBUG_UNLOCK (R3, R484, R492): what each function of the model
leaves of `mgt.otp`, one lemma a function and in the order of the model's files; from them O59. -/

namespace Sys2Proof.Machine

/-! ### One-time programmable bits left alone -/

/-- The one-time programmable bits are as before, all of them. -/
def State.sameOtp (s t : State) : Prop := t.mgt.otp = s.mgt.otp

@[simp] theorem State.sameOtp_iff (s t : State) : s.sameOtp t ↔ t.mgt.otp = s.mgt.otp := Iff.rfl

@[simp] theorem ite_otp (c : Prop) [Decidable c] (s t : State) :
    (if c then s else t).mgt.otp = if c then s.mgt.otp else t.mgt.otp := apply_ite (fun s : State => s.mgt.otp) c s t

@[simp] theorem dite_otp (c : Prop) [Decidable c] (s : c → State) (t : ¬c → State) :
    (if h : c then s h else t h).mgt.otp = if h : c then (s h).mgt.otp else (t h).mgt.otp :=
  apply_dite (fun s : State => s.mgt.otp) c s t

@[simp] theorem ite_fst_otp {α : Type} (c : Prop) [Decidable c] (s t : State × α) :
    (if c then s else t).1.mgt.otp = if c then s.1.mgt.otp else t.1.mgt.otp := apply_ite (fun s : State × α => s.1.mgt.otp) c s t

/-- A fold keeps the bits when each of its steps does. -/
@[simp] theorem foldl_otp {α : Type} (f : State → α → State) (l : List α) (s : State) (hf : ∀ (s : State) (a : α), s.sameOtp (f s a)) :
    (l.foldl f s).mgt.otp = s.mgt.otp := by
  induction l generalizing s with
  | nil => rfl
  | cons a l ih => exact (ih (f s a)).trans (hf s a)

@[simp] theorem foldl_fst_otp {α β : Type} (f : State × β → α → State × β) (l : List α) (a : State × β)
    (hf : ∀ (a : State × β) (x : α), a.1.sameOtp (f a x).1) : (l.foldl f a).1.mgt.otp = a.1.mgt.otp := by
  induction l generalizing a with
  | nil => rfl
  | cons x l ih => exact (ih (f a x)).trans (hf a x)

/-! Updates of one other part. A long change is closed by these, by name, so that no proof compares the part itself. -/

theorem State.withRegs_otp (s : State) (r : Tbl Word) : { s with regs := r }.mgt.otp = s.mgt.otp := rfl
theorem State.withCache_otp (s : State) (c : ShelfCache) : { s with cache := c }.mgt.otp = s.mgt.otp := rfl
theorem State.withHif_otp (s : State) (h : HifState) : { s with hif := h }.mgt.otp = s.mgt.otp := rfl
theorem State.withAln_otp (s : State) (a : AlignState) : { s with aln := a }.mgt.otp = s.mgt.otp := rfl
theorem State.withPln_otp (s : State) (p : PlannersState) : { s with pln := p }.mgt.otp = s.mgt.otp := rfl
theorem State.withRecovery_otp (s : State) (r : RecoveryState) : { s with recovery := r }.mgt.otp = s.mgt.otp := rfl

/-! ### What the model's functions leave alone -/


/-! #### Ops -/

@[simp] theorem State.log_otp (s : State) (ev : Event) (die : Nat) (detail : List Nat) : (s.log ev die detail).mgt.otp = s.mgt.otp := by
  simp [State.log]
@[simp] theorem State.markPoison_otp (s : State) (a n : Nat) (p : Bool) : (s.markPoison a n p).mgt.otp = s.mgt.otp := by simp [State.markPoison]

@[simp] theorem writeBlocks_otp (s : State) (a : Nat) (bs : List Byte) (n : Nat) : (writeBlocks s a bs n).mgt.otp = s.mgt.otp := by
  induction n generalizing s a bs with
  | zero => rfl
  | succ n ih => unfold writeBlocks; split <;> simp [ih]

@[simp] theorem State.writeMem_otp (s : State) (a : Nat) (bs : List Byte) (p : Bool) : (s.writeMem a bs p).mgt.otp = s.mgt.otp := by
  simp [State.writeMem]
@[simp] theorem State.modHubMgt_otp (s : State) (h : Nat) (f : HubMgt → HubMgt) : (s.modHubMgt h f).mgt.otp = s.mgt.otp := rfl

/-! #### CacheOps -/

@[simp] theorem State.catError_otp (s : State) (d bit h : Nat) : (s.catError d bit h).mgt.otp = s.mgt.otp := by simp [State.catError]
@[simp] theorem State.setCache_otp (s : State) (c : ShelfCache) : (s.setCache c).mgt.otp = s.mgt.otp := by simp [State.setCache]
@[simp] theorem State.unpin_otp (s : State) (hs : List Nat) : (s.unpin hs).mgt.otp = s.mgt.otp := by
  unfold State.unpin; split <;> simp

/-! #### GraphOps -/

@[simp] theorem State.withhold_otp (s : State) (g f code : Nat) : (s.withhold g f code).mgt.otp = s.mgt.otp := by
  unfold State.withhold; split <;> simp

@[simp] theorem State.coreError_otp (s : State) (c kind engine addr : Nat) : (s.coreError c kind engine addr).mgt.otp = s.mgt.otp := by
  unfold State.coreError
  dsimp only
  rw [State.raise_mgt]
  split
  · rw [State.setReg_mgt, State.setReg_mgt]
  · rfl

@[simp] theorem State.abortPass_otp (s : State) (c kind engine addr : Nat) : (s.abortPass c kind engine addr).mgt.otp = s.mgt.otp := by
  simp [State.abortPass]

/-! #### Operands -/

@[simp] theorem State.countCycles_otp (s : State) (c e : Nat) : (s.countCycles c e).mgt.otp = s.mgt.otp := rfl
@[simp] theorem State.storeCe_otp (s : State) (c bank : Nat) : (s.storeCe c bank).mgt.otp = s.mgt.otp := by simp [State.storeCe]
@[simp] theorem State.storeUe_otp (s : State) (c e line : Nat) : (s.storeUe c e line).mgt.otp = s.mgt.otp := by simp [State.storeUe]
@[simp] theorem finishOp_otp (s : State) (c e : Nat) (w : IWord) (o : OpOut) : (finishOp s c e w o).mgt.otp = s.mgt.otp := by
  unfold finishOp; dsimp only; (repeat' split) <;> simp

/-- What an engine's instruction comes to leaves the bits of `s` alone. -/
def OpRes.keepsOtp (s : State) : OpRes → Prop
  | .wait => True
  | .done t _ => t.mgt.otp = s.mgt.otp

@[simp] theorem OpRes.keepsOtp_wait (s : State) : OpRes.wait.keepsOtp s := trivial
@[simp] theorem OpRes.keepsOtp_done (s t : State) (o : OpOut) : (OpRes.done t o).keepsOtp s ↔ t.mgt.otp = s.mgt.otp := Iff.rfl
@[simp] theorem OpRes.keepsOtp_ite (s : State) (c : Prop) [Decidable c] (a b : OpRes) :
    (if c then a else b).keepsOtp s ↔ if c then a.keepsOtp s else b.keepsOtp s := by split <;> rfl

theorem tryOp_otp {s t : State} {c e op : Nat} {hw : CoreHw} {body : State → Nat → IWord → OpRes} (hb : ∀ s w, (body s c w).keepsOtp s)
    (h : tryOp s c e op hw body = some t) : t.mgt.otp = s.mgt.otp := by
  unfold tryOp at h
  dsimp only at h
  split at h
  · split at h
    · split at h
      · cases h; simp
      · cases h; simp
      · split at h
        · cases h
        · next s2 o e =>
          cases h
          have h2 : (OpRes.done s2 o).keepsOtp _ := e ▸ hb _ _
          exact (finishOp_otp ..).trans (h2.trans (by split <;> simp))
    · cases h
  · cases h

@[simp] theorem runOp_otp (s : State) (c e op : Nat) (hw : CoreHw) (body : State → Nat → IWord → OpRes) (hb : ∀ s w, (body s c w).keepsOtp s) :
    (runOp s c e op hw body).mgt.otp = s.mgt.otp := by
  unfold runOp
  cases h : tryOp s c e op hw body with
  | none => rfl
  | some t => exact tryOp_otp hb h

@[simp] theorem runDm_otp (s : State) (c op : Nat) (hw : CoreHw) (body : State → Nat → IWord → OpRes) (hb : ∀ s w, (body s c w).keepsOtp s) :
    (runDm s c op hw body).mgt.otp = s.mgt.otp := by
  unfold runDm
  split
  · next t h => exact tryOp_otp hb h
  · exact runOp_otp s c 4 op hw body hb

/-! #### Mover -/

@[simp] theorem State.rcInvalidate_otp (s : State) (d a n : Nat) : (s.rcInvalidate d a n).mgt.otp = s.mgt.otp := by simp [State.rcInvalidate]
@[simp] theorem dmCopy_keepsOtp (s : State) (c : Nat) (w : IWord) : (dmCopy s c w).keepsOtp s := rfl
@[simp] theorem dmFill_keepsOtp (s : State) (c : Nat) (w : IWord) : (dmFill s c w).keepsOtp s := rfl
@[simp] theorem dmGather_keepsOtp (s : State) (c : Nat) (w : IWord) : (dmGather s c w).keepsOtp s := by
  unfold dmGather; dsimp only; (repeat' split) <;> simp
@[simp] theorem dmTranspose_keepsOtp (s : State) (c : Nat) (w : IWord) : (dmTranspose s c w).keepsOtp s := rfl
@[simp] theorem dmSend_keepsOtp (s : State) (c : Nat) (w : IWord) : (dmSend s c w).keepsOtp s := by
  unfold dmSend; dsimp only; (repeat' split) <;> simp
@[simp] theorem dmRecv_keepsOtp (s : State) (c : Nat) (w : IWord) : (dmRecv s c w).keepsOtp s := by
  unfold dmRecv; dsimp only; (repeat' split) <;> simp
@[simp] theorem dmRead_keepsOtp (s : State) (c : Nat) (w : IWord) : (dmRead s c w).keepsOtp s := by simp [dmRead]
@[simp] theorem dmWrite_keepsOtp (s : State) (c : Nat) (w : IWord) : (dmWrite s c w).keepsOtp s := by simp [dmWrite]

/-! #### Sequencer -/

/-- What a sequencer op comes to leaves the bits of `s` alone. -/
def SeqRes.keepsOtp (s : State) : SeqRes → Prop
  | .wait => True
  | .done t _ => t.mgt.otp = s.mgt.otp

@[simp] theorem SeqRes.keepsOtp_wait (s : State) : SeqRes.wait.keepsOtp s := trivial
@[simp] theorem SeqRes.keepsOtp_done (s t : State) (k : CoreState) : (SeqRes.done t k).keepsOtp s ↔ t.mgt.otp = s.mgt.otp := Iff.rfl
@[simp] theorem SeqRes.keepsOtp_ite (s : State) (c : Prop) [Decidable c] (a b : SeqRes) :
    (if c then a else b).keepsOtp s ↔ if c then a.keepsOtp s else b.keepsOtp s := by split <;> rfl

@[simp] theorem runSeq_otp (s : State) (c op : Nat) (hw : CoreHw) (body : State → Nat → IWord → SeqRes) (hb : ∀ w, (body s c w).keepsOtp s) :
    (runSeq s c op hw body).mgt.otp = s.mgt.otp := by
  unfold runSeq
  dsimp only
  split
  · split
    · simp
    · split
      · have h := hb (s.core c).wordAtPc
        split
        · rfl
        · next t k e =>
          rw [e] at h
          split <;> simpa using h
      · rfl
  · rfl

@[simp] theorem State.sendToken_otp (s : State) (t : Token) : (s.sendToken t).mgt.otp = s.mgt.otp := rfl

@[simp] theorem State.raiseVersion_otp (s : State) (home g b : Nat) (rel : State → State) (what : VersionThen)
    (hr : ∀ s : State, s.sameOtp (rel s)) : (s.raiseVersion home g b rel what).mgt.otp = s.mgt.otp := by
  simp only [State.sameOtp_iff] at hr
  unfold State.raiseVersion
  dsimp only
  split <;> simp [hr]

@[simp] theorem sendOutput_otp (s : State) (c : Nat) (k : CoreState) (gr : Graph) (ei : Nat) : (sendOutput s c k gr ei).mgt.otp = s.mgt.otp := by
  unfold sendOutput; dsimp only; split <;> simp
@[simp] theorem seqNop_keepsOtp (s : State) (c : Nat) (w : IWord) : (seqNop s c w).keepsOtp s := rfl
@[simp] theorem seqTokenWait_keepsOtp (s : State) (c : Nat) (w : IWord) : (seqTokenWait s c w).keepsOtp s := by
  unfold seqTokenWait; split <;> simp
@[simp] theorem seqTokenSend_keepsOtp (s : State) (c : Nat) (w : IWord) : (seqTokenSend s c w).keepsOtp s := by
  unfold seqTokenSend; split <;> simp
@[simp] theorem seqLoop_keepsOtp (s : State) (c : Nat) (w : IWord) : (seqLoop s c w).keepsOtp s := rfl
@[simp] theorem seqBarrier_keepsOtp (s : State) (c : Nat) (w : IWord) : (seqBarrier s c w).keepsOtp s := by simp [seqBarrier]
@[simp] theorem seqFitCheck_keepsOtp (s : State) (c : Nat) (w : IWord) : (seqFitCheck s c w).keepsOtp s := by simp [seqFitCheck]
@[simp] theorem logDrift_otp (s : State) (c : Nat) (k : CoreState) (old new : Slot) : (logDrift s c k old new).mgt.otp = s.mgt.otp := by
  simp [logDrift]
@[simp] theorem logNan_otp (s : State) (c : Nat) (k : CoreState) (n : Nat) : (logNan s c k n).mgt.otp = s.mgt.otp := by
  unfold logNan; split <;> simp
@[simp] theorem State.sendSignature_otp (s : State) (c : Nat) (k : CoreState) : (s.sendSignature c k).mgt.otp = s.mgt.otp := by
  unfold State.sendSignature; split <;> simp
@[simp] theorem seqEnd_keepsOtp (s : State) (c : Nat) (w : IWord) : (seqEnd s c w).keepsOtp s := by simp [seqEnd]
@[simp] theorem illegalAt_otp (s : State) (c : Nat) (hw : CoreHw) : (illegalAt s c hw).mgt.otp = s.mgt.otp := by simp [illegalAt]
@[simp] theorem decideMember_otp (f : Nat) (rerun skip : Bool) (copy : Nat) (s : State) (cd : Card) :
    (decideMember f rerun skip copy s cd).mgt.otp = s.mgt.otp := by
  unfold decideMember; dsimp only; (repeat' split) <;> simp
@[simp] theorem decideGroup_otp (s : State) (g f group copy : Nat) : (decideGroup s g f group copy).mgt.otp = s.mgt.otp := by
  unfold decideGroup; split <;> simp

/-! #### HostOps -/

@[simp] theorem State.settleSq_otp (s : State) (link sq : Nat) : (s.settleSq link sq).mgt.otp = s.mgt.otp := by simp [State.settleSq]
@[simp] theorem State.complete_otp (s : State) (c : Completion) : (s.complete c).mgt.otp = s.mgt.otp := by simp [State.complete]
@[simp] theorem State.finish_otp (s : State) (p : Packet) (status : Nat) (result payload : List Byte) :
    (s.finish p status result payload).mgt.otp = s.mgt.otp := by simp [State.finish]
@[simp] theorem State.take_otp (s : State) (p : Packet) : (s.take p).mgt.otp = s.mgt.otp := rfl
@[simp] theorem State.takeFinish_otp (s : State) (p : Packet) (status : Nat) (result payload : List Byte) :
    (s.takeFinish p status result payload).mgt.otp = s.mgt.otp := by simp [State.takeFinish]
@[simp] theorem State.hold_otp (s : State) (p : Packet) : (s.hold p).mgt.otp = s.mgt.otp := rfl
@[simp] theorem State.modFront_otp (s : State) (link sq : Nat) (f : Packet → Packet) : (s.modFront link sq f).mgt.otp = s.mgt.otp := rfl
@[simp] theorem State.finishEntries_otp (s : State) (p : Packet) : (s.finishEntries p).mgt.otp = s.mgt.otp := by simp [State.finishEntries]

@[simp] theorem State.endEntry_otp (s : State) (link sq type code status : Nat) (record : List Byte) (n : Nat) :
    (s.endEntry link sq type code status record n).mgt.otp = s.mgt.otp := by
  induction n generalizing s code status record with
  | zero => rfl
  | succ n ih => unfold State.endEntry; dsimp only; (repeat' split) <;> simp [ih]

@[simp] theorem State.writeUnits_otp (s : State) (link q unit : Nat) (bs : List Byte) : (s.writeUnits link q unit bs).mgt.otp = s.mgt.otp := rfl
@[simp] theorem State.writeStatusLine_otp (s : State) (link q : Nat) : (s.writeStatusLine link q).mgt.otp = s.mgt.otp := rfl
@[simp] theorem State.countIrq_otp (s : State) (link q : Nat) : (s.countIrq link q).mgt.otp = s.mgt.otp := by simp [State.countIrq]
@[simp] theorem State.writePart_otp (s : State) (c : Completion) (body : List Byte) (part : Nat) (more : Bool) :
    (s.writePart c body part more).mgt.otp = s.mgt.otp := by simp [State.writePart]
@[simp] theorem State.loseHub_otp (s : State) (h : Nat) : (s.loseHub h).mgt.otp = s.mgt.otp := rfl

/-! #### CoreEvents -/

@[simp] theorem ceStorm_otp (s : State) (c bank : Nat) : (ceStorm s c bank).mgt.otp = s.mgt.otp := by simp [ceStorm]
@[simp] theorem State.scrubCe_otp (s : State) (c engine bank : Nat) : (s.scrubCe c engine bank).mgt.otp = s.mgt.otp := by simp [State.scrubCe]
@[simp] theorem scrubLine_otp (s : State) (base line rep engine : Nat) (hw : CoreHw) :
    (scrubLine s base line rep engine hw).mgt.otp = s.mgt.otp := by
  unfold scrubLine; split <;> simp
@[simp] theorem scrub_otp (s : State) (c : Nat) (cluster : Bool) (hw : CoreHw) : (scrub s c cluster hw).mgt.otp = s.mgt.otp := by
  unfold scrub; (repeat' split) <;> simp
@[simp] theorem State.zeroStore_otp (s : State) (base : Nat) : (s.zeroStore base).mgt.otp = s.mgt.otp := rfl
@[simp] theorem State.resetCore_otp (s : State) (c : Nat) : (s.resetCore c).mgt.otp = s.mgt.otp := by simp [State.resetCore]

/-! #### Tensor -/

@[simp] theorem teLoad_keepsOtp (expand : Bool) (s : State) (c : Nat) (w : IWord) : (teLoad expand s c w).keepsOtp s := by simp [teLoad]
@[simp] theorem teArith_keepsOtp (table : Bool) (s : State) (c : Nat) (w : IWord) : (teArith table s c w).keepsOtp s := by
  unfold teArith; dsimp only; (repeat' split) <;> simp
@[simp] theorem teDrain_keepsOtp (s : State) (c : Nat) (w : IWord) : (teDrain s c w).keepsOtp s := rfl
@[simp] theorem teClear_keepsOtp (s : State) (c : Nat) (w : IWord) : (teClear s c w).keepsOtp s := rfl

/-! #### Routes -/

@[simp] theorem State.setRoutes_otp (s : State) : s.setRoutes.mgt.otp = s.mgt.otp := rfl

/-! #### Placement -/

@[simp] theorem installStation_otp (g : Nat) (s : State) (x : Card × Place × (List (BitVec 128) × List (BitVec 128)) × Nat) :
    (installStation g s x).mgt.otp = s.mgt.otp := by simp [installStation]

@[simp] theorem copyWeights_otp (m : Img) (b : Bundle) (s : State) (x : Card × Place) : (copyWeights m b s x).mgt.otp = s.mgt.otp := by
  unfold copyWeights
  dsimp only
  split
  · split
    · rw [State.writeMem_otp]
    · rfl
  · rfl

@[simp] theorem resetStateBuffer_otp (m : Img) (s : State) (g bi : Nat) : (resetStateBuffer m s g bi).mgt.otp = s.mgt.otp := by
  unfold resetStateBuffer; split <;> simp
@[simp] theorem writeInitials_otp (m : Img) (s : State) (g : Nat) : (writeInitials m s g).mgt.otp = s.mgt.otp := by
  unfold writeInitials; split <;> simp
@[simp] theorem enterRanges_otp (s : State) (g n : Nat) : (enterRanges s g n).mgt.otp = s.mgt.otp := by simp [enterRanges]
@[simp] theorem installGraph_otp (s : State) (gr : Graph) (m : Img) : (installGraph s gr m).mgt.otp = s.mgt.otp := by simp [installGraph]
@[simp] theorem State.removeGraph_otp (s : State) (g : Nat) : (s.removeGraph g).mgt.otp = s.mgt.otp := rfl
@[simp] theorem State.writeRecord_otp (s : State) : s.writeRecord.mgt.otp = s.mgt.otp := rfl

/-! #### CacheEngine -/

@[simp] theorem endArchive_otp (s : State) (j : ArchiveJob) : (endArchive s j).mgt.otp = s.mgt.otp := by
  unfold endArchive; split <;> simp
@[simp] theorem startArchive_otp (s : State) (q : Nat) (own : Option (Nat × Nat × Nat)) : (startArchive s q own).mgt.otp = s.mgt.otp := by
  simp [startArchive]
@[simp] theorem preempt_otp (s : State) (pa : PendingAppend) : (preempt s pa).mgt.otp = s.mgt.otp := by
  unfold preempt; dsimp only; (repeat' split) <;> simp
@[simp] theorem writeRuns_otp (s : State) (ws : List (Nat × List Byte)) (poison : Bool) : (writeRuns s ws poison).mgt.otp = s.mgt.otp := by
  simp [writeRuns]
@[simp] theorem stallAppend_otp (s : State) (pa : PendingAppend) (timeoutMs : Nat) : (stallAppend s pa timeoutMs).mgt.otp = s.mgt.otp := by
  simp [stallAppend]
@[simp] theorem endStall_otp (s : State) (pa : PendingAppend) : (endStall s pa).mgt.otp = s.mgt.otp := by
  unfold endStall; split <;> simp
@[simp] theorem runAppend_otp (s : State) (timeoutMs : Nat) (pa : PendingAppend) : (runAppend s timeoutMs pa).mgt.otp = s.mgt.otp := by
  unfold runAppend; dsimp only; (repeat' split) <;> simp

@[simp] theorem serveAppends_otp (s : State) : (serveAppends s).mgt.otp = s.mgt.otp := by
  unfold serveAppends
  refine foldl_otp _ _ _ fun s a => ?_
  split <;> simp

@[simp] theorem endFrameSeqs_otp (s : State) (g : Nat) (fr : Frame) (commit : Bool) : (endFrameSeqs s g fr commit).mgt.otp = s.mgt.otp := by
  simp [endFrameSeqs]
@[simp] theorem losePools_otp (s : State) (d : Nat) (alive : Nat → Bool) : (losePools s d alive).mgt.otp = s.mgt.otp := by simp [losePools]

/-! #### Graph -/

@[simp] theorem State.refuseLoad_otp (s : State) (p : Packet) (f : LoadFail) : (s.refuseLoad p f).mgt.otp = s.mgt.otp := by
  rw [State.refuseLoad, State.takeFinish_otp, State.setReg_mgt]
@[simp] theorem State.graphLoad_otp (s : State) (p : Packet) : (s.graphLoad p).mgt.otp = s.mgt.otp := by
  unfold State.graphLoad; dsimp only; (repeat' split) <;> simp

@[simp] theorem State.dropRequests_otp (s : State) (g code : Nat) : (s.dropRequests g code).mgt.otp = s.mgt.otp := by
  unfold State.dropRequests
  refine foldl_otp _ _ _ fun s r => ?_
  (repeat' split) <;> simp

@[simp] theorem State.graphUnload_otp (s : State) (p : Packet) : (s.graphUnload p).mgt.otp = s.mgt.otp := by
  unfold State.graphUnload; dsimp only; (repeat' split) <;> simp
@[simp] theorem State.putDone_otp (s : State) (id : Nat) : (s.putDone id).mgt.otp = s.mgt.otp := by
  unfold State.putDone; split <;> simp
@[simp] theorem State.releaseVersion_otp (s : State) (t : VersionThen) : (s.releaseVersion t).mgt.otp = s.mgt.otp := by
  unfold State.releaseVersion; split <;> simp
@[simp] theorem State.graphUnloadDone_otp (s : State) (g : Nat) : (s.graphUnloadDone g).mgt.otp = s.mgt.otp := by
  unfold State.graphUnloadDone; (repeat' split) <;> simp
@[simp] theorem State.request_otp (s : State) (p : Packet) (r : FrameReq) : (s.request p r).mgt.otp = s.mgt.otp := rfl
@[simp] theorem State.graphRun_otp (s : State) (p : Packet) : (s.graphRun p).mgt.otp = s.mgt.otp := by simp [State.graphRun]
@[simp] theorem State.seqStep_otp (s : State) (p : Packet) : (s.seqStep p).mgt.otp = s.mgt.otp := by simp [State.seqStep]
@[simp] theorem State.openFrame_otp (s : State) (gr : Graph) (r : FrameReq) (es : Option (List StepEntry)) :
    (s.openFrame gr r es).mgt.otp = s.mgt.otp := by
  unfold State.openFrame; (repeat' split) <;> simp
@[simp] theorem State.refuseStep_otp (s : State) (r : FrameReq) (es : List StepEntry) : (s.refuseStep r es).mgt.otp = s.mgt.otp := by
  unfold State.refuseStep; split <;> simp
@[simp] theorem State.frameAdmit_otp (s : State) (g : Nat) : (s.frameAdmit g).mgt.otp = s.mgt.otp := by
  unfold State.frameAdmit; (repeat' split) <;> simp
@[simp] theorem startLayer_otp (g f : Nat) (s : State) (a : AttnLayer) : (startLayer g f s a).mgt.otp = s.mgt.otp := by
  unfold startLayer; (repeat' split) <;> simp
@[simp] theorem writeLanes_otp (s : State) (g : Nat) (fr : Frame) (c : Nat) (a : AttnLayer) : (writeLanes s g fr c a).1.mgt.otp = s.mgt.otp := by
  simp [writeLanes]
@[simp] theorem State.cardParity_otp (s : State) (g station copy d : Nat) : (s.cardParity g station copy d).mgt.otp = s.mgt.otp := by
  unfold State.cardParity; split <;> simp
@[simp] theorem State.fire_otp (s : State) (g : Nat) (fr : Frame) (cd : Card) (copy : Nat) (pl : Place) (attn : List AttnLayer) :
    (s.fire g fr cd copy pl attn).mgt.otp = s.mgt.otp := by simp [State.fire]
@[simp] theorem State.stationFire_otp (s : State) (g f station copy : Nat) (attn : List AttnLayer) (parity : Bool) :
    (s.stationFire g f station copy attn parity).mgt.otp = s.mgt.otp := by
  unfold State.stationFire; (repeat' split) <;> simp
@[simp] theorem State.abortStation_otp (s : State) (g f station copy : Nat) : (s.abortStation g f station copy).mgt.otp = s.mgt.otp := by
  unfold State.abortStation; split <;> simp
@[simp] theorem State.stall_otp (s : State) (core source : Nat) : (s.stall core source).mgt.otp = s.mgt.otp := by simp [State.stall]
@[simp] theorem State.acceptTile_otp (s : State) (g : Nat) (e : Edge) (ei copy : Nat) (st : Stream) (t : Tile) (core : Nat) :
    (s.acceptTile g e ei copy st t core).mgt.otp = s.mgt.otp := by simp [State.acceptTile]
@[simp] theorem State.tileArrive_otp (s : State) (g ei copy : Nat) (hdr : List Byte) : (s.tileArrive g ei copy hdr).mgt.otp = s.mgt.otp := by
  unfold State.tileArrive; (repeat' split) <;> simp
@[simp] theorem State.creditReturn_otp (s : State) (g ei copy : Nat) : (s.creditReturn g ei copy).mgt.otp = s.mgt.otp := by
  unfold State.creditReturn; (repeat' split) <;> simp
@[simp] theorem State.tokenArrive_otp (s : State) (g ei copy : Nat) : (s.tokenArrive g ei copy).mgt.otp = s.mgt.otp := by
  unfold State.tokenArrive; split <;> simp
@[simp] theorem State.modVersion_otp (s : State) (p : VersionMove → Bool) (f : VersionMove → VersionMove) :
    (s.modVersion p f).mgt.otp = s.mgt.otp := rfl
@[simp] theorem State.versionUpdate_otp (s : State) (g b d : Nat) : (s.versionUpdate g b d).mgt.otp = s.mgt.otp := by
  unfold State.versionUpdate; dsimp only; split <;> simp
@[simp] theorem State.versionAck_otp (s : State) (g b d : Nat) : (s.versionAck g b d).mgt.otp = s.mgt.otp := by
  unfold State.versionAck; dsimp only; split <;> simp
@[simp] theorem State.versionTimeout_otp (s : State) (g b d : Nat) : (s.versionTimeout g b d).mgt.otp = s.mgt.otp := by
  unfold State.versionTimeout; split <;> simp
@[simp] theorem State.frameTimeout_otp (s : State) (g f : Nat) : (s.frameTimeout g f).mgt.otp = s.mgt.otp := by
  unfold State.frameTimeout; (repeat' split) <;> simp

/-! #### Cache -/

@[simp] theorem State.cacheEntry_otp (s : State) (link sq code : Nat) (op : State → State × Nat) (record : List Byte) (ho : s.sameOtp (op s).1) :
    (s.cacheEntry link sq code op record).mgt.otp = s.mgt.otp := by
  simp only [State.sameOtp_iff] at ho
  unfold State.cacheEntry
  split
  · rfl
  · split <;> simp [ho]

@[simp] theorem State.poolCreate_otp (s : State) (n : Nat) (p : Pool) : (s.poolCreate n p).1.mgt.otp = s.mgt.otp := by simp [State.poolCreate]
@[simp] theorem State.poolDestroy_otp (s : State) (n : Nat) : (s.poolDestroy n).1.mgt.otp = s.mgt.otp := by simp [State.poolDestroy]
@[simp] theorem State.openSeq_otp (s : State) (q pool priority layers window : Nat) :
    (s.openSeq q pool priority layers window).1.mgt.otp = s.mgt.otp := by simp [State.openSeq]

@[simp] theorem State.forkSeq_otp (s : State) (q parent p : Nat) : (s.forkSeq q parent p).1.mgt.otp = s.mgt.otp := by
  unfold State.forkSeq
  dsimp only
  split
  · split <;> simp [State.fresh]
  · rfl

@[simp] theorem State.bindSeq_otp (s : State) (q graph perFrame : Nat) : (s.bindSeq q graph perFrame).1.mgt.otp = s.mgt.otp := by
  simp [State.bindSeq]
@[simp] theorem State.copyBytes_otp (s : State) (rs : List (Nat × Nat × Nat)) : (s.copyBytes rs).mgt.otp = s.mgt.otp := by simp [State.copyBytes]
@[simp] theorem sealLayer_otp (q : Nat) (s : State) (layer : Nat) : (sealLayer q s layer).mgt.otp = s.mgt.otp := by
  unfold sealLayer; dsimp only; (repeat' split) <;> simp
@[simp] theorem State.sealSeq_otp (s : State) (q : Nat) : (s.sealSeq q).1.mgt.otp = s.mgt.otp := by simp [State.sealSeq]
@[simp] theorem State.closeSeq_otp (s : State) (q : Nat) : (s.closeSeq q).1.mgt.otp = s.mgt.otp := by simp [State.closeSeq]
@[simp] theorem State.setPriority_otp (s : State) (q priority : Nat) : (s.setPriority q priority).1.mgt.otp = s.mgt.otp := by
  simp [State.setPriority]
@[simp] theorem State.archiveSeq_otp (s : State) (q : Nat) : (s.archiveSeq q).1.mgt.otp = s.mgt.otp := by simp [State.archiveSeq]
@[simp] theorem State.cowDone_otp (s : State) (q layer index : Nat) : (s.cowDone q layer index).mgt.otp = s.mgt.otp := by
  unfold State.cowDone; split <;> simp
@[simp] theorem afterShelf_otp (s : State) (j : ArchiveJob) : (afterShelf s j).mgt.otp = s.mgt.otp := by
  unfold afterShelf; dsimp only; (repeat' split) <;> simp
@[simp] theorem State.archiveChunk_otp (s : State) (q : Nat) : (s.archiveChunk q).mgt.otp = s.mgt.otp := by
  unfold State.archiveChunk; (repeat' split) <;> simp
@[simp] theorem State.cacheExpired_otp (s : State) (g f : Nat) : (s.cacheExpired g f).mgt.otp = s.mgt.otp := by
  unfold State.cacheExpired; split <;> simp
@[simp] theorem State.abandon_otp (s : State) (q : Nat) : (s.abandon q).mgt.otp = s.mgt.otp := by simp [State.abandon]
@[simp] theorem State.endRestore_otp (s : State) (q : Nat) (data : List Byte) : (s.endRestore q data).1.mgt.otp = s.mgt.otp := by
  simp [State.endRestore]
@[simp] theorem State.restoreChunk_otp (s : State) (q : Nat) (b : List Byte) (j : RestoreJob) : (s.restoreChunk q b j).1.mgt.otp = s.mgt.otp := by
  unfold State.restoreChunk; dsimp only; split <;> simp
@[simp] theorem State.archiveIn_otp (s : State) (p : Packet) : (s.archiveIn p).mgt.otp = s.mgt.otp := by simp [State.archiveIn]

/-! #### RegOps -/

@[simp] theorem State.putReg_otp (s : State) (a : RegAddr) (v : Word) : (s.putReg a v).mgt.otp = s.mgt.otp := rfl

@[simp] theorem State.rwl_otp (s : State) (hub : Nat) (a : RegAddr) (act : State → State) (ha : s.sameOtp (act s)) :
    (s.rwl hub a act).mgt.otp = s.mgt.otp := by
  simp only [State.sameOtp_iff] at ha
  simp [State.rwl, ha]

@[simp] theorem State.w1c_otp (s : State) (a : RegAddr) (v : Word) : (s.w1c a v).mgt.otp = s.mgt.otp := by simp [State.w1c]

/-! #### Hbm -/

@[simp] theorem State.mcError_otp (s : State) (n bit a : Nat) : (s.mcError n bit a).mgt.otp = s.mgt.otp := by simp [State.mcError]
@[simp] theorem State.hbmCe_otp (s : State) (a : Nat) : (s.hbmCe a).mgt.otp = s.mgt.otp := by simp [State.hbmCe]
@[simp] theorem State.hbmUe_otp (s : State) (a : Nat) (cancelled : Bool) : (s.hbmUe a cancelled).mgt.otp = s.mgt.otp := by simp [State.hbmUe]
@[simp] theorem State.hbmWord_otp (s : State) (a : Nat) (hw : HbmHw) (cancelled : Bool) : (s.hbmWord a hw cancelled).mgt.otp = s.mgt.otp := by
  unfold State.hbmWord; (repeat' split) <;> simp
@[simp] theorem State.hbmRead_otp (s : State) (a : Nat) (hw : HbmHw) : (s.hbmRead a hw).mgt.otp = s.mgt.otp := by simp [State.hbmRead]
@[simp] theorem State.hbmWrite_otp (s : State) (a : Nat) (data : List Byte) (poison : Bool) : (s.hbmWrite a data poison).mgt.otp = s.mgt.otp := by
  simp [State.hbmWrite]
@[simp] theorem rehome_otp (g : Nat) (s : State) (bi : Nat) : (rehome g s bi).mgt.otp = s.mgt.otp := by
  unfold rehome; dsimp only; (repeat' split) <;> simp
@[simp] theorem loseBuffers_otp (lo hi : Nat) (s : State) (gr : Graph) : (loseBuffers lo hi s gr).mgt.otp = s.mgt.otp := by simp [loseBuffers]
@[simp] theorem State.loseMap_otp (s : State) (h : Nat) : (s.loseMap h).mgt.otp = s.mgt.otp := by simp [State.loseMap]
@[simp] theorem State.loseMaps_otp (s : State) (lo hi : Nat) : (s.loseMaps lo hi).mgt.otp = s.mgt.otp := by simp [State.loseMaps]
@[simp] theorem State.loseRange_otp (s : State) (lo hi die : Nat) : (s.loseRange lo hi die).mgt.otp = s.mgt.otp := by simp [State.loseRange]
@[simp] theorem State.loseSet_otp (s : State) (n set : Nat) : (s.loseSet n set).mgt.otp = s.mgt.otp := rfl
@[simp] theorem State.fenceSet_otp (s : State) (n p : Nat) : (s.fenceSet n p).mgt.otp = s.mgt.otp := by simp [State.fenceSet]
@[simp] theorem State.rowTest_otp (s : State) (n : Nat) : (s.rowTest n).mgt.otp = s.mgt.otp := by simp [State.rowTest]
@[simp] theorem State.retire_otp (s : State) (a : Nat) : (s.retire a).mgt.otp = s.mgt.otp := by simp [State.retire]
@[simp] theorem State.rowLasting_otp (s : State) (a : Nat) (spare : Bool) : (s.rowLasting a spare).mgt.otp = s.mgt.otp := by simp [State.rowLasting]
@[simp] theorem State.rowTestDone_otp (s : State) (n : Nat) (passed spare : Bool) : (s.rowTestDone n passed spare).mgt.otp = s.mgt.otp := by
  unfold State.rowTestDone; split <;> simp
@[simp] theorem State.caParity_otp (s : State) (n p drawn : Nat) : (s.caParity n p drawn).mgt.otp = s.mgt.otp := by simp [State.caParity]
@[simp] theorem State.hbmRefresh_otp (s : State) (n p : Nat) : (s.hbmRefresh n p).mgt.otp = s.mgt.otp := by simp [State.hbmRefresh]
@[simp] theorem State.refreshDown_otp (s : State) (n : Nat) : (s.refreshDown n).mgt.otp = s.mgt.otp := by
  unfold State.refreshDown; dsimp only; split <;> simp
@[simp] theorem State.patrolScrub_otp (s : State) (n : Nat) (hw : HbmHw) (overtaken : Bool) :
    (s.patrolScrub n hw overtaken).mgt.otp = s.mgt.otp := by simp [State.patrolScrub]
@[simp] theorem State.phyCalibration_otp (s : State) (n : Nat) : (s.phyCalibration n).mgt.otp = s.mgt.otp := by simp [State.phyCalibration]
@[simp] theorem State.rcUe_otp (s : State) (d : Nat) (l : RcLine) (bit : Nat) : (s.rcUe d l bit).mgt.otp = s.mgt.otp := by simp [State.rcUe]
@[simp] theorem State.rcStartFill_otp (s : State) (d a g b : Nat) : (s.rcStartFill d a g b).mgt.otp = s.mgt.otp := rfl
@[simp] theorem State.rcLookup_otp (s : State) (d a : Nat) (hw : RcHw) : (s.rcLookup d a hw).mgt.otp = s.mgt.otp := by
  unfold State.rcLookup; (repeat' split) <;> simp
@[simp] theorem State.rcFill_otp (s : State) (d a : Nat) : (s.rcFill d a).mgt.otp = s.mgt.otp := by
  unfold State.rcFill; (repeat' split) <;> simp
@[simp] theorem State.rcCtrl_otp (s : State) (hub d : Nat) (v : Word) : (s.rcCtrl hub d v).mgt.otp = s.mgt.otp := by simp [State.rcCtrl]

/-! #### PlanOps -/

@[simp] theorem State.modRound_otp (s : State) (h : Nat) (f : Round → Round) : (s.modRound h f).mgt.otp = s.mgt.otp := rfl
@[simp] theorem State.stagedBy_otp (s : State) (h e : Nat) : (s.stagedBy h e).mgt.otp = s.mgt.otp := by
  unfold State.stagedBy; split <;> simp
@[simp] theorem State.endRequest_otp (s : State) (q : PlanRequest) (status : Nat) (record : List Byte) :
    (s.endRequest q status record).mgt.otp = s.mgt.otp := by simp [State.endRequest]

@[simp] theorem State.losePlanner_otp (s : State) (h : Nat) : (s.losePlanner h).mgt.otp = s.mgt.otp := by
  unfold State.losePlanner
  dsimp only
  rw [foldl_otp, State.modPlanner_mgt, State.modRound_otp, State.withPln_otp, foldl_otp, State.withPln_otp]
  · (repeat' split) <;> simp
  · intro s y
    (repeat' split) <;> simp
  · simp

@[simp] theorem State.failHub_otp (s : State) (h : Nat) : (s.failHub h).mgt.otp = s.mgt.otp := by simp [State.failHub]

/-! #### Promise -/

@[simp] theorem State.lanRecord_otp (s : State) (l : Nat) (ev : Event) (detail : List Nat) : (s.lanRecord l ev detail).mgt.otp = s.mgt.otp := by
  simp [State.lanRecord]
@[simp] theorem State.lanLog_otp (s : State) (l : Nat) (ev : Event) (detail : List Nat) : (s.lanLog l ev detail).mgt.otp = s.mgt.otp := by
  simp [State.lanLog]
@[simp] theorem State.lanError_otp (s : State) (l bit : Nat) : (s.lanError l bit).mgt.otp = s.mgt.otp := by simp [State.lanError]
@[simp] theorem State.lanCondition_otp (s : State) (l bit : Nat) (on : Bool) : (s.lanCondition l bit on).mgt.otp = s.mgt.otp := by
  simp [State.lanCondition]
@[simp] theorem State.lanHoldExpiry_otp (s : State) (l bit : Nat) : (s.lanHoldExpiry l bit).mgt.otp = s.mgt.otp := by simp [State.lanHoldExpiry]
@[simp] theorem State.promiseCheck_otp (s : State) : s.promiseCheck.mgt.otp = s.mgt.otp := by simp [State.promiseCheck]
@[simp] theorem State.ratingsCheck_otp (s : State) : s.ratingsCheck.mgt.otp = s.mgt.otp := by simp [State.ratingsCheck]
@[simp] theorem State.ratingsExpiry_otp (s : State) (l : Nat) : (s.ratingsExpiry l).mgt.otp = s.mgt.otp := by
  unfold State.ratingsExpiry; split <;> simp

/-! #### Fences -/

@[simp] theorem State.markFenced_otp (s : State) (u : FenceUnit) : (s.markFenced u).mgt.otp = s.mgt.otp := rfl
@[simp] theorem State.markLifted_otp (s : State) (u : FenceUnit) : (s.markLifted u).mgt.otp = s.mgt.otp := rfl
@[simp] theorem State.withholdGraph_otp (s : State) (g : Nat) : (s.withholdGraph g).mgt.otp = s.mgt.otp := by
  unfold State.withholdGraph; split <;> simp
@[simp] theorem State.withholdWhere_otp (s : State) (p : Graph → Bool) : (s.withholdWhere p).mgt.otp = s.mgt.otp := by simp [State.withholdWhere]
@[simp] theorem State.fenceLink_otp (s : State) (d p : Nat) : (s.fenceLink d p).mgt.otp = s.mgt.otp := by
  unfold State.fenceLink; split <;> simp
@[simp] theorem State.forgetDie_otp (s : State) (d : Nat) : (s.forgetDie d).mgt.otp = s.mgt.otp := by simp [State.forgetDie]
@[simp] theorem State.fenceDieParts_otp (s : State) (d : Nat) : (s.fenceDieParts d).mgt.otp = s.mgt.otp := by simp [State.fenceDieParts]
@[simp] theorem State.moveState_otp (s : State) (g bi a : Nat) : (s.moveState g bi a).mgt.otp = s.mgt.otp := by
  unfold State.moveState; split <;> simp
@[simp] theorem moveStationState_otp (m : Img) (g : Nat) (s : State) (x : Card × Place) : (moveStationState m g s x).mgt.otp = s.mgt.otp := by
  unfold moveStationState; (repeat' split) <;> simp
@[simp] theorem State.moveStations_otp (s : State) (g : Nat) (places : List Place) : (s.moveStations g places).mgt.otp = s.mgt.otp := by
  unfold State.moveStations; split <;> simp
@[simp] theorem foldGraph_otp (s : State) (x : Nat × List Place × Bool) : (foldGraph s x).mgt.otp = s.mgt.otp := by
  unfold foldGraph; split <;> simp
@[simp] theorem State.startFold_otp (s : State) : s.startFold.mgt.otp = s.mgt.otp := by simp [State.startFold]
@[simp] theorem State.fenceUnit_otp (s : State) (u : FenceUnit) : (s.fenceUnit u).mgt.otp = s.mgt.otp := by
  unfold State.fenceUnit; (repeat' split) <;> simp
@[simp] theorem State.foldDone_otp (s : State) : s.foldDone.mgt.otp = s.mgt.otp := by simp [State.foldDone]

@[simp] theorem State.resetDie_otp (s : State) (d : Nat) : (s.resetDie d).mgt.otp = s.mgt.otp := by
  unfold State.resetDie
  dsimp only
  rw [State.withRecovery_otp, foldl_otp, State.modMc_mgt, State.modRc_mgt, State.setCache_otp, State.withRegs_otp, State.zeroStore_otp,
    State.zeroStore_otp]
  · simp
  · intro s p
    (repeat' split) <;> simp

@[simp] theorem State.replace_otp (s : State) : s.replace.mgt.otp = s.mgt.otp := by simp [State.replace]
@[simp] theorem State.liftFence_otp (s : State) (u : FenceUnit) : (s.liftFence u).mgt.otp = s.mgt.otp := by
  unfold State.liftFence; (repeat' split) <;> simp
@[simp] theorem State.passTimeout_otp (s : State) (c : Nat) : (s.passTimeout c).mgt.otp = s.mgt.otp := by
  unfold State.passTimeout; split <;> simp
@[simp] theorem State.stopForTest_otp (s : State) (c : Nat) : (s.stopForTest c).mgt.otp = s.mgt.otp := by simp [State.stopForTest]
@[simp] theorem State.startTest_otp (s : State) (u : Nat) : (s.startTest u).mgt.otp = s.mgt.otp := by
  unfold State.startTest; (repeat' split) <;> simp
@[simp] theorem State.lasting_otp (s : State) (u chunk : Nat) : (s.lasting u chunk).mgt.otp = s.mgt.otp := by simp [State.lasting]
@[simp] theorem State.glint_otp (s : State) (u : Nat) : (s.glint u).mgt.otp = s.mgt.otp := by simp [State.glint]
@[simp] theorem State.suspectDone_otp (s : State) (u : Nat) (passed : Bool) : (s.suspectDone u passed).mgt.otp = s.mgt.otp := by
  unfold State.suspectDone; dsimp only; (repeat' split) <;> simp
@[simp] theorem State.testDone_otp (s : State) (u : Nat) (failed : Option (Nat × Nat)) : (s.testDone u failed).mgt.otp = s.mgt.otp := by
  unfold State.testDone; (repeat' split) <;> simp
@[simp] theorem State.stallReport_otp (s : State) (p : Packet) : (s.stallReport p).mgt.otp = s.mgt.otp := by simp [State.stallReport]
@[simp] theorem State.returnHome_otp (s : State) (p : Packet) : (s.returnHome p).mgt.otp = s.mgt.otp := by
  unfold State.returnHome; dsimp only; (repeat' split) <;> simp
@[simp] theorem State.stateHome_otp (s : State) (g : Nat) : (s.stateHome g).mgt.otp = s.mgt.otp := by
  unfold State.stateHome; split <;> simp
@[simp] theorem State.returnHomeResume_otp (s : State) (g : Nat) : (s.returnHomeResume g).mgt.otp = s.mgt.otp := by
  unfold State.returnHomeResume; (repeat' split) <;> simp

/-! #### Fabric -/

@[simp] theorem State.deliver_otp (s : State) (d x y : Nat) (m : NetMsg) : (s.deliver d x y m).mgt.otp = s.mgt.otp := rfl
@[simp] theorem State.unreachableMsg_otp (s : State) (d : Nat) (m : NetMsg) : (s.unreachableMsg d m).mgt.otp = s.mgt.otp := by
  simp [State.unreachableMsg]
@[simp] theorem State.forward_otp (s : State) (d x y : Nat) (m : NetMsg) : (s.forward d x y m).mgt.otp = s.mgt.otp := by
  unfold State.forward; dsimp only; (repeat' split) <;> simp
@[simp] theorem State.meshRoute_otp (s : State) (d x y : Nat) (m : NetMsg) (parity : Bool) : (s.meshRoute d x y m parity).mgt.otp = s.mgt.otp := by
  simp [State.meshRoute]
@[simp] theorem State.readTimeout_otp (s : State) (d x y tag : Nat) : (s.readTimeout d x y tag).mgt.otp = s.mgt.otp := by
  unfold State.readTimeout; split <;> simp
@[simp] theorem State.meshTest_otp (s : State) (d : Fin 6) (passed : Bool) : (s.meshTest d passed).mgt.otp = s.mgt.otp := by simp [State.meshTest]
@[simp] theorem State.crcFail_otp (s : State) (d p : Nat) (same : Bool) : (s.crcFail d p same).mgt.otp = s.mgt.otp := by simp [State.crcFail]
@[simp] theorem State.linkDown_otp (s : State) (d p cause : Nat) : (s.linkDown d p cause).mgt.otp = s.mgt.otp := by
  unfold State.linkDown; split <;> simp
@[simp] theorem State.linkMarginal_otp (s : State) (d p : Nat) : (s.linkMarginal d p).mgt.otp = s.mgt.otp := by simp [State.linkMarginal]
@[simp] theorem State.reroute_otp (s : State) : s.reroute.mgt.otp = s.mgt.otp := by simp [State.reroute]
@[simp] theorem State.linkFence_otp (s : State) (d p : Nat) : (s.linkFence d p).mgt.otp = s.mgt.otp := by simp [State.linkFence]
@[simp] theorem State.modLinkEnds_otp (s : State) (d p : Nat) (f : PortState → PortState) : (s.modLinkEnds d p f).mgt.otp = s.mgt.otp := by
  unfold State.modLinkEnds; split <;> simp
@[simp] theorem State.loopback_otp (s : State) (d p : Nat) (passed : Bool) : (s.loopback d p passed).mgt.otp = s.mgt.otp := by
  unfold State.loopback; split <;> simp
@[simp] theorem State.exchangeFailed_otp (s : State) (d p : Nat) : (s.exchangeFailed d p).mgt.otp = s.mgt.otp := by simp [State.exchangeFailed]
@[simp] theorem State.widthWords_otp (s : State) (d p : Nat) (own peer : Word) : (s.widthWords d p own peer).mgt.otp = s.mgt.otp := by
  unfold State.widthWords; split <;> simp
@[simp] theorem State.sidebandTimeout_otp (s : State) (d p : Nat) : (s.sidebandTimeout d p).mgt.otp = s.mgt.otp := by simp [State.sidebandTimeout]
@[simp] theorem State.startPortTest_otp (s : State) (d p mode : Nat) : (s.startPortTest d p mode).mgt.otp = s.mgt.otp := by
  unfold State.startPortTest; split <;> simp

@[simp] theorem State.portTestDone_otp (s : State) (d errors : Nat) (lanesOk : Bool) : (s.portTestDone d errors lanesOk).mgt.otp = s.mgt.otp := by
  unfold State.portTestDone
  split
  · rfl
  · rw [State.setReg_mgt, State.modPort_mgt, State.modNet_mgt]

/-! #### HostLink -/

@[simp] theorem State.setupLock_otp (s : State) (v : Word) : (s.setupLock v).mgt.otp = s.mgt.otp := by simp [State.setupLock]
@[simp] theorem State.ringRefused_otp (s : State) (h ring : Nat) (a : RegAddr) (v : Word) : (s.ringRefused h ring a v).mgt.otp = s.mgt.otp := by
  simp [State.ringRefused]
@[simp] theorem State.writeSqCfg_otp (s : State) (h q : Nat) (v : Word) : (s.writeSqCfg h q v).mgt.otp = s.mgt.otp := by simp [State.writeSqCfg]
@[simp] theorem State.writeCqCfg_otp (s : State) (h q : Nat) (v : Word) : (s.writeCqCfg h q v).mgt.otp = s.mgt.otp := by simp [State.writeCqCfg]
@[simp] theorem State.writeRingAddr_otp (s : State) (h : Nat) (a : RegAddr) (enabled : Bool) (v : Word) :
    (s.writeRingAddr h a enabled v).mgt.otp = s.mgt.otp := by simp [State.writeRingAddr]
@[simp] theorem State.writeNoticeRing_otp (s : State) (h : Nat) (v : Word) : (s.writeNoticeRing h v).mgt.otp = s.mgt.otp := by
  simp [State.writeNoticeRing]
@[simp] theorem State.sqDoorbell_otp (s : State) (h q : Nat) (v : Word) : (s.sqDoorbell h q v).mgt.otp = s.mgt.otp := by simp [State.sqDoorbell]
@[simp] theorem State.cqDoorbell_otp (s : State) (h q : Nat) (v : Word) : (s.cqDoorbell h q v).mgt.otp = s.mgt.otp := by simp [State.cqDoorbell]
@[simp] theorem State.sqError_otp (s : State) (h q tag : Nat) : (s.sqError h q tag).mgt.otp = s.mgt.otp := by simp [State.sqError]
@[simp] theorem State.windowFault_otp (s : State) (h ring : Nat) : (s.windowFault h ring).mgt.otp = s.mgt.otp := by simp [State.windowFault]
@[simp] theorem State.startEntries_otp (s : State) (p : Packet) : (s.startEntries p).mgt.otp = s.mgt.otp := by
  unfold State.startEntries; split <;> simp
@[simp] theorem State.readPacket_otp (s : State) (p : Packet) : (s.readPacket p).mgt.otp = s.mgt.otp := by simp [State.readPacket]
@[simp] theorem State.fetch_otp (s : State) (h q : Nat) (header payload : List Byte) (hw : FetchHw) :
    (s.fetch h q header payload hw).mgt.otp = s.mgt.otp := by
  unfold State.fetch; split <;> simp
@[simp] theorem State.tailTimeout_otp (s : State) (h q : Nat) : (s.tailTimeout h q).mgt.otp = s.mgt.otp := by
  unfold State.tailTimeout; split <;> simp
@[simp] theorem State.sqRestart_otp (s : State) (h q : Nat) (v : Word) : (s.sqRestart h q v).mgt.otp = s.mgt.otp := by simp [State.sqRestart]
@[simp] theorem State.badType_otp (s : State) (h q : Nat) : (s.badType h q).mgt.otp = s.mgt.otp := by
  unfold State.badType; split <;> simp
@[simp] theorem State.writeCompletion_otp (s : State) (h q : Nat) (window : Bool) : (s.writeCompletion h q window).mgt.otp = s.mgt.otp := by
  unfold State.writeCompletion; split <;> simp
@[simp] theorem State.cqTimer_otp (s : State) (h q : Nat) : (s.cqTimer h q).mgt.otp = s.mgt.otp := by
  unfold State.cqTimer; split <;> simp
@[simp] theorem State.cqFull_otp (s : State) (h q : Nat) : (s.cqFull h q).mgt.otp = s.mgt.otp := by
  unfold State.cqFull; split <;> simp

/-! #### Packets -/

@[simp] theorem State.putMemory_otp (s : State) (p : Packet) : (s.putMemory p).mgt.otp = s.mgt.otp := by simp [State.putMemory]
@[simp] theorem State.tensorGet_otp (s : State) (p : Packet) : (s.tensorGet p).mgt.otp = s.mgt.otp := by simp [State.tensorGet]

@[simp] theorem State.configItem_otp (s : State) (link sq code : Nat) (f : State → List Byte → State × Nat) (hf : ∀ e, s.sameOtp (f s e).1) :
    (s.configItem link sq code f).mgt.otp = s.mgt.otp := by
  simp only [State.sameOtp_iff] at hf
  unfold State.configItem
  split
  · split <;> simp [hf]
  · rfl

@[simp] theorem State.lockedItem_otp (s : State) (e : List Byte) (lo hi : Nat) (f : State → State × Nat) (hf : s.sameOtp (f s).1) :
    (s.lockedItem e lo hi f).1.mgt.otp = s.mgt.otp := by
  simp only [State.sameOtp_iff] at hf
  simp [State.lockedItem, hf]

@[simp] theorem fitRatioItem_otp (s : State) (e : List Byte) : (fitRatioItem s e).1.mgt.otp = s.mgt.otp := by
  unfold fitRatioItem; dsimp only; split <;> simp
@[simp] theorem powerCapItem_otp (s : State) (e : List Byte) : (powerCapItem s e).1.mgt.otp = s.mgt.otp := by simp [powerCapItem]
@[simp] theorem State.setBoth_otp (s : State) (r : Reg) (u : Nat) (v : Word) (w : Nat) : (s.setBoth r u v w).mgt.otp = s.mgt.otp := rfl
@[simp] theorem groupItem_otp (r : Reg) (lo hi : Nat) (s : State) (e : List Byte) : (groupItem r lo hi s e).1.mgt.otp = s.mgt.otp := by
  refine State.lockedItem_otp _ _ _ _ _ ?_
  split <;> simp
@[simp] theorem selftestPeriodItem_otp (s : State) (e : List Byte) : (selftestPeriodItem s e).1.mgt.otp = s.mgt.otp := by simp [selftestPeriodItem]

/-! #### Intake -/

@[simp] theorem State.modStreamSt_otp (s : State) (h u : Nat) (f : StreamSt → StreamSt) : (s.modStreamSt h u f).mgt.otp = s.mgt.otp := rfl
@[simp] theorem State.modSinPort_otp (s : State) (h p : Nat) (f : PortSt → PortSt) : (s.modSinPort h p f).mgt.otp = s.mgt.otp := rfl
@[simp] theorem State.modSample_otp (s : State) (h id : Nat) (f : Sample → Sample) : (s.modSample h id f).mgt.otp = s.mgt.otp := rfl
@[simp] theorem State.endLast_otp (s : State) (h id : Nat) : (s.endLast h id).mgt.otp = s.mgt.otp := by
  unfold State.endLast; (repeat' split) <;> simp
@[simp] theorem State.logPlaceholder_otp (s : State) (h u kind : Nat) : (s.logPlaceholder h u kind).mgt.otp = s.mgt.otp := by
  simp [State.logPlaceholder]
@[simp] theorem State.reportBegin_otp (s : State) (h id : Nat) : (s.reportBegin h id).mgt.otp = s.mgt.otp := by
  unfold State.reportBegin; split <;> simp
@[simp] theorem State.reportEnd_otp (s : State) (h : Nat) (x : Sample) (kind : Kind) : (s.reportEnd h x kind).mgt.otp = s.mgt.otp := rfl
@[simp] theorem State.fillQueued_otp (s : State) (frames edges : List (Nat × Nat)) : (s.fillQueued frames edges).mgt.otp = s.mgt.otp := by
  simp [State.fillQueued]
@[simp] theorem State.place_otp (s : State) (h id : Nat) (kind : Kind) (wait : Bool) : (s.place h id kind wait).mgt.otp = s.mgt.otp := by
  unfold State.place; (repeat' split) <;> simp
@[simp] theorem State.endWait_otp (s : State) (h id : Nat) : (s.endWait h id).mgt.otp = s.mgt.otp := by
  unfold State.endWait; split <;> simp
@[simp] theorem State.placeOverflow_otp (s : State) (h id : Nat) (wait : Bool) : (s.placeOverflow h id wait).mgt.otp = s.mgt.otp := by
  unfold State.placeOverflow; split <;> simp
@[simp] theorem State.placePort_otp (s : State) (h id : Nat) : (s.placePort h id).mgt.otp = s.mgt.otp := by
  unfold State.placePort; split <;> simp
@[simp] theorem State.satField_otp (s : State) (a : RegAddr) (hi lo n : Nat) : (s.satField a hi lo n).mgt.otp = s.mgt.otp := rfl

@[simp] theorem State.readSpots_otp (s : State) (h u : Nat) (late : List Nat) : (s.readSpots h u late).1.mgt.otp = s.mgt.otp := by
  unfold State.readSpots
  refine foldl_fst_otp _ _ _ fun a b => ?_
  split <;> simp

@[simp] theorem State.beginSample_otp (s : State) (h u index : Nat) (late : List Nat) (host : Bool) :
    (s.beginSample h u index late host).1.mgt.otp = s.mgt.otp := by simp [State.beginSample]
@[simp] theorem State.beginPort_otp (s : State) (h u : Nat) (late : List Nat) : (s.beginPort h u late).1.mgt.otp = s.mgt.otp := by
  simp [State.beginPort]
@[simp] theorem State.queueTiles_otp (s : State) (g ei f : Nat) (ts : TileData) (poisoned : Bool) :
    (s.queueTiles g ei f ts poisoned).mgt.otp = s.mgt.otp := rfl

@[simp] theorem State.fillTiles_otp (s : State) (h u : Nat) (frames : List (Nat × Nat)) : (s.fillTiles h u frames).mgt.otp = s.mgt.otp := by
  unfold State.fillTiles
  split
  · rfl
  · refine foldl_otp _ _ _ fun s b => ?_
    dsimp only
    split <;> simp

@[simp] theorem State.sendBinding_otp (s : State) (h b f : Nat) (x : Sample) : (s.sendBinding h b f x).mgt.otp = s.mgt.otp := by
  unfold State.sendBinding
  dsimp only
  split
  · rw [State.queueTiles_otp]
  · split
    · rw [State.satReg_mgt, State.queueTiles_otp]
    · split
      · rw [State.queueTiles_otp, State.satReg_mgt, State.queueTiles_otp]
      · rw [State.satField_otp, State.satReg_mgt, State.queueTiles_otp, State.satReg_mgt, State.queueTiles_otp]

@[simp] theorem State.sendSample_otp (s : State) (h : Nat) (x : Sample) : (s.sendSample h x).mgt.otp = s.mgt.otp := by
  unfold State.sendSample
  refine foldl_otp _ _ _ fun s a => ?_
  split <;> simp

/-! #### Sensor -/

@[simp] theorem State.csiPacket_otp (s : State) (h p : Nat) (ecc : EccHw) : (s.csiPacket h p ecc).mgt.otp = s.mgt.otp := by simp [State.csiPacket]
@[simp] theorem State.openLost_otp (s : State) (h u : Nat) : (s.openLost h u).mgt.otp = s.mgt.otp := by
  unfold State.openLost; split <;> simp
@[simp] theorem State.csiStart_otp (s : State) (h p vc : Nat) (ecc : EccHw) (late : List Nat) :
    (s.csiStart h p vc ecc late).mgt.otp = s.mgt.otp := by
  unfold State.csiStart; split <;> simp
@[simp] theorem State.csiLong_otp (s : State) (h p vc dt : Nat) (bs : List Byte) (ecc : EccHw) (crcOk : Bool) :
    (s.csiLong h p vc dt bs ecc crcOk).mgt.otp = s.mgt.otp := by
  unfold State.csiLong; dsimp only; (repeat' split) <;> simp
@[simp] theorem State.csiEnd_otp (s : State) (h p vc : Nat) (ecc : EccHw) : (s.csiEnd h p vc ecc).mgt.otp = s.mgt.otp := by
  unfold State.csiEnd; dsimp only; (repeat' split) <;> simp
@[simp] theorem State.growSample_otp (s : State) (h id n : Nat) (f : Sample → Sample) : (s.growSample h id n f).mgt.otp = s.mgt.otp := by
  unfold State.growSample; split <;> simp
@[simp] theorem State.closeSample_otp (s : State) (h id : Nat) : (s.closeSample h id).mgt.otp = s.mgt.otp := by
  unfold State.closeSample; split <;> simp
@[simp] theorem State.addFragment_otp (s : State) (h u : Nat) (x : Sample) (last : Bool) (frameNo offset total : Nat) (body : List Byte) :
    (s.addFragment h u x last frameNo offset total body).mgt.otp = s.mgt.otp := by simp [State.addFragment]
@[simp] theorem State.fragment_otp (s : State) (h u : Nat) (bs : List Byte) (late : List Nat) : (s.fragment h u bs late).mgt.otp = s.mgt.otp := by
  unfold State.fragment; dsimp only; (repeat' split) <;> simp
@[simp] theorem State.endSweep_otp (s : State) (h u : Nat) : (s.endSweep h u).mgt.otp = s.mgt.otp := by
  unfold State.endSweep; split <;> simp
@[simp] theorem State.sweepLimit_otp (s : State) (h u id : Nat) : (s.sweepLimit h u id).mgt.otp = s.mgt.otp := by
  unfold State.sweepLimit; split <;> simp
@[simp] theorem State.openSweep_otp (s : State) (h u stamp : Nat) : (s.openSweep h u stamp).1.mgt.otp = s.mgt.otp := by
  unfold State.openSweep; split <;> simp
@[simp] theorem State.addRecord_otp (s : State) (h u : Nat) (d : List Byte) (stamp : Nat) (rec : List Byte) :
    (s.addRecord h u d stamp rec).mgt.otp = s.mgt.otp := by
  unfold State.addRecord; dsimp only; split <;> simp
@[simp] theorem State.checkSeq_otp (s : State) (h u id seq : Nat) : (s.checkSeq h u id seq).mgt.otp = s.mgt.otp := by
  unfold State.checkSeq; split <;> simp
@[simp] theorem State.pointPayload_otp (s : State) (h u : Nat) (bs : List Byte) : (s.pointPayload h u bs).mgt.otp = s.mgt.otp := by
  unfold State.pointPayload; dsimp only; split <;> simp
@[simp] theorem State.ethFrame_otp (s : State) (h e : Nat) (f : List Byte) (late : List Nat) : (s.ethFrame h e f late).mgt.otp = s.mgt.otp := by
  unfold State.ethFrame; dsimp only; (repeat' split) <;> simp
@[simp] theorem State.canFrame_otp (s : State) (h p : Nat) (r : CanRecord) : (s.canFrame h p r).mgt.otp = s.mgt.otp := by simp [State.canFrame]
@[simp] theorem State.canRecover_otp (s : State) (h p : Nat) : (s.canRecover h p).mgt.otp = s.mgt.otp := by simp [State.canRecover]
@[simp] theorem State.takePart_otp (s : State) (p : Packet) (id : Nat) : (s.takePart p id).mgt.otp = s.mgt.otp := by
  unfold State.takePart; dsimp only; (repeat' split) <;> simp
@[simp] theorem State.putSample_otp (s : State) (p : Packet) (late : List Nat) : (s.putSample p late).mgt.otp = s.mgt.otp := by
  unfold State.putSample; dsimp only; (repeat' split) <;> simp
@[simp] theorem State.decodeStart_otp (s : State) (h : Nat) : (s.decodeStart h).mgt.otp = s.mgt.otp := by
  unfold State.decodeStart; (repeat' split) <;> simp
@[simp] theorem State.decodeDone_otp (s : State) (h d cycles : Nat) : (s.decodeDone h d cycles).mgt.otp = s.mgt.otp := by
  unfold State.decodeDone; (repeat' split) <;> simp
@[simp] theorem State.decodeExpiry_otp (s : State) (h d : Nat) : (s.decodeExpiry h d).mgt.otp = s.mgt.otp := by
  unfold State.decodeExpiry; split <;> simp
@[simp] theorem State.intakeError_otp (s : State) (h u : Nat) : (s.intakeError h u).mgt.otp = s.mgt.otp := by
  unfold State.intakeError; dsimp only; split <;> simp
@[simp] theorem State.storeSweep_otp (s : State) (h : Nat) (x : Sample) : (s.storeSweep h x).mgt.otp = s.mgt.otp := by simp [State.storeSweep]
@[simp] theorem State.pixelPipeline_otp (s : State) (h u : Nat) (hw : IntakeHw) : (s.pixelPipeline h u hw).mgt.otp = s.mgt.otp := by
  unfold State.pixelPipeline; dsimp only; (repeat' split) <;> simp
@[simp] theorem State.reorderRelease_otp (s : State) (h u : Nat) : (s.reorderRelease h u).mgt.otp = s.mgt.otp := by
  unfold State.reorderRelease; split <;> simp
@[simp] theorem State.loseSamples_otp (s : State) (h u : Nat) : (s.loseSamples h u).mgt.otp = s.mgt.otp := by simp [State.loseSamples]
@[simp] theorem State.streamSilence_otp (s : State) (h u : Nat) : (s.streamSilence h u).mgt.otp = s.mgt.otp := by
  unfold State.streamSilence; split <;> simp
@[simp] theorem State.streamEnable_otp (s : State) (h u : Nat) (v : Word) : (s.streamEnable h u v).mgt.otp = s.mgt.otp := by
  simp [State.streamEnable]
@[simp] theorem State.streamDisable_otp (s : State) (h u : Nat) (v : Word) : (s.streamDisable h u v).mgt.otp = s.mgt.otp := by
  simp [State.streamDisable]
@[simp] theorem State.writeStream_otp (s : State) (h u : Nat) (v : Word) : (s.writeStream h u v).mgt.otp = s.mgt.otp := by simp [State.writeStream]
@[simp] theorem State.writeBinding_otp (s : State) (h b : Nat) (v : Word) : (s.writeBinding h b v).mgt.otp = s.mgt.otp := by
  simp [State.writeBinding]

/-! #### Prism -/

@[simp] theorem State.prismPoints_otp (s : State) (h l : Nat) (ps : PrismSet) (poisoned : Bool) :
    (s.prismPoints h l ps poisoned).mgt.otp = s.mgt.otp := by
  unfold State.prismPoints; dsimp only; split <;> simp
@[simp] theorem State.prismBev_otp (s : State) (h : Nat) (ps : PrismSet) (poisoned : Bool) : (s.prismBev h ps poisoned).mgt.otp = s.mgt.otp := by
  unfold State.prismBev; dsimp only; split <;> simp
@[simp] theorem State.prismRun_otp (s : State) (ps : PrismSet) (hw : IntakeHw) : (s.prismRun ps hw).mgt.otp = s.mgt.otp := by
  unfold State.prismRun; split <;> simp
@[simp] theorem State.prismEnable_otp (s : State) (h : Nat) (a : RegAddr) (v : Word) (bad : State → Bool) :
    (s.prismEnable h a v bad).mgt.otp = s.mgt.otp := by simp [State.prismEnable]
@[simp] theorem State.writeCamera_otp (s : State) (h c : Nat) (v : Word) : (s.writeCamera h c v).mgt.otp = s.mgt.otp := by simp [State.writeCamera]
@[simp] theorem State.writePoints_otp (s : State) (h l : Nat) (v : Word) : (s.writePoints h l v).mgt.otp = s.mgt.otp := by simp [State.writePoints]
@[simp] theorem State.writeBev_otp (s : State) (h : Nat) (v : Word) : (s.writeBev h v).mgt.otp = s.mgt.otp := by simp [State.writeBev]

/-! #### Align -/

@[simp] theorem State.modSet_otp (s : State) (g k : Nat) (f : FrameSet → FrameSet) : (s.modSet g k f).mgt.otp = s.mgt.otp := rfl
@[simp] theorem State.modMember_otp (s : State) (g k ps : Nat) (f : Member → Member) : (s.modMember g k ps f).mgt.otp = s.mgt.otp := rfl
@[simp] theorem State.settleRef_otp (s : State) (g : Nat) : (s.settleRef g).1.mgt.otp = s.mgt.otp := by
  unfold State.settleRef; split <;> simp
@[simp] theorem State.goAdrift_otp (s : State) (ps cause : Nat) (depart : Int) : (s.goAdrift ps cause depart).mgt.otp = s.mgt.otp := by
  simp [State.goAdrift]
@[simp] theorem State.fillSample_otp (s : State) (ps id : Nat) : (s.fillSample ps id).mgt.otp = s.mgt.otp := by
  unfold State.fillSample; dsimp only; split <;> simp
@[simp] theorem State.countConsistent_otp (s : State) (g ps : Nat) : (s.countConsistent g ps).mgt.otp = s.mgt.otp := rfl
@[simp] theorem State.judge_otp (s : State) (g k : Nat) (m : Member) : (s.judge g k m).mgt.otp = s.mgt.otp := by
  unfold State.judge; split <;> simp
@[simp] theorem State.judgeSet_otp (s : State) (g k : Nat) (atClose : Bool) : (s.judgeSet g k atClose).mgt.otp = s.mgt.otp := by
  unfold State.judgeSet; split <;> simp
@[simp] theorem State.createSet_otp (s : State) (g k : Nat) : (s.createSet g k).mgt.otp = s.mgt.otp := by simp [State.createSet]
@[simp] theorem State.dropSlot_otp (s : State) (g k : Nat) : (s.dropSlot g k).mgt.otp = s.mgt.otp := by simp [State.dropSlot]
@[simp] theorem State.noSet_otp (s : State) (ps id : Nat) (count : Option Reg) : (s.noSet ps id count).mgt.otp = s.mgt.otp := by
  unfold State.noSet; dsimp only; split <;> simp
@[simp] theorem State.setTau_otp (s : State) (g k : Nat) (m : Member) : (s.setTau g k m).mgt.otp = s.mgt.otp := by
  unfold State.setTau; split <;> simp
@[simp] theorem State.joinSet_otp (s : State) (g k ps : Nat) (r : SampleReport) : (s.joinSet g k ps r).mgt.otp = s.mgt.otp := by
  unfold State.joinSet; split <;> simp

@[simp] theorem State.alignError_otp (s : State) (h : Nat) : (s.alignError h).mgt.otp = s.mgt.otp := by
  unfold State.alignError
  dsimp only
  split
  · simp
  · rw [foldl_otp]
    · simp
    · refine fun s g => foldl_otp _ _ _ fun s i => ?_
      split <;> simp

@[simp] theorem State.beginReport_otp (s : State) (h : Nat) (hw : IntakeHw) : (s.beginReport h hw).mgt.otp = s.mgt.otp := by
  unfold State.beginReport; dsimp only; (repeat' split) <;> simp

theorem State.egoValue_otp {s t : State} {g k : Nat} {tau : Int} {e : EgoSignal} {v : F32} (h : s.egoValue g k tau e = some (t, v)) :
    t.mgt.otp = s.mgt.otp := by
  unfold State.egoValue at h
  dsimp only at h
  (repeat' split at h) <;> cases h <;> rfl

@[simp] theorem State.ego_otp (s : State) (g k : Nat) (tau : Int) : (s.ego g k tau).1.mgt.otp = s.mgt.otp := by
  unfold State.ego
  dsimp only
  split
  · next s2 w v h =>
    obtain ⟨⟨s1, w1⟩, h1, h2⟩ := Option.bind_eq_some_iff.mp h
    obtain ⟨⟨s2', v1⟩, h3, h4⟩ := Option.map_eq_some_iff.mp h2
    cases h4
    simp [State.egoValue_otp h3, State.egoValue_otp h1]
  · simp

@[simp] theorem State.addPair_otp (s : State) (m : Member) (tau : Int) : (s.addPair m tau).mgt.otp = s.mgt.otp := by simp [State.addPair]
@[simp] theorem State.addPairs_otp (s : State) (st : FrameSet) : (s.addPairs st).mgt.otp = s.mgt.otp := by simp [State.addPairs]
@[simp] theorem State.writeSetRecord_otp (s : State) (g : Nat) (st : FrameSet) (mask : Nat) : (s.writeSetRecord g st mask).mgt.otp = s.mgt.otp := by
  simp [State.writeSetRecord]
@[simp] theorem State.askFrames_otp (s : State) (g : Nat) (st : FrameSet) (mask : Nat) (invalid : Bool) :
    (s.askFrames g st mask invalid).mgt.otp = s.mgt.otp := rfl

@[simp] theorem State.closeSet_otp (s : State) (g k : Nat) (hw : IntakeHw) : (s.closeSet g k hw).mgt.otp = s.mgt.otp := by
  unfold State.closeSet
  dsimp only
  split
  · rw [State.judgeSet_otp]
  · rw [State.prismRun_otp, foldl_otp, foldl_otp, State.askFrames_otp, State.writeSetRecord_otp, State.wrapReg_mgt, State.setReg_mgt]
    all_goals simp

@[simp] theorem State.closeReady_otp (s : State) (g : Nat) (hw : IntakeHw) (n : Nat) : (s.closeReady g hw n).mgt.otp = s.mgt.otp := by
  induction n generalizing s with
  | zero => rfl
  | succ n ih => unfold State.closeReady; (repeat' split) <;> simp [ih]

@[simp] theorem State.completeReport_otp (s : State) (h : Nat) (hw : IntakeHw) : (s.completeReport h hw).mgt.otp = s.mgt.otp := by
  unfold State.completeReport; dsimp only; (repeat' split) <;> simp
@[simp] theorem State.setWaitExpiry_otp (s : State) (g : Nat) (hw : IntakeHw) : (s.setWaitExpiry g hw).mgt.otp = s.mgt.otp := by
  unfold State.setWaitExpiry; (repeat' split) <;> simp
@[simp] theorem State.closeAll_otp (s : State) (g : Nat) : (s.closeAll g).mgt.otp = s.mgt.otp := by simp [State.closeAll]
@[simp] theorem State.writeGroup_otp (s : State) (h g : Nat) (v : Word) : (s.writeGroup h g v).mgt.otp = s.mgt.otp := by simp [State.writeGroup]

@[simp] theorem State.invalidateSets_otp (s : State) : s.invalidateSets.mgt.otp = s.mgt.otp := by
  unfold State.invalidateSets
  refine foldl_otp _ _ _ fun s g => foldl_otp _ _ _ fun s st => ?_
  simp

/-! #### Checking -/

@[simp] theorem State.noteFrame_otp (s : State) (l g f : Nat) (k : LanFrame → LanFrame) : (s.noteFrame l g f k).mgt.otp = s.mgt.otp := by
  simp [State.noteFrame]
@[simp] theorem State.suspect_otp (s : State) (us : List Nat) (shadow : Option (Nat × Nat)) : (s.suspect us shadow).mgt.otp = s.mgt.otp := by
  simp [State.suspect]
@[simp] theorem State.disagree_otp (s : State) (g f : Nat) : (s.disagree g f).mgt.otp = s.mgt.otp := by
  unfold State.disagree; split <;> simp
@[simp] theorem State.checkerMismatch_otp (s : State) (l g f : Nat) (what : Failed) (us : List Nat) (shadow : Option (Nat × Nat)) :
    (s.checkerMismatch l g f what us shadow).mgt.otp = s.mgt.otp := by
  unfold State.checkerMismatch; dsimp only; (repeat' split) <;> simp

@[simp] theorem State.checkResult_otp (s : State) (g f : Nat) (ok : Bool) (what : Failed) (us : List Nat) (k : LanFrame → LanFrame) :
    (s.checkResult g f ok what us k).mgt.otp = s.mgt.otp := by
  unfold State.checkResult
  refine foldl_otp _ _ _ fun s a => ?_
  split <;> simp

/-! #### Merge -/

@[simp] theorem State.contradiction_otp (s : State) (h g f pair region value : Nat) :
    (s.contradiction h g f pair region value).mgt.otp = s.mgt.otp := by simp [State.contradiction]
@[simp] theorem State.bumpCounter_otp (s : State) (h g f pair region n : Nat) : (s.bumpCounter h g f pair region n).mgt.otp = s.mgt.otp := by
  simp [State.bumpCounter]

@[simp] theorem State.mergeRun_otp (s : State) (h f : Nat) : (s.mergeRun h f).mgt.otp = s.mgt.otp := by
  unfold State.mergeRun
  dsimp only
  split
  · rfl
  · split
    · rfl
    · split
      · rfl
      · split
        · rw [State.withhold_otp, State.modFrame_mgt]
        · rw [State.wrapReg_mgt, State.withAln_otp, foldl_otp, State.modFrame_mgt, State.writeMem_otp]
          simp

@[simp] theorem State.mergeDigestRx_otp (s : State) (f : Nat) (d : List Byte) : (s.mergeDigestRx f d).mgt.otp = s.mgt.otp := by
  unfold State.mergeDigestRx; dsimp only; split <;> simp

/-! #### Planner -/

@[simp] theorem State.writePlanner_otp (s : State) (h : Nat) (v : Word) : (s.writePlanner h v).mgt.otp = s.mgt.otp := by simp [State.writePlanner]
@[simp] theorem State.orderEdition_otp (s : State) (planners : Nat) (what : Staging) : (s.orderEdition planners what).1.mgt.otp = s.mgt.otp := rfl
@[simp] theorem State.editionOrder_otp (s : State) (h : Nat) : (s.editionOrder h).mgt.otp = s.mgt.otp := by
  unfold State.editionOrder; split <;> simp
@[simp] theorem State.editionToken_otp (s : State) (f : Nat) : (s.editionToken f).mgt.otp = s.mgt.otp := by
  unfold State.editionToken; dsimp only; (repeat' split) <;> simp
@[simp] theorem State.stageDone_otp (s : State) (h : Nat) : (s.stageDone h).mgt.otp = s.mgt.otp := by
  unfold State.stageDone; dsimp only; (repeat' split) <;> simp
@[simp] theorem State.mapDelta_otp (s : State) (p : Packet) : (s.mapDelta p).mgt.otp = s.mgt.otp := by simp [State.mapDelta]
@[simp] theorem State.mapRoadmap_otp (s : State) (p : Packet) : (s.mapRoadmap p).mgt.otp = s.mgt.otp := by
  unfold State.mapRoadmap; split <;> simp
@[simp] theorem State.planReq_otp (s : State) (p : Packet) : (s.planReq p).mgt.otp = s.mgt.otp := by simp [State.planReq]
@[simp] theorem State.sendCut_otp (s : State) (h : Nat) (r : Round) (k : CutKind) (v : Nat) : (s.sendCut h r k v).mgt.otp = s.mgt.otp := by
  simp [State.sendCut]
@[simp] theorem State.endRound_otp (s : State) (h : Nat) : (s.endRound h).mgt.otp = s.mgt.otp := rfl
@[simp] theorem State.loadWindow_otp (s : State) (h : Nat) (r : Round) (hdr : EditionHdr) : (s.loadWindow h r hdr).1.mgt.otp = s.mgt.otp := by
  simp [State.loadWindow]
@[simp] theorem State.beginRound_otp (s : State) (h : Nat) (r : Round) : (s.beginRound h r).mgt.otp = s.mgt.otp := by simp [State.beginRound]
@[simp] theorem State.unqueue_otp (s : State) (h : Nat) (q : PlanRequest) : (s.unqueue h q).mgt.otp = s.mgt.otp := rfl
@[simp] theorem State.roundStart_otp (s : State) (h : Nat) : (s.roundStart h).mgt.otp = s.mgt.otp := by
  unfold State.roundStart; dsimp only; (repeat' split) <;> simp
@[simp] theorem State.roundCut_otp (s : State) (h : Nat) : (s.roundCut h).mgt.otp = s.mgt.otp := by
  unfold State.roundCut; dsimp only; (repeat' split) <;> simp
@[simp] theorem State.planFault_otp (s : State) (h : Nat) : (s.planFault h).mgt.otp = s.mgt.otp := by
  unfold State.planFault; dsimp only; (repeat' split) <;> simp

@[simp] theorem State.planPhase_otp (s : State) (h : Nat) (ecc : EccHw) (ph : RoundPhase) (work : State → Round → State)
    (hw : ∀ (s : State) (r : Round), s.sameOtp (work s r)) : (s.planPhase h ecc ph work).mgt.otp = s.mgt.otp := by
  simp only [State.sameOtp_iff] at hw
  unfold State.planPhase
  (repeat' split) <;> simp [hw]

@[simp] theorem State.checkRoundEnd_otp (s : State) (h : Nat) (ecc : EccHw) : (s.checkRoundEnd h ecc).mgt.otp = s.mgt.otp := by
  refine State.planPhase_otp _ _ _ _ _ fun s r => ?_
  split <;> simp
@[simp] theorem State.recheckEnd_otp (s : State) (h : Nat) (ecc : EccHw) : (s.recheckEnd h ecc).mgt.otp = s.mgt.otp := by simp [State.recheckEnd]
@[simp] theorem State.wavefrontDone_otp (s : State) (h : Nat) (ecc : EccHw) : (s.wavefrontDone h ecc).mgt.otp = s.mgt.otp := by
  simp [State.wavefrontDone]
@[simp] theorem State.searchEnded_otp (s : State) (h : Nat) (r : Round) (e : Nat) : (s.searchEnded h r e).mgt.otp = s.mgt.otp := by
  simp [State.searchEnded]
@[simp] theorem State.searchEnd_otp (s : State) (h : Nat) (ecc : EccHw) : (s.searchEnd h ecc).mgt.otp = s.mgt.otp := by
  refine State.planPhase_otp _ _ _ _ _ fun s r => ?_
  split <;> simp
@[simp] theorem State.roundLimit_otp (s : State) (h expansions : Nat) : (s.roundLimit h expansions).mgt.otp = s.mgt.otp := by
  unfold State.roundLimit; (repeat' split) <;> simp
@[simp] theorem State.deliverPlan_otp (s : State) (g f : Nat) (t : TrajRecord) (rec : List Byte) (st : Nat) :
    (s.deliverPlan g f t rec st).mgt.otp = s.mgt.otp := rfl

@[simp] theorem State.countPlan_otp (s : State) (h : Nat) (r : Round) (t : TrajRecord) (st : Nat) (v : Reval) :
    (s.countPlan h r t st v).mgt.otp = s.mgt.otp := by
  unfold State.countPlan
  dsimp only
  split
  · rw [State.satReg_mgt, State.setReg_mgt, State.setReg_mgt, State.setReg_mgt, State.satReg_mgt, State.wrapReg_mgt,
      State.wrapReg_mgt]
  · split
    · rw [State.raise_mgt, State.satReg_mgt, State.setReg_mgt, State.setReg_mgt, State.setReg_mgt, State.satReg_mgt,
        State.wrapReg_mgt, State.wrapReg_mgt]
    · rw [State.setReg_mgt, State.setReg_mgt, State.setReg_mgt, State.satReg_mgt, State.wrapReg_mgt, State.wrapReg_mgt]

@[simp] theorem State.outputHandover_otp (s : State) (h : Nat) (ecc : EccHw) : (s.outputHandover h ecc).mgt.otp = s.mgt.otp := by
  refine State.planPhase_otp _ _ _ _ _ fun s r => ?_
  dsimp only
  (repeat' split) <;> simp

@[simp] theorem State.planDigestRx_otp (s : State) : s.planDigestRx.mgt.otp = s.mgt.otp := by
  unfold State.planDigestRx; dsimp only; (repeat' split) <;> simp

/-! #### FaultPins -/

@[simp] theorem State.assertFault_otp (s : State) (l cause graph : Nat) : (s.assertFault l cause graph).mgt.otp = s.mgt.otp := by
  simp [State.assertFault]
@[simp] theorem State.releaseFault_otp (s : State) (l : Nat) : (s.releaseFault l).mgt.otp = s.mgt.otp := by simp [State.releaseFault]
@[simp] theorem State.lanRelease_otp (s : State) (g : Nat) (ok : Bool) (l : Nat) : (s.lanRelease g ok l).mgt.otp = s.mgt.otp := by
  simp [State.lanRelease]
@[simp] theorem State.storeTrajectory_otp (s : State) (f : Nat) (rec : List Byte) (l : Nat) : (s.storeTrajectory f rec l).mgt.otp = s.mgt.otp := by
  simp [State.storeTrajectory]

/-! #### MirrorOps -/

@[simp] theorem State.mirSend_otp (s : State) (h kind cause : Nat) (block : List Byte) : (s.mirSend h kind cause block).mgt.otp = s.mgt.otp := by
  simp [State.mirSend]
@[simp] theorem State.sendExchange_otp (s : State) (g f status edition lat : Nat) (rec : List Byte) :
    (s.sendExchange g f status edition lat rec).mgt.otp = s.mgt.otp := by simp [State.sendExchange]
@[simp] theorem State.setLead_otp (s : State) (on : Bool) : (s.setLead on).mgt.otp = s.mgt.otp := by simp [State.setLead]
@[simp] theorem State.mirRaise_otp (s : State) (bit : Nat) : (s.mirRaise bit).mgt.otp = s.mgt.otp := by simp [State.mirRaise]
@[simp] theorem State.loseTwin_otp (s : State) (new : TwinSt) (cause : Nat) : (s.loseTwin new cause).mgt.otp = s.mgt.otp := by simp [State.loseTwin]
@[simp] theorem State.twinCheck_otp (s : State) : s.twinCheck.mgt.otp = s.mgt.otp := by
  unfold State.twinCheck; dsimp only; (repeat' split) <;> simp
@[simp] theorem State.twinRestore_otp (s : State) : s.twinRestore.mgt.otp = s.mgt.otp := by
  unfold State.twinRestore; split <;> simp
@[simp] theorem State.twinRelease_otp (s : State) (status : Nat) : (s.twinRelease status).mgt.otp = s.mgt.otp := by simp [State.twinRelease]

/-! #### Release -/

@[simp] theorem State.handOver_otp (s : State) (g f : Nat) : (s.handOver g f).mgt.otp = s.mgt.otp := by
  unfold State.handOver; (repeat' split) <;> simp
@[simp] theorem State.endSeqs_otp (s : State) (g : Nat) (fr : Frame) (ok : Bool) : (s.endSeqs g fr ok).mgt.otp = s.mgt.otp := by
  simp [State.endSeqs]
@[simp] theorem State.storeReleased_otp (s : State) (g : Nat) (fr : Frame) (ok : Bool) : (s.storeReleased g fr ok).mgt.otp = s.mgt.otp := by
  simp [State.storeReleased]
@[simp] theorem State.forgetFrame_otp (s : State) (g f : Nat) : (s.forgetFrame g f).mgt.otp = s.mgt.otp := rfl
@[simp] theorem State.releaseFrame_otp (s : State) (gr : Graph) (fr : Frame) : (s.releaseFrame gr fr).mgt.otp = s.mgt.otp := by
  unfold State.releaseFrame; dsimp only; (repeat' split) <;> simp
@[simp] theorem State.frameRelease_otp (s : State) (g : Nat) : (s.frameRelease g).mgt.otp = s.mgt.otp := by
  unfold State.frameRelease; (repeat' split) <;> simp
@[simp] theorem State.invalidateAll_otp (s : State) : s.invalidateAll.mgt.otp = s.mgt.otp := by simp [State.invalidateAll]

/-! #### Safe -/

@[simp] theorem State.lifeWrite_otp (s : State) : s.lifeWrite.mgt.otp = s.mgt.otp := by simp [State.lifeWrite]
@[simp] theorem State.thermalWord_otp (s : State) : s.thermalWord.mgt.otp = s.mgt.otp := by simp [State.thermalWord]
@[simp] theorem State.requestWarm_otp (s : State) (who : Nat) : (s.requestWarm who).mgt.otp = s.mgt.otp := by simp [State.requestWarm]
@[simp] theorem State.setPwrOff_otp (s : State) : s.setPwrOff.mgt.otp = s.mgt.otp := rfl
@[simp] theorem State.powerOff_otp (s : State) (l cause : Nat) : (s.powerOff l cause).mgt.otp = s.mgt.otp := by simp [State.powerOff]
@[simp] theorem State.lanternRequest_otp (s : State) (l : Nat) : (s.lanternRequest l).mgt.otp = s.mgt.otp := by simp [State.lanternRequest]
@[simp] theorem State.startDown_otp (s : State) (l cause : Nat) : (s.startDown l cause).mgt.otp = s.mgt.otp := by simp [State.startDown]
@[simp] theorem State.enterSafe_otp (s : State) (l cause graph : Nat) : (s.enterSafe l cause graph).mgt.otp = s.mgt.otp := by simp [State.enterSafe]
@[simp] theorem State.managerSafe_otp (s : State) : s.managerSafe.mgt.otp = s.mgt.otp := by simp [State.managerSafe]
@[simp] theorem State.safeEntry_otp (s : State) (source : Nat) : (s.safeEntry source).mgt.otp = s.mgt.otp := by
  unfold State.safeEntry; (repeat' split) <;> simp
@[simp] theorem State.faultsBeyond_otp (s s0 : State) : (s.faultsBeyond s0).mgt.otp = s.mgt.otp := by simp [State.faultsBeyond]

/-! #### Lantern -/

@[simp] theorem State.dropMessages_otp (s : State) (l : Nat) : (s.dropMessages l).mgt.otp = s.mgt.otp := rfl
@[simp] theorem State.lanternReset_otp (s : State) (l : Nat) : (s.lanternReset l).mgt.otp = s.mgt.otp := by simp [State.lanternReset]
@[simp] theorem State.lanternBoot_otp (s : State) (l : Nat) (c : LnfConfig) : (s.lanternBoot l c).mgt.otp = s.mgt.otp := by simp [State.lanternBoot]
@[simp] theorem State.lanternFail_otp (s : State) (l : Nat) : (s.lanternFail l).mgt.otp = s.mgt.otp := by simp [State.lanternFail]
@[simp] theorem State.lockstep_otp (s : State) (l : Nat) (k : LanternHw) : (s.lockstep l k).mgt.otp = s.mgt.otp := by
  unfold State.lockstep; (repeat' split) <;> simp
@[simp] theorem State.clockSplit_otp (s : State) : s.clockSplit.mgt.otp = s.mgt.otp := by simp [State.clockSplit]
@[simp] theorem State.peerEdge_otp (s : State) (l period : Nat) : (s.peerEdge l period).mgt.otp = s.mgt.otp := by simp [State.peerEdge]
@[simp] theorem State.peerTimeout_otp (s : State) (l : Nat) : (s.peerTimeout l).mgt.otp = s.mgt.otp := by simp [State.peerTimeout]
@[simp] theorem State.clockWindow_otp (s : State) (l : Nat) (ppm : Int) : (s.clockWindow l ppm).mgt.otp = s.mgt.otp := by simp [State.clockWindow]
@[simp] theorem State.mpHeard_otp (s : State) (l : Nat) : (s.mpHeard l).mgt.otp = s.mgt.otp := by simp [State.mpHeard]
@[simp] theorem State.mpSilent_otp (s : State) (l : Nat) : (s.mpSilent l).mgt.otp = s.mgt.otp := by
  unfold State.mpSilent; dsimp only; split <;> simp
@[simp] theorem State.mpLost_otp (s : State) (l : Nat) : (s.mpLost l).mgt.otp = s.mgt.otp := by
  unfold State.mpLost; split <;> simp
@[simp] theorem State.gatewayLoss_otp (s : State) (l : Nat) : (s.gatewayLoss l).mgt.otp = s.mgt.otp := by simp [State.gatewayLoss]
@[simp] theorem State.frameStart_otp (s : State) (l g f : Nat) (ok : Bool) : (s.frameStart l g f ok).mgt.otp = s.mgt.otp := by
  simp [State.frameStart]
@[simp] theorem State.countLate_otp (s : State) (l g f lat : Nat) : (s.countLate l g f lat).mgt.otp = s.mgt.otp := by simp [State.countLate]
@[simp] theorem State.giveVerdict_otp (s : State) (l : Nat) (gr : Graph) (f : Nat) : (s.giveVerdict l gr f).mgt.otp = s.mgt.otp := by
  simp [State.giveVerdict]
@[simp] theorem State.handoverRx_otp (s : State) (l g f : Nat) (ok : Bool) : (s.handoverRx l g f ok).mgt.otp = s.mgt.otp := by
  unfold State.handoverRx; dsimp only; (repeat' split) <;> simp
@[simp] theorem State.deadline_otp (s : State) (l g f : Nat) : (s.deadline l g f).mgt.otp = s.mgt.otp := by
  unfold State.deadline; (repeat' split) <;> simp
@[simp] theorem State.addCode_otp (s : State) (g f code : Nat) : (s.addCode g f code).mgt.otp = s.mgt.otp := rfl
@[simp] theorem State.verdictRx_otp (s : State) (l g f : Nat) : (s.verdictRx l g f).mgt.otp = s.mgt.otp := by
  unfold State.verdictRx; (repeat' split) <;> simp
@[simp] theorem State.verdictTimeout_otp (s : State) (l g f : Nat) : (s.verdictTimeout l g f).mgt.otp = s.mgt.otp := by
  unfold State.verdictTimeout; (repeat' split) <;> simp

@[simp] theorem State.signatureRx_otp (s : State) (l : Nat) : (s.signatureRx l).mgt.otp = s.mgt.otp := by
  unfold State.signatureRx
  split
  · rfl
  · dsimp only
    split <;> simp

@[simp] theorem State.envelopeCompare_otp (s : State) (h g f i : Nat) : (s.envelopeCompare h g f i).mgt.otp = s.mgt.otp := by
  unfold State.envelopeCompare; (repeat' split) <;> simp

@[simp] theorem State.envelopeRx_otp (s : State) (l : Nat) : (s.envelopeRx l).mgt.otp = s.mgt.otp := by
  unfold State.envelopeRx
  split
  · rfl
  · dsimp only
    (repeat' split) <;> simp

@[simp] theorem State.faultGap_otp (s : State) (l g : Nat) : (s.faultGap l g).mgt.otp = s.mgt.otp := by simp [State.faultGap]
@[simp] theorem State.outage_otp (s : State) (l g : Nat) : (s.outage l g).mgt.otp = s.mgt.otp := by simp [State.outage]

/-! #### LanternCan -/

@[simp] theorem State.canSend_otp (s : State) (l off : Nat) (data : List Byte) : (s.canSend l off data).mgt.otp = s.mgt.otp := rfl
@[simp] theorem State.statusEmit_otp (s : State) (l : Nat) : (s.statusEmit l).mgt.otp = s.mgt.otp := by simp [State.statusEmit]
@[simp] theorem State.trajEmit_otp (s : State) (l : Nat) : (s.trajEmit l).mgt.otp = s.mgt.otp := by simp [State.trajEmit]
@[simp] theorem State.recReq_otp (s : State) (l : Nat) (data : List Byte) : (s.recReq l data).mgt.otp = s.mgt.otp := by simp [State.recReq]

/-! #### SelfTest -/

@[simp] theorem State.grantWindow_otp (s : State) (l u us : Nat) : (s.grantWindow l u us).mgt.otp = s.mgt.otp := by simp [State.grantWindow]
@[simp] theorem State.chunkStart_otp (s : State) (u : Nat) : (s.chunkStart u).mgt.otp = s.mgt.otp := by simp [State.chunkStart]
@[simp] theorem State.chunkLeave_otp (s : State) (u : Nat) : (s.chunkLeave u).mgt.otp = s.mgt.otp := by simp [State.chunkLeave]
@[simp] theorem State.chunkDone_otp (s : State) (u : Nat) (passed : Bool) : (s.chunkDone u passed).mgt.otp = s.mgt.otp := by simp [State.chunkDone]
@[simp] theorem State.chunkAbort_otp (s : State) (u : Nat) : (s.chunkAbort u).mgt.otp = s.mgt.otp := by simp [State.chunkAbort]
@[simp] theorem State.unitPeriod_otp (s : State) (u : Nat) : (s.unitPeriod u).mgt.otp = s.mgt.otp := by simp [State.unitPeriod]
@[simp] theorem State.starveClear_otp (s : State) : s.starveClear.mgt.otp = s.mgt.otp := by simp [State.starveClear]
@[simp] theorem State.periodEnd_otp (s : State) (l : Nat) : (s.periodEnd l).mgt.otp = s.mgt.otp := by simp [State.periodEnd]

/-! #### Mirror -/

@[simp] theorem State.downSend_otp (s : State) (l : Nat) : (s.downSend l).mgt.otp = s.mgt.otp := by
  unfold State.downSend; split <;> simp
@[simp] theorem State.heartbeatSend_otp (s : State) (h : Nat) : (s.heartbeatSend h).mgt.otp = s.mgt.otp := by simp [State.heartbeatSend]
@[simp] theorem State.mirDrop_otp (s : State) (h : Nat) (crc : Bool) : (s.mirDrop h crc).mgt.otp = s.mgt.otp := by simp [State.mirDrop]
@[simp] theorem State.mirNote_otp (s : State) (h : Nat) (p : List Byte) : (s.mirNote h p).mgt.otp = s.mgt.otp := rfl
@[simp] theorem State.hearRole_otp (s : State) (p : List Byte) : (s.hearRole p).mgt.otp = s.mgt.otp := by simp [State.hearRole]

@[simp] theorem State.mirRx_otp (s : State) (h kind : Nat) (frame : List Byte) (fcsOk : Bool) (act : State → List Byte → State)
    (ha : ∀ p, s.sameOtp (act s p)) : (s.mirRx h kind frame fcsOk act).mgt.otp = s.mgt.otp := by
  simp only [State.sameOtp_iff] at ha
  unfold State.mirRx
  (repeat' split) <;> simp [ha]

@[simp] theorem State.heartbeatRx_otp (s : State) (h : Nat) (p : List Byte) : (s.heartbeatRx h p).mgt.otp = s.mgt.otp := by simp [State.heartbeatRx]
@[simp] theorem State.exchangeRx_otp (s : State) (h : Nat) (p : List Byte) : (s.exchangeRx h p).mgt.otp = s.mgt.otp := by
  unfold State.exchangeRx; split <;> simp
@[simp] theorem State.downRx_otp (s : State) (h : Nat) (p : List Byte) : (s.downRx h p).mgt.otp = s.mgt.otp := by simp [State.downRx]
@[simp] theorem State.roleTimeout_otp (s : State) : s.roleTimeout.mgt.otp = s.mgt.otp := by simp [State.roleTimeout]
@[simp] theorem State.mirLink_otp (s : State) (h : Nat) (up : Bool) : (s.mirLink h up).mgt.otp = s.mgt.otp := by simp [State.mirLink]

/-! #### Supply -/

@[simp] theorem State.bothLanterns_otp (s : State) (f : State → Nat → State) (hf : ∀ (s : State) (l : Nat), s.sameOtp (f s l)) :
    (s.bothLanterns f).mgt.otp = s.mgt.otp := foldl_otp f _ s hf
@[simp] theorem State.unitFault_otp (s : State) (u : FenceUnit) : (s.unitFault u).mgt.otp = s.mgt.otp := by simp [State.unitFault]
@[simp] theorem State.dieFault_otp (s : State) (d : Nat) : (s.dieFault d).mgt.otp = s.mgt.otp := by simp [State.dieFault]
@[simp] theorem State.loseKeeper_otp (s : State) (d : Nat) : (s.loseKeeper d).mgt.otp = s.mgt.otp := rfl
@[simp] theorem State.pgoodFall_otp (s : State) (r : Nat) : (s.pgoodFall r).mgt.otp = s.mgt.otp := by simp [State.pgoodFall]
@[simp] theorem State.pgoodRise_otp (s : State) (r : Nat) : (s.pgoodRise r).mgt.otp = s.mgt.otp := by simp [State.pgoodRise]

@[simp] theorem State.clockFault_otp (s : State) (d : Nat) (pll : Option (Fin 2)) : (s.clockFault d pll).mgt.otp = s.mgt.otp := by
  unfold State.clockFault
  split
  · rfl
  · split
    · split <;> simp
    · simp

@[simp] theorem State.railFails_otp (s : State) (r : Nat) : (s.railFails r).mgt.otp = s.mgt.otp := by simp [State.railFails]
@[simp] theorem State.avsRequest_otp (s : State) (r : Nat) (ack retryAck : Bool) : (s.avsRequest r ack retryAck).mgt.otp = s.mgt.otp := by
  simp [State.avsRequest]
@[simp] theorem State.startDvfs_otp (s : State) (k : Nat) : (s.startDvfs k).mgt.otp = s.mgt.otp := by simp [State.startDvfs]
@[simp] theorem State.startSteps_otp (s : State) : s.startSteps.mgt.otp = s.mgt.otp := by simp [State.startSteps]
@[simp] theorem State.dvfsDone_otp (s : State) (k : Nat) : (s.dvfsDone k).mgt.otp = s.mgt.otp := by
  unfold State.dvfsDone; split <;> simp
@[simp] theorem State.powerSample_otp (s : State) : s.powerSample.mgt.otp = s.mgt.otp := rfl
@[simp] theorem State.telemetry_otp (s : State) (r : Nat) (t : Option (Nat × Nat)) : (s.telemetry r t).mgt.otp = s.mgt.otp := by
  unfold State.telemetry; (repeat' split) <;> simp
@[simp] theorem State.overLimit_otp (s : State) : s.overLimit.mgt.otp = s.mgt.otp := by
  unfold State.overLimit; split <;> simp
@[simp] theorem State.lifeCheck_otp (s : State) : s.lifeCheck.mgt.otp = s.mgt.otp := by simp [State.lifeCheck]
@[simp] theorem State.lifePeriodic_otp (s : State) : s.lifePeriodic.mgt.otp = s.mgt.otp := by simp [State.lifePeriodic]
@[simp] theorem State.cycleSample_otp (s : State) : s.cycleSample.mgt.otp = s.mgt.otp := by simp [State.cycleSample]

/-! #### Thermal -/

@[simp] theorem State.thermalTrip_otp (s : State) (h : Nat) : (s.thermalTrip h).mgt.otp = s.mgt.otp := by simp [State.thermalTrip]
@[simp] theorem State.pwrOffRelease_otp (s : State) : s.pwrOffRelease.mgt.otp = s.mgt.otp := by
  unfold State.pwrOffRelease; split <;> simp
@[simp] theorem State.spotReports_otp (s : State) (h : Nat) (x : SpotState) : (s.spotReports h x).mgt.otp = s.mgt.otp := by simp [State.spotReports]
@[simp] theorem State.setSpot_otp (s : State) (h : Nat) (y : SpotState) : (s.setSpot h y).mgt.otp = s.mgt.otp := by simp [State.setSpot]
@[simp] theorem State.hotspot_otp (s : State) (h : Nat) (a b : Int) : (s.hotspot h a b).mgt.otp = s.mgt.otp := by simp [State.hotspot]
@[simp] theorem State.stackRefresh_otp (s : State) (n : Nat) : (s.stackRefresh n).mgt.otp = s.mgt.otp := by simp [State.stackRefresh]
@[simp] theorem State.diode_otp (s : State) (n : Nat) (v : Int) : (s.diode n v).mgt.otp = s.mgt.otp := by simp [State.diode]
@[simp] theorem State.readout_otp (s : State) (n : Nat) (v : Int) : (s.readout n v).mgt.otp = s.mgt.otp := by simp [State.readout]
@[simp] theorem State.setShade_otp (s : State) (level cause : Nat) : (s.setShade level cause).mgt.otp = s.mgt.otp := by simp [State.setShade]
@[simp] theorem State.flowLow_otp (s : State) : s.flowLow.mgt.otp = s.mgt.otp := by simp [State.flowLow]
@[simp] theorem State.flowLoss_otp (s : State) : s.flowLoss.mgt.otp = s.mgt.otp := by simp [State.flowLoss]
@[simp] theorem State.lossEnds_otp (s : State) : s.lossEnds.mgt.otp = s.mgt.otp := by simp [State.lossEnds]
@[simp] theorem State.noteFlow_otp (s : State) : s.noteFlow.mgt.otp = s.mgt.otp := rfl
@[simp] theorem State.flowLowClear_otp (s : State) : s.flowLowClear.mgt.otp = s.mgt.otp := by
  unfold State.flowLowClear; split <;> simp
@[simp] theorem State.lossExpiry_otp (s : State) (l : Nat) : (s.lossExpiry l).mgt.otp = s.mgt.otp := by
  unfold State.lossExpiry; split <;> simp
@[simp] theorem State.trayFail_otp (s : State) : s.trayFail.mgt.otp = s.mgt.otp := by simp [State.trayFail]
@[simp] theorem State.trayTake_otp (s : State) (inlet outlet : Int) (flow : Nat) (pump : Bool) :
    (s.trayTake inlet outlet flow pump).mgt.otp = s.mgt.otp := rfl
@[simp] theorem State.trayJudge_otp (s : State) : s.trayJudge.mgt.otp = s.mgt.otp := by simp [State.trayJudge]
@[simp] theorem State.trayRead_otp (s : State) (r : Option (Int × Int × Nat × Nat)) : (s.trayRead r).mgt.otp = s.mgt.otp := by
  unfold State.trayRead; (repeat' split) <;> simp
@[simp] theorem State.selectLevel_otp (s : State) (ps : List (List Nat)) : (s.selectLevel ps).mgt.otp = s.mgt.otp := by simp [State.selectLevel]
@[simp] theorem State.selectShade_otp (s : State) (ps : List (List Nat)) : (s.selectShade ps).mgt.otp = s.mgt.otp := by simp [State.selectShade]
@[simp] theorem State.refreshForecast_otp (s : State) : s.refreshForecast.mgt.otp = s.mgt.otp := by simp [State.refreshForecast]
@[simp] theorem State.slopeFit_otp (s : State) : s.slopeFit.mgt.otp = s.mgt.otp := by
  unfold State.slopeFit; dsimp only; (repeat' split) <;> simp
@[simp] theorem State.newEstimate_otp (s : State) (r : Int) : (s.newEstimate r).mgt.otp = s.mgt.otp := rfl
@[simp] theorem State.estimateTray_otp (s : State) : s.estimateTray.mgt.otp = s.mgt.otp := by simp [State.estimateTray]
@[simp] theorem State.estimateStep_otp (s : State) : s.estimateStep.mgt.otp = s.mgt.otp := by
  unfold State.estimateStep; split <;> simp
@[simp] theorem State.resistance_otp (s : State) : s.resistance.mgt.otp = s.mgt.otp := by simp [State.resistance]

/-! #### Images -/

@[simp] theorem State.slotChange_otp (s : State) (kind : Nat) (b : Bool) (f : Tbl Byte → Tbl Byte) :
    (s.slotChange kind b f).mgt.otp = s.mgt.otp := by simp [State.slotChange]
@[simp] theorem State.modSlot_otp (s : State) (kind : Nat) (f : SlotRec → SlotRec) : (s.modSlot kind f).mgt.otp = s.mgt.otp := rfl
@[simp] theorem State.refuseImage_otp (s : State) (h kind reason : Nat) : (s.refuseImage h kind reason).mgt.otp = s.mgt.otp := by
  simp [State.refuseImage]
@[simp] theorem State.fallBack_otp (s : State) (kind : Nat) : (s.fallBack kind).mgt.otp = s.mgt.otp := by simp [State.fallBack]
@[simp] theorem State.bootImage_otp (s : State) (h kind bad : Nat) (skip : Bool) : (s.bootImage h kind bad skip).1.mgt.otp = s.mgt.otp := by
  unfold State.bootImage; dsimp only; (repeat' split) <;> simp
@[simp] theorem State.promoteSlot_otp (s : State) (kind : Nat) : (s.promoteSlot kind).mgt.otp = s.mgt.otp := rfl
@[simp] theorem State.promoteAll_otp (s : State) : s.promoteAll.mgt.otp = s.mgt.otp := by simp [State.promoteAll]
@[simp] theorem State.measure_otp (s : State) (h kind : Nat) : (s.measure h kind).mgt.otp = s.mgt.otp := rfl
@[simp] theorem State.measureAll_otp (s : State) : s.measureAll.mgt.otp = s.mgt.otp := by simp [State.measureAll]

/-! #### Update -/

@[simp] theorem State.modUpdate_otp (s : State) (f : UpdateState → UpdateState) : (s.modUpdate f).mgt.otp = s.mgt.otp := rfl
@[simp] theorem State.abortUpdate_otp (s : State) : s.abortUpdate.mgt.otp = s.mgt.otp := by simp [State.abortUpdate]
@[simp] theorem State.startDie_otp (s : State) (d : Nat) : (s.startDie d).mgt.otp = s.mgt.otp := by simp [State.startDie]
@[simp] theorem State.nextTdie_otp (s : State) (d : Nat) : (s.nextTdie d).mgt.otp = s.mgt.otp := by
  unfold State.nextTdie; (repeat' split) <;> simp
@[simp] theorem State.dieReset_otp (s : State) (d : Fin 4) : (s.dieReset d).mgt.otp = s.mgt.otp := by simp [State.dieReset]
@[simp] theorem State.rejoin_otp (s : State) (d : Fin 4) : (s.rejoin d).mgt.otp = s.mgt.otp := by simp [State.rejoin]
@[simp] theorem State.dieRejoin_otp (s : State) (d : Fin 4) (digestOk bistOk : Bool) : (s.dieRejoin d digestOk bistOk).mgt.otp = s.mgt.otp := by
  unfold State.dieRejoin; split <;> simp
@[simp] theorem State.rejoinTimeout_otp (s : State) (d : Fin 4) : (s.rejoinTimeout d).mgt.otp = s.mgt.otp := by
  unfold State.rejoinTimeout; split <;> simp
@[simp] theorem State.startLantern_otp (s : State) (l : Nat) : (s.startLantern l).mgt.otp = s.mgt.otp := rfl
@[simp] theorem State.lanternRestart_otp (s : State) (l : Nat) (c : LnfConfig) : (s.lanternRestart l c).mgt.otp = s.mgt.otp := by
  simp [State.lanternRestart]
@[simp] theorem State.lanternTimeout_otp (s : State) (l : Nat) : (s.lanternTimeout l).mgt.otp = s.mgt.otp := by
  unfold State.lanternTimeout; split <;> simp
@[simp] theorem State.lanternSettle_otp (s : State) : s.lanternSettle.mgt.otp = s.mgt.otp := by simp [State.lanternSettle]

/-! #### Boot -/

@[simp] theorem State.powerOn_otp (s : State) : s.powerOn.mgt.otp = s.mgt.otp := rfl
@[simp] theorem State.porstAssert_otp (s : State) : s.porstAssert.mgt.otp = s.mgt.otp := by simp [State.porstAssert]
@[simp] theorem State.bootStop_otp (s : State) (ev : Event) (cause : Nat) : (s.bootStop ev cause).mgt.otp = s.mgt.otp := by simp [State.bootStop]
@[simp] theorem stepSupplies_otp (hw : BootHw) (s : State) : (stepSupplies hw s).1.mgt.otp = s.mgt.otp := rfl
@[simp] theorem stepLanterns_otp (hw : BootHw) (s : State) : (stepLanterns hw s).1.mgt.otp = s.mgt.otp := by simp [stepLanterns]

@[simp] theorem State.bootImages_otp (s : State) (hw : BootHw) (h : Nat) (kinds : List Nat) : (s.bootImages hw h kinds).1.mgt.otp = s.mgt.otp := by
  unfold State.bootImages
  refine foldl_fst_otp _ _ _ fun a k => ?_
  split <;> simp

@[simp] theorem stepMpf_otp (hw : BootHw) (s : State) : (stepMpf hw s).1.mgt.otp = s.mgt.otp := by simp [stepMpf]
@[simp] theorem State.netReset_otp (s : State) (h : Nat) : (s.netReset h).mgt.otp = s.mgt.otp := rfl
@[simp] theorem State.activate_otp (s : State) (h : Nat) : (s.activate h).mgt.otp = s.mgt.otp := rfl
@[simp] theorem State.hubStarts_otp (s : State) (h : Nat) : (s.hubStarts h).mgt.otp = s.mgt.otp := rfl
@[simp] theorem stepFirmware_otp (hw : BootHw) (s : State) : (stepFirmware hw s).1.mgt.otp = s.mgt.otp := by
  unfold stepFirmware; dsimp only; split <;> simp
@[simp] theorem State.bringUp_otp (s : State) (x : (Nat × Nat) × LinkHw) : (s.bringUp x).mgt.otp = s.mgt.otp := by
  unfold State.bringUp; dsimp only; split <;> simp
@[simp] theorem stepTraining_otp (hw : BootHw) (s : State) : (stepTraining hw s).1.mgt.otp = s.mgt.otp := by
  unfold stepTraining; split <;> simp
@[simp] theorem stepClasses_otp (hw : BootHw) (s : State) : (stepClasses hw s).1.mgt.otp = s.mgt.otp := by
  unfold stepClasses; split <;> simp
@[simp] theorem stepTdf_otp (hw : BootHw) (s : State) : (stepTdf hw s).1.mgt.otp = s.mgt.otp := by simp [stepTdf]
@[simp] theorem State.zeroStack_otp (s : State) (d : Nat) : (s.zeroStack d).mgt.otp = s.mgt.otp := rfl
@[simp] theorem State.trainStack_otp (s : State) (d : Nat) (hw : StackHw) : (s.trainStack d hw).1.mgt.otp = s.mgt.otp := by simp [State.trainStack]
@[simp] theorem State.bootFence_otp (s : State) (d : Nat) : (s.bootFence d).mgt.otp = s.mgt.otp := by simp [State.bootFence]
@[simp] theorem stepHbm_otp (hw : BootHw) (s : State) : (stepHbm hw s).1.mgt.otp = s.mgt.otp := by simp [stepHbm]
@[simp] theorem stepBist_otp (hw : BootHw) (s : State) : (stepBist hw s).1.mgt.otp = s.mgt.otp := by
  unfold stepBist; split <;> simp
@[simp] theorem stepMeasure_otp (hw : BootHw) (s : State) : (stepMeasure hw s).1.mgt.otp = s.mgt.otp := by simp [stepMeasure]
@[simp] theorem State.startUnits_otp (s : State) : s.startUnits.mgt.otp = s.mgt.otp := by simp [State.startUnits]
@[simp] theorem stepReady_otp (hw : BootHw) (s : State) : (stepReady hw s).1.mgt.otp = s.mgt.otp := by simp [stepReady]

theorem runSteps_otp {hw : BootHw} (l : List (Nat × BootStep)) (s : State) (hl : ∀ x ∈ l, ∀ s : State, s.sameOtp (x.2 hw s).1) :
    (runSteps hw l s).mgt.otp = s.mgt.otp := by
  induction l generalizing s with
  | nil => rfl
  | cons x l ih =>
    obtain ⟨n, f⟩ := x
    have hf (s : State) : (f hw s).1.mgt.otp = s.mgt.otp := hl (n, f) List.mem_cons_self s
    have ih (s : State) := ih s fun x hx => hl x (List.mem_cons_of_mem _ hx)
    simp [runSteps, ih, hf]

theorem coldSteps_sameOtp (hw : BootHw) : ∀ x ∈ coldSteps, ∀ s : State, s.sameOtp (x.2 hw s).1 := by simp [coldSteps]

@[simp] theorem runSteps_coldSteps_otp (hw : BootHw) (s : State) : (runSteps hw coldSteps s).mgt.otp = s.mgt.otp :=
  runSteps_otp coldSteps s (coldSteps_sameOtp hw)

@[simp] theorem runSteps_warmSteps_otp (hw : BootHw) (s : State) : (runSteps hw warmSteps s).mgt.otp = s.mgt.otp :=
  runSteps_otp warmSteps s fun x hx => coldSteps_sameOtp hw x (List.mem_of_mem_filter hx)

@[simp] theorem State.bootBegin_otp (s : State) (hw : BootHw) : (s.bootBegin hw).mgt.otp = s.mgt.otp := by simp [State.bootBegin]
@[simp] theorem State.porstRelease_otp (s : State) (hw : BootHw) : (s.porstRelease hw).mgt.otp = s.mgt.otp := by simp [State.porstRelease]
@[simp] theorem State.warmRequest_otp (s : State) (source : Nat) : (s.warmRequest source).mgt.otp = s.mgt.otp := by simp [State.warmRequest]
@[simp] theorem State.warmState_otp (s : State) : s.warmState.mgt.otp = s.mgt.otp := rfl
@[simp] theorem State.warmAssert_otp (s : State) : s.warmAssert.mgt.otp = s.mgt.otp := by simp [State.warmAssert]
@[simp] theorem State.emptyRegion_otp (s : State) (base : Nat) : (s.emptyRegion base).mgt.otp = s.mgt.otp := by
  simp only [State.emptyRegion, State.writeMem_otp]
@[simp] theorem State.setRegion_otp (s : State) (d base : Nat) : (s.setRegion d base).mgt.otp = s.mgt.otp := by
  unfold State.setRegion
  rw [State.withCache_otp, State.emptyRegion_otp, State.setReg_mgt, State.setReg_mgt]
@[simp] theorem restoreGraph_otp (s : State) (x : Nat × List Byte × List Byte) : (restoreGraph s x).mgt.otp = s.mgt.otp := by
  unfold restoreGraph; dsimp only; split <;> simp
@[simp] theorem restorePool_otp (s : State) (x : Nat × List Nat) : (restorePool s x).mgt.otp = s.mgt.otp := by simp [restorePool]
@[simp] theorem restoreSeq_otp (s : State) (x : Nat × List Nat × List Nat) : (restoreSeq s x).mgt.otp = s.mgt.otp := by simp [restoreSeq]
@[simp] theorem State.restore_otp (s : State) : s.restore.mgt.otp = s.mgt.otp := by
  unfold State.restore; split <;> simp
@[simp] theorem State.resumeThermal_otp (s : State) : s.resumeThermal.mgt.otp = s.mgt.otp := by simp [State.resumeThermal]
@[simp] theorem State.updateResumes_otp (s : State) : s.updateResumes.mgt.otp = s.mgt.otp := by simp [State.updateResumes]
@[simp] theorem State.warmEnd_otp (s : State) : s.warmEnd.mgt.otp = s.mgt.otp := by simp [State.warmEnd]
@[simp] theorem State.warmRestart_otp (s : State) (hw : BootHw) : (s.warmRestart hw).mgt.otp = s.mgt.otp := by simp [State.warmRestart]
@[simp] theorem State.restartRetry_otp (s : State) (l : Nat) : (s.restartRetry l).mgt.otp = s.mgt.otp := by
  unfold State.restartRetry; split <;> simp
@[simp] theorem State.pgoodTimeout_otp (s : State) (l : Nat) : (s.pgoodTimeout l).mgt.otp = s.mgt.otp := by simp [State.pgoodTimeout]

/-! #### Links -/

@[simp] theorem State.loseHostSamples_otp (s : State) (h : Nat) : (s.loseHostSamples h).mgt.otp = s.mgt.otp := by
  unfold State.loseHostSamples
  refine foldl_otp _ _ _ fun s a => ?_
  split <;> simp

@[simp] theorem State.newEpoch_otp (s : State) (l : Nat) : (s.newEpoch l).mgt.otp = s.mgt.otp := by simp [State.newEpoch]
@[simp] theorem State.flr_otp (s : State) (l : Nat) : (s.flr l).mgt.otp = s.mgt.otp := by simp [State.flr]
@[simp] theorem State.msixReset_otp (s : State) (l : Nat) : (s.msixReset l).mgt.otp = s.mgt.otp := rfl
@[simp] theorem State.perst_otp (s : State) (l : Nat) (low : Bool) (trained : Option (Nat × Nat)) :
    (s.perst l low trained).mgt.otp = s.mgt.otp := by simp [State.perst]

@[simp] theorem State.linkLoss_otp (s : State) (l : Nat) : (s.linkLoss l).mgt.otp = s.mgt.otp := by
  unfold State.linkLoss
  split
  · rfl
  · dsimp only
    rw [State.modLink_mgt, foldl_otp, State.withHif_otp, State.newEpoch_otp]
    intro s q
    rw [State.sameOtp, State.setField_mgt, State.setField_mgt]

/-! #### Active -/

@[simp] theorem State.primaryAbsent_otp (s : State) : s.primaryAbsent.mgt.otp = s.mgt.otp := by
  unfold State.primaryAbsent; dsimp only; split <;> simp
@[simp] theorem State.beatSend_otp (s : State) : s.beatSend.mgt.otp = s.mgt.otp := by simp [State.beatSend]
@[simp] theorem State.restartTests_otp (s : State) : s.restartTests.mgt.otp = s.mgt.otp := rfl
@[simp] theorem State.resumeLevel_otp (s : State) : s.resumeLevel.mgt.otp = s.mgt.otp := by
  unfold State.resumeLevel; split <;> simp
@[simp] theorem State.updateTaken_otp (s : State) : s.updateTaken.mgt.otp = s.mgt.otp := by simp [State.updateTaken]
@[simp] theorem State.takeOver_otp (s : State) : s.takeOver.mgt.otp = s.mgt.otp := by
  unfold State.takeOver; dsimp only; split <;> simp
@[simp] theorem State.takeoverRx_otp (s : State) (d : Nat) : (s.takeoverRx d).mgt.otp = s.mgt.otp := by
  unfold State.takeoverRx; split <;> simp
@[simp] theorem State.takeoverDone_otp (s : State) (l : Nat) : (s.takeoverDone l).mgt.otp = s.mgt.otp := by simp [State.takeoverDone]
@[simp] theorem State.demote_otp (s : State) (h : Nat) : (s.demote h).mgt.otp = s.mgt.otp := by simp [State.demote]
@[simp] theorem State.keeperRefresh_otp (s : State) : s.keeperRefresh.mgt.otp = s.mgt.otp := by simp [State.keeperRefresh]
@[simp] theorem State.notice_otp (s : State) (l : Nat) (e : Event) (bs : List Byte) : (s.notice l e bs).mgt.otp = s.mgt.otp := by
  simp [State.notice]
@[simp] theorem State.ledgerWrite_otp (s : State) (bad : List Nat) : (s.ledgerWrite bad).mgt.otp = s.mgt.otp := by
  unfold State.ledgerWrite; split <;> simp

/-! #### Vector -/

@[simp] theorem veDone_keepsOtp (s : State) (c : Nat) (w : IWord) (fo : Fmt) (n : Nat) (res : List (List Conv × Bool)) (ins : FitCounts)
    (ue : Option Nat) :
    (veDone s c w fo n res ins ue).keepsOtp s := rfl
@[simp] theorem veBinary_keepsOtp (op : VeOp) (s : State) (c : Nat) (w : IWord) : (veBinary op s c w).keepsOtp s := rfl
@[simp] theorem veFma_keepsOtp (s : State) (c : Nat) (w : IWord) : (veFma s c w).keepsOtp s := rfl
@[simp] theorem veBcast_keepsOtp (s : State) (c : Nat) (w : IWord) : (veBcast s c w).keepsOtp s := rfl
@[simp] theorem veSel_keepsOtp (s : State) (c : Nat) (w : IWord) : (veSel s c w).keepsOtp s := rfl
@[simp] theorem veCvt_keepsOtp (s : State) (c : Nat) (w : IWord) : (veCvt s c w).keepsOtp s := by simp [veCvt]
@[simp] theorem veReduce_keepsOtp (f : F32 → F32 → F32) (s : State) (c : Nat) (w : IWord) : (veReduce f s c w).keepsOtp s := rfl
@[simp] theorem veSfu_keepsOtp (s : State) (c : Nat) (w : IWord) : (veSfu s c w).keepsOtp s := rfl

/-! #### Attention -/

@[simp] theorem apQload_keepsOtp (s : State) (c : Nat) (w : IWord) : (apQload s c w).keepsOtp s := rfl
@[simp] theorem apPass_keepsOtp (s : State) (c : Nat) (w : IWord) : (apPass s c w).keepsOtp s := by simp [apPass]
@[simp] theorem apOut_keepsOtp (s : State) (c : Nat) (w : IWord) : (apOut s c w).keepsOtp s := by simp [apOut]

/-! #### Ikisan -/

@[simp] theorem State.mailboxReply_otp (s : State) (h : Nat) (m : IkMsg) (status : Nat) (body : List Byte) :
    (s.mailboxReply h m status body).mgt.otp = s.mgt.otp := by simp [State.mailboxReply]
@[simp] theorem State.answer_otp (s : State) (m : IkMsg) (status : Nat) (body : List Byte) : (s.answer m status body).mgt.otp = s.mgt.otp := by
  unfold State.answer; split <;> simp
@[simp] theorem State.intoInbox_otp (s : State) (m : IkMsg) : (s.intoInbox m).mgt.otp = s.mgt.otp := rfl
@[simp] theorem State.mgmtPacket_otp (s : State) (p : Packet) : (s.mgmtPacket p).mgt.otp = s.mgt.otp := by simp [State.mgmtPacket]
@[simp] theorem State.portReceive_otp (s : State) (h : Nat) (d : MgmtDatagram) : (s.portReceive h d).mgt.otp = s.mgt.otp := by
  unfold State.portReceive; (repeat' split) <;> simp
@[simp] theorem State.mailboxSend_otp (s : State) (h : Nat) (v : Word) : (s.mailboxSend h v).mgt.otp = s.mgt.otp := by simp [State.mailboxSend]

theorem State.takeMsg_otp {s t : State} {ok : IkMsg → Bool} {m : IkMsg} (h : s.takeMsg ok = some (m, t)) : t.mgt.otp = s.mgt.otp := by
  obtain ⟨x, -, hx⟩ := Option.map_eq_some_iff.mp h
  cases hx
  rfl

@[simp] theorem State.serve_otp (s : State) (t : Nat) (f : State → IkMsg → State) (hf : ∀ (s : State) (m : IkMsg), s.sameOtp (f s m)) :
    (s.serve t f).mgt.otp = s.mgt.otp := by
  unfold State.serve
  split
  · rfl
  · split
    · next m s1 h => exact (hf s1 m).trans (State.takeMsg_otp h)
    · rfl

@[simp] theorem State.serveEmpty_otp (s : State) (t : Nat) (f : State → List Byte) : (s.serveEmpty t f).mgt.otp = s.mgt.otp := by
  simp [State.serveEmpty]

@[simp] theorem State.badIkisan_otp (s : State) : s.badIkisan.mgt.otp = s.mgt.otp := by
  unfold State.badIkisan
  split
  · rfl
  · split
    · next m s1 h => simp [State.takeMsg_otp h]
    · rfl

@[simp] theorem State.flashRead_otp (s : State) (ue : Bool) : (s.flashRead ue).mgt.otp = s.mgt.otp := by simp [State.flashRead]
@[simp] theorem State.ledgerRead_otp (s : State) (ue : Bool) : (s.ledgerRead ue).mgt.otp = s.mgt.otp := by simp [State.ledgerRead]
@[simp] theorem State.stickyRead_otp (s : State) (ue : Bool) : (s.stickyRead ue).mgt.otp = s.mgt.otp := by simp [State.stickyRead]
@[simp] theorem State.eventNames_otp (s : State) : s.eventNames.mgt.otp = s.mgt.otp := by simp [State.eventNames]
@[simp] theorem State.calRead_otp (s : State) (ue : Bool) : (s.calRead ue).mgt.otp = s.mgt.otp := by simp [State.calRead]
@[simp] theorem State.debugChallenge_otp (s : State) : s.debugChallenge.mgt.otp = s.mgt.otp := by simp [State.debugChallenge]
@[simp] theorem State.nextIndex_otp (s : State) (writeOk : Bool) : (s.nextIndex writeOk).1.mgt.otp = s.mgt.otp := by simp [State.nextIndex]
@[simp] theorem State.attestAnswer_otp (s : State) (a : AttestFor) (status : Nat) (body : List Byte) :
    (s.attestAnswer a status body).mgt.otp = s.mgt.otp := by
  unfold State.attestAnswer; split <;> simp
@[simp] theorem State.signNext_otp (s : State) (writeOk : Bool) : (s.signNext writeOk).mgt.otp = s.mgt.otp := by
  unfold State.signNext; dsimp only; (repeat' split) <;> simp
@[simp] theorem State.attestPush_otp (s : State) (a : AttestFor) : (s.attestPush a).mgt.otp = s.mgt.otp := rfl
@[simp] theorem State.attestPacket_otp (s : State) (p : Packet) : (s.attestPacket p).mgt.otp = s.mgt.otp := by simp [State.attestPacket]
@[simp] theorem State.attestMessage_otp (s : State) : s.attestMessage.mgt.otp = s.mgt.otp := by simp [State.attestMessage]

/-! #### Control -/

@[simp] theorem State.authFail_otp (s : State) (m : IkMsg) : (s.authFail m).mgt.otp = s.mgt.otp := by simp [State.authFail]

/-- What serving a CONTROL message can do: nothing to the bits, or what its meaning does from a state with the same bits. -/

theorem State.control_cases (s : State) (t : Nat) (mine : IkMsg → Bool) (f : State → IkMsg → State) :
    s.sameOtp (s.control t mine f) ∨ ∃ u m, s.sameOtp u ∧ s.control t mine f = f u m := by
  unfold State.control
  split
  · exact .inl rfl
  · split
    · next m s1 h =>
      have h1 := State.takeMsg_otp h
      dsimp only
      split
      · exact .inl rfl
      · split
        · exact .inl (by simp [h1])
        · split
          · exact .inl (by simp [h1])
          · refine .inr ⟨_, _, ?_, rfl⟩
            exact h1
    · exact .inl rfl

@[simp] theorem State.control_otp (s : State) (t : Nat) (mine : IkMsg → Bool) (f : State → IkMsg → State)
    (hf : ∀ (s : State) (m : IkMsg), s.sameOtp (f s m)) : (s.control t mine f).mgt.otp = s.mgt.otp := by
  obtain h | ⟨u, m, h, e⟩ := s.control_cases t mine f
  · exact h
  · exact e ▸ (hf u m).trans h

@[simp] theorem State.keySet_otp (s : State) : s.keySet.mgt.otp = s.mgt.otp := by simp [State.keySet]
@[simp] theorem State.modUser_otp (s : State) (f : Tbl Byte → Tbl Byte) : (s.modUser f).mgt.otp = s.mgt.otp := by simp [State.modUser]
@[simp] theorem State.calWrite_otp (s : State) : s.calWrite.mgt.otp = s.mgt.otp := by simp [State.calWrite]
@[simp] theorem State.restoreFactory_otp (s : State) : s.restoreFactory.mgt.otp = s.mgt.otp := by simp [State.restoreFactory]
@[simp] theorem State.updateBegin_otp (s : State) : s.updateBegin.mgt.otp = s.mgt.otp := by simp [State.updateBegin]

@[simp] theorem State.updateData_otp (s : State) : s.updateData.mgt.otp = s.mgt.otp := by
  refine State.control_otp _ _ _ _ fun s m => ?_
  dsimp only
  (repeat' split) <;> simp

@[simp] theorem State.updateVerify_otp (s : State) : s.updateVerify.mgt.otp = s.mgt.otp := by
  refine State.control_otp _ _ _ _ fun s m => ?_
  dsimp only
  (repeat' split) <;> simp

@[simp] theorem State.beginActivation_otp (s : State) (scope kind : Nat) : (s.beginActivation scope kind).mgt.otp = s.mgt.otp := rfl
@[simp] theorem State.activateTdies_otp (s : State) : s.activateTdies.mgt.otp = s.mgt.otp := by simp [State.activateTdies]
@[simp] theorem State.activateLanterns_otp (s : State) : s.activateLanterns.mgt.otp = s.mgt.otp := by simp [State.activateLanterns]
@[simp] theorem State.plannedDown_otp (s : State) : s.plannedDown.mgt.otp = s.mgt.otp := by simp [State.plannedDown]
@[simp] theorem State.activateHubs_otp (s : State) : s.activateHubs.mgt.otp = s.mgt.otp := by simp [State.activateHubs]
@[simp] theorem State.resetMessage_otp (s : State) : s.resetMessage.mgt.otp = s.mgt.otp := by simp [State.resetMessage]
@[simp] theorem State.plannedStop_otp (s : State) : s.plannedStop.mgt.otp = s.mgt.otp := by simp [State.plannedStop]

/-! #### RegWrites -/

@[simp] theorem State.writeRegion_otp (s : State) (hub d : Nat) (v : Word) : (s.writeRegion hub d v).mgt.otp = s.mgt.otp := by
  refine State.rwl_otp _ _ _ _ ?_
  dsimp only
  split
  · rfl
  · split
    · rw [State.sameOtp, State.writeRecord_otp, State.setCache_otp, State.putReg_otp]
    · split
      · exact State.putReg_otp _ _ _
      · exact (State.writeRecord_otp _).trans (State.setRegion_otp _ _ _)

@[simp] theorem State.writeMirror_otp (s : State) (h : Nat) (v : Word) : (s.writeMirror h v).mgt.otp = s.mgt.otp := by simp [State.writeMirror]
@[simp] theorem State.writeMsix_otp (s : State) (a : RegAddr) (v : Word) : (s.writeMsix a v).mgt.otp = s.mgt.otp := by simp [State.writeMsix]
@[simp] theorem State.writeFitClear_otp (s : State) (c : Nat) (mgmt : Bool) (v : Word) : (s.writeFitClear c mgmt v).mgt.otp = s.mgt.otp := rfl
@[simp] theorem State.writePackage_otp (s : State) (h : Nat) (a : RegAddr) (v : Word) : (s.writePackage h a v).mgt.otp = s.mgt.otp := by
  simp [State.writePackage]
@[simp] theorem State.writeByType_otp (s : State) (h : Nat) (mgmt : Bool) (a : RegAddr) (v : Word) :
    (s.writeByType h mgmt a v).mgt.otp = s.mgt.otp := by
  unfold State.writeByType; split <;> simp
@[simp] theorem State.writeReg_otp (s : State) (h : Nat) (mgmt : Bool) (a : RegAddr) (v : Word) : (s.writeReg h mgmt a v).mgt.otp = s.mgt.otp := by
  unfold State.writeReg; (repeat' split) <;> simp
@[simp] theorem State.registerWrite_otp (s : State) (mgmt : Bool) (h o : Nat) (v : Word) : (s.registerWrite mgmt h o v).mgt.otp = s.mgt.otp := by
  unfold State.registerWrite; (repeat' split) <;> simp
@[simp] theorem State.badAccess_otp (s : State) (h o width : Nat) (write : Bool) : (s.badAccess h o width write).mgt.otp = s.mgt.otp := by
  simp [State.badAccess]
@[simp] theorem State.summaryRead_otp (s : State) (h : Nat) : (s.summaryRead h).mgt.otp = s.mgt.otp := rfl
@[simp] theorem State.packageWrite_otp (s : State) (h o : Nat) (v : Word) : (s.packageWrite h o v).mgt.otp = s.mgt.otp := by
  unfold State.packageWrite; split <;> simp

/-! ### The two commands that program bits -/

/-- Bits that are as before have gone no way but one. -/
theorem State.sameOtp.otpKept {s t : State} (h : s.sameOtp t) : s.otpKept t := by
  rw [State.sameOtp_iff] at h
  simp [State.otpKept, h]

/-- Only the bits of the first state matter to `otpKept`. -/
theorem State.sameOtp.trans_otpKept {s u t : State} (h : s.sameOtp u) (hk : u.otpKept t) : s.otpKept t := by
  rw [State.sameOtp_iff] at h
  simpa [State.otpKept, h] using hk

theorem State.control_otpKept (s : State) (t : Nat) (mine : IkMsg → Bool) (f : State → IkMsg → State)
    (hf : ∀ (s : State) (m : IkMsg), s.otpKept (f s m)) : s.otpKept (s.control t mine f) := by
  obtain h | ⟨u, m, h, e⟩ := s.control_cases t mine f
  · exact h.otpKept
  · exact e ▸ h.trans_otpKept (hf u m)

theorem mem_addNew_of_mem {α : Type} [DecidableEq α] {l : List α} {a b : α} (h : a ∈ l) : a ∈ addNew l b := by
  unfold addNew; split <;> simp [h]

theorem mem_foldl_addNew_of_mem {α : Type} [DecidableEq α] {l : List α} {a : α} (new : List α) (h : a ∈ l) : a ∈ new.foldl addNew l := by
  induction new generalizing l with
  | nil => exact h
  | cons b new ih => exact ih (mem_addNew_of_mem h)

/-- R484: UPDATE_COMMIT raises a floor and adds to the revoked slots. -/
theorem State.updateCommit_otpKept (s : State) : s.otpKept s.updateCommit := by
  refine State.control_otpKept _ _ _ _ fun s m => ?_
  dsimp only
  split
  · exact State.sameOtp.otpKept (by simp)
  · split
    · exact State.sameOtp.otpKept (by simp)
    · refine ⟨?_, ?_, fun k hk => ?_, fun k => ?_⟩
      · simp
      · simp
      · simpa using mem_foldl_addNew_of_mem _ hk
      · rw [State.answer_otp, tblGet_set]
        split
        · next h => exact h ▸ le_max_left ..
        · exact le_rfl

/-- R3, R492: opening debug blows the debugged fuse and programs nothing else. -/
@[simp] theorem State.openDebug_otp (s : State) (scopes : Nat) : (s.openDebug scopes).mgt.otp = { s.mgt.otp with debugged := true } := by
  simp [State.openDebug]

theorem State.debugUnlock_otpKept (s : State) : s.otpKept s.debugUnlock := by
  refine State.control_otpKept _ _ _ _ fun s m => ?_
  dsimp only
  split
  · simp [State.otpKept]
  · split <;> simp [State.otpKept]

/-! ### Every command -/

/-- An outcome that goes on leaves the bits alone. -/
def keepsOtp (s : State) : Host.Outcome State Fault Refusal → Prop
  | .next t => t.mgt.otp = s.mgt.otp
  | _ => True

@[simp] theorem keepsOtp_next (s t : State) : keepsOtp s (.next t) ↔ t.mgt.otp = s.mgt.otp := Iff.rfl
@[simp] theorem keepsOtp_fault (s : State) (f : Fault) : keepsOtp s (.fault f) := trivial
@[simp] theorem keepsOtp_ite (s : State) (c : Prop) [Decidable c] (a b : Host.Outcome State Fault Refusal) :
    keepsOtp s (if c then a else b) ↔ if c then keepsOtp s a else keepsOtp s b := by split <;> rfl

/-- Every other command leaves the bits alone. -/
theorem exec_keepsOtp (c : Instr) (s : State) (hc : c ≠ .updateCommit) (hd : c ≠ .debugUnlock) : keepsOtp s (exec c s) := by
  cases c with
  | updateCommit => exact absurd rfl hc
  | debugUnlock => exact absurd rfl hd
  | graphLoad | graphUnload | graphRun | stallReport | returnHome | seqStep | archiveIn | tensorPutMemory | tensorPutSample | tensorGet
  | mapEditionDelta | mapEditionRoadmap | planReq | nop | mgmt | prismStreamEnable =>
    change keepsOtp s (.next _)
    dsimp only [keepsOtp]
    split <;> simp
  | attest =>
    change keepsOtp s (.next _)
    dsimp only [keepsOtp]
    (repeat' split) <;> simp
  | sqFetch link sq header payload hw =>
    change keepsOtp s (execSqFetch link sq header payload hw s)
    simp [execSqFetch]
  | lanternResetRelease lantern config =>
    change keepsOtp s (execLanternResetRelease lantern config s)
    simp [execLanternResetRelease]
  | _ => change keepsOtp s (.next _); simp

theorem exec_otpKept (c : Instr) (s t : State) (h : exec c s = .next t) : s.otpKept t := by
  by_cases hc : c = .updateCommit
  · cases hc; cases h
    exact s.updateCommit_otpKept
  · by_cases hd : c = .debugUnlock
    · cases hd; cases h
      exact s.debugUnlock_otpKept
    · have hk := exec_keepsOtp c s hc hd
      rw [h] at hk
      exact State.sameOtp.otpKept hk

theorem step_otpKept (s t : State) (h : step s = .next t) : s.otpKept t := by
  unfold step at h
  split at h
  · cases h
    exact State.sameOtp.otpKept rfl
  · next c rest _ => exact exec_otpKept c { s with pending := rest } t h

/-! ### The unlock and the promise -/

/-- R478: a CONTROL message that is accepted, of the type served and not turned away by an activation, is given to its meaning. -/
theorem State.control_of_takesControl {s u : State} {type : Nat} {m : IkMsg} {mine : IkMsg → Bool} (f : State → IkMsg → State)
    (h : s.takesControl type m u) (hm : mine m = true) (ha : s.activating = false) : s.control type mine f = f u m := by
  obtain ⟨hmanaged, hauth, htype, rest, htake, rfl⟩ := h
  have htaken : s.takeMsg (fun m => controlType m.type) = some (m, { s with mgt := { s.mgt with inbox := rest } }) := by
    rw [State.takeMsg, htake, Option.map_some]
  have hauth' : { s with mgt := { s.mgt with inbox := rest } }.authentic m = true := hauth
  have hactive : { s with mgt := { s.mgt with inbox := rest, counter := max s.mgt.counter m.counter } }.activating = false := ha
  simp [State.control, hmanaged, htaken, htype, hm, hauth', hactive]

/-- R492: a valid token on an AE32-AQ blows the debugged fuse. -/
theorem execDebugUnlock_debugged {s u : State} {m : IkMsg} (h : s.takesControl 0x1A m u) (ha : s.activating = false)
    (ho : s.mgt.otp.ordering = 1) (hk : s.tokenOk m.body = true) : ∃ t, exec .debugUnlock s = .next t ∧ t.mgt.otp.debugged = true := by
  refine ⟨_, congrArg Host.Outcome.next (State.control_of_takesControl _ h rfl ha), ?_⟩
  obtain ⟨-, -, -, rest, -, rfl⟩ := h
  have hk' : { s with mgt := { s.mgt with inbox := rest, counter := max s.mgt.counter m.counter } }.tokenOk m.body = true := hk
  simp [ho, hk']

theorem b2n_le_one (b : Bool) : b2n b ≤ 1 := by cases b <;> decide

theorem bitN_of_lt {v i : Nat} (h : v < 2 ^ i) : bitN v i = false := by simp [bitN, Nat.div_eq_of_lt h]

/-- R409: without the field of the debugged fuse LAN_PROMISE does not come to 62, so holds is clear. -/
theorem State.promiseHolds_of_debugged {s : State} (h : s.mgt.otp.debugged = true) (l : Nat) : s.promiseHolds l = false := by
  refine bitN_of_lt ?_
  have hlocked := b2n_le_one s.hif.locked
  have hchecked := b2n_le_one s.allChecked
  have hstarved := b2n_le_one s.notStarved
  have hratings := b2n_le_one (s.lantern l).withinRatings
  have hfuse : b2n (!s.mgt.otp.debugged) = 0 := by rw [h]; rfl
  unfold State.promise
  dsimp only
  split
  · omega
  · rw [if_neg (by omega)]
    omega

/-- Settles O59: OTP is programmed by UPDATE_COMMIT and DEBUG_UNLOCK only, and each programs one way. -/
theorem otpGoesOneWay : Obligations.otpGoesOneWay := by
  unfold Obligations.otpGoesOneWay
  exact ⟨fun _ _ _ => execDebugUnlock_debugged, step_otpKept, fun _ => State.promiseHolds_of_debugged⟩

end Sys2Proof.Machine
end

section
/-! SUPPORT. The lock of the set-up registers (R251): what a locked write to an RWL register does (R11), register by register, and which functions
of the model leave `hif.locked`, one lemma a function and in the order of the model's files; from them O1. -/

namespace Sys2Proof.Machine

/-! ### The lock and what both links show (R251, R275) -/

theorem State.setupLock_magic (s : State) (h : s.hif.hostReady = true) :
    s.setupLock 0x00004C4B = { s with hif := { s.hif with locked := true } } := if_pos ⟨h, rfl⟩

theorem State.setupLock_other (s : State) {v : Word} (h : v ≠ 0x00004C4B) : s.setupLock v = s :=
  if_neg fun hv => h (BitVec.eq_of_toNat_eq hv.2)

theorem Stage.code_lt (x : Stage) : x.code < 16 := by cases x <;> decide

/-- R275: bit 8 of HIF_STATUS is locked, whichever hub's register is read. -/
theorem State.hifStatus_locked (s : State) (h : Nat) : bitN (s.hifStatus h) 8 = s.hif.locked := by
  have hstage := s.hif.stage.code_lt
  have hready := b2n_le_one s.hif.hostReady
  have hlocked := b2n_le_one s.hif.locked
  have hbit : s.hifStatus h / 2 ^ 8 % 2 = b2n s.hif.locked := by
    unfold State.hifStatus
    dsimp only
    omega
  rw [bitN, hbit]
  cases s.hif.locked <;> rfl

/-! ### A locked write to an RWL register (R11) -/

/-- `t` is what a write that the lock refuses leaves: setup_locked of the writing link and SETUP_LOCKED with one register as its detail. -/
def State.refusesLocked (s : State) (h : Nat) (t : State) : Prop := ∃ k, t = (s.raise .HIF h 6).log .SETUP_LOCKED 0xFF [k]

section
variable {s : State} (hready : s.hif.hostReady = true) (hlocked : s.hif.locked = true)
include hready hlocked

theorem State.rwl_refusesLocked (h : Nat) (a : RegAddr) (act : State → State) : s.refusesLocked h (s.rwl h a act) :=
  ⟨a.key, by rw [State.rwl, if_neg (not_not_intro hready), if_pos hlocked]⟩

theorem State.writeStream_refusesLocked (h u : Nat) (v : Word) : s.refusesLocked h (s.writeStream h u v) := by
  have hrwl := State.rwl_refusesLocked hready hlocked h
  unfold State.writeStream State.streamEnable State.streamDisable
  split
  · exact hrwl _ _
  · exact hrwl _ _

theorem State.writePackage_refusesLocked (h : Nat) (a : RegAddr) (v : Word) : s.refusesLocked h (s.writePackage h a v) := by
  have hrwl := State.rwl_refusesLocked hready hlocked h
  unfold State.writePackage
  split
  · exact hrwl _ _
  · split
    · exact hrwl _ _
    · exact hrwl _ _

theorem State.writeByType_refusesLocked (h : Nat) (mgmt : Bool) {a : RegAddr} (v : Word) (ha : (regRow a.reg).access = .RWL) :
    s.refusesLocked h (s.writeByType h mgmt a v) := by
  unfold State.writeByType
  rw [ha]
  exact State.rwl_refusesLocked hready hlocked _ _ _

/-- R251: every RWL register refuses a locked write. A register with an effect of its own either is not RWL or has its effect under the lock. -/
theorem State.writeReg_refusesLocked (h : Nat) (mgmt : Bool) {a : RegAddr} (v : Word) (ha : (regRow a.reg).access = .RWL) :
    s.refusesLocked h (s.writeReg h mgmt a v) := by
  have hrwl := State.rwl_refusesLocked hready hlocked h
  have hother {r : Reg} {P : Prop} (e : a.reg = r) (hr : (regRow r).access ≠ .RWL) : P := absurd ha (e ▸ hr)
  unfold State.writeReg State.writeNoticeRing State.writeSqCfg State.writeCqCfg State.writeRegion State.writeBinding State.writeCamera
    State.writePoints State.writeBev State.prismEnable State.writeMirror
  split
  · exact State.writePackage_refusesLocked hready hlocked h a v
  · split
    -- HIF_SETUP_LOCK, HIF_SQ_RESTART, MSIX_TABLE, CORE_FIT_CLEAR and MGT_MBX_CTRL are not RWL
    case h_1 | h_11 | h_12 | h_13 | h_22 => rename_i e; exact hother e (by decide)
    case h_16 => exact State.writeStream_refusesLocked hready hlocked h _ v
    case h_23 => exact State.writeByType_refusesLocked hready hlocked h mgmt v ha
    -- the set-up registers with an effect of their own
    all_goals exact hrwl _ _

/-- R251: so does every aligned host write that lands on an RWL register. -/
theorem State.registerWrite_refusesLocked {h o : Nat} {a : RegAddr} (v : Word) (ho : o % 4 = 0) (hdecode : decodeBar0 h o = .reg a)
    (ha : (regRow a.reg).access = .RWL) : s.refusesLocked h (s.registerWrite false h o v) := by
  have hwrite : s.registerWrite false h o v = s.writeReg h false a v := by simp [State.registerWrite, ho, hready, hdecode]
  rw [hwrite]
  exact State.writeReg_refusesLocked hready hlocked h false v ha

end

/-! ### The lock left alone -/

/-- The lock is as before. -/
def State.sameLock (s t : State) : Prop := t.hif.locked = s.hif.locked

@[simp] theorem State.sameLock_iff (s t : State) : s.sameLock t ↔ t.hif.locked = s.hif.locked := Iff.rfl

@[simp] theorem ite_locked (c : Prop) [Decidable c] (s t : State) :
    (if c then s else t).hif.locked = if c then s.hif.locked else t.hif.locked := apply_ite (fun s : State => s.hif.locked) c s t

/-- A fold keeps the lock when each of its steps does. -/
@[simp] theorem foldl_locked {α : Type} (f : State → α → State) (l : List α) (s : State) (hf : ∀ (s : State) (a : α), s.sameLock (f s a)) :
    (l.foldl f s).hif.locked = s.hif.locked := by
  induction l generalizing s with
  | nil => rfl
  | cons a l ih => exact (ih (f s a)).trans (hf s a)

/-! Updates of one other part, by name as for the one-time programmable bits. -/

theorem State.withRegs_locked (s : State) (r : Tbl Word) : { s with regs := r }.hif.locked = s.hif.locked := rfl
theorem State.withRecovery_locked (s : State) (r : RecoveryState) : { s with recovery := r }.hif.locked = s.hif.locked := rfl

/-! #### Ops -/

@[simp] theorem State.raise_locked (s : State) (b : Block) (i n m : Nat) : (s.raise b i n m).hif.locked = s.hif.locked :=
  (s.raise_rings b i n m).2.2.2.2
@[simp] theorem State.log_locked (s : State) (ev : Event) (die : Nat) (detail : List Nat) : (s.log ev die detail).hif.locked = s.hif.locked := by
  simp [State.log]
@[simp] theorem State.markPoison_locked (s : State) (a n : Nat) (p : Bool) : (s.markPoison a n p).hif.locked = s.hif.locked := by
  simp [State.markPoison]

@[simp] theorem writeBlocks_locked (s : State) (a : Nat) (bs : List Byte) (n : Nat) : (writeBlocks s a bs n).hif.locked = s.hif.locked := by
  induction n generalizing s a bs with
  | zero => rfl
  | succ n ih => unfold writeBlocks; split <;> simp [ih]

@[simp] theorem State.writeMem_locked (s : State) (a : Nat) (bs : List Byte) (p : Bool) : (s.writeMem a bs p).hif.locked = s.hif.locked := by
  simp [State.writeMem]
@[simp] theorem State.modLink_locked (s : State) (h : Nat) (f : LinkState → LinkState) : (s.modLink h f).hif.locked = s.hif.locked := rfl

/-! #### CacheOps and GraphOps -/

@[simp] theorem State.catError_locked (s : State) (d bit h : Nat) : (s.catError d bit h).hif.locked = s.hif.locked := by simp [State.catError]
@[simp] theorem State.setCache_locked (s : State) (c : ShelfCache) : (s.setCache c).hif.locked = s.hif.locked := by simp [State.setCache]
@[simp] theorem State.unpin_locked (s : State) (hs : List Nat) : (s.unpin hs).hif.locked = s.hif.locked := by
  unfold State.unpin; split <;> simp
@[simp] theorem State.withhold_locked (s : State) (g f code : Nat) : (s.withhold g f code).hif.locked = s.hif.locked := by
  unfold State.withhold; split <;> simp

/-! #### Sequencer, HostOps and CoreEvents -/

@[simp] theorem State.raiseVersion_locked (s : State) (home g b : Nat) (rel : State → State) (what : VersionThen)
    (hr : ∀ s : State, s.sameLock (rel s)) : (s.raiseVersion home g b rel what).hif.locked = s.hif.locked := by
  simp only [State.sameLock_iff] at hr
  unfold State.raiseVersion
  dsimp only
  split <;> simp [hr]

@[simp] theorem State.modSq_locked (s : State) (link q : Nat) (f : SqState → SqState) : (s.modSq link q f).hif.locked = s.hif.locked := rfl
@[simp] theorem State.modCq_locked (s : State) (link q : Nat) (f : CqState → CqState) : (s.modCq link q f).hif.locked = s.hif.locked := rfl
@[simp] theorem State.settleSq_locked (s : State) (link sq : Nat) : (s.settleSq link sq).hif.locked = s.hif.locked := by simp [State.settleSq]
@[simp] theorem State.complete_locked (s : State) (c : Completion) : (s.complete c).hif.locked = s.hif.locked := by simp [State.complete]
@[simp] theorem State.finish_locked (s : State) (p : Packet) (status : Nat) (result payload : List Byte) :
    (s.finish p status result payload).hif.locked = s.hif.locked := by simp [State.finish]
@[simp] theorem State.zeroStore_locked (s : State) (base : Nat) : (s.zeroStore base).hif.locked = s.hif.locked := rfl
@[simp] theorem State.resetCore_locked (s : State) (c : Nat) : (s.resetCore c).hif.locked = s.hif.locked := by simp [State.resetCore]

/-! #### Placement, CacheEngine and Graph -/

@[simp] theorem installStation_locked (g : Nat) (s : State) (x : Card × Place × (List (BitVec 128) × List (BitVec 128)) × Nat) :
    (installStation g s x).hif.locked = s.hif.locked := by simp [installStation]

@[simp] theorem copyWeights_locked (m : Img) (b : Bundle) (s : State) (x : Card × Place) : (copyWeights m b s x).hif.locked = s.hif.locked := by
  unfold copyWeights
  dsimp only
  split
  · split
    · rw [State.writeMem_locked]
    · rfl
  · rfl

@[simp] theorem resetStateBuffer_locked (m : Img) (s : State) (g bi : Nat) : (resetStateBuffer m s g bi).hif.locked = s.hif.locked := by
  unfold resetStateBuffer; split <;> simp
@[simp] theorem losePools_locked (s : State) (d : Nat) (alive : Nat → Bool) : (losePools s d alive).hif.locked = s.hif.locked := by
  simp [losePools]
@[simp] theorem State.putDone_locked (s : State) (id : Nat) : (s.putDone id).hif.locked = s.hif.locked := by
  unfold State.putDone; split <;> simp
@[simp] theorem State.releaseVersion_locked (s : State) (t : VersionThen) : (s.releaseVersion t).hif.locked = s.hif.locked := by
  unfold State.releaseVersion; split <;> simp [State.sendToken]

/-! #### Hbm -/

@[simp] theorem rehome_locked (g : Nat) (s : State) (bi : Nat) : (rehome g s bi).hif.locked = s.hif.locked := by
  unfold rehome; dsimp only; (repeat' split) <;> simp
@[simp] theorem loseBuffers_locked (lo hi : Nat) (s : State) (gr : Graph) : (loseBuffers lo hi s gr).hif.locked = s.hif.locked := by
  simp [loseBuffers]
@[simp] theorem State.loseMap_locked (s : State) (h : Nat) : (s.loseMap h).hif.locked = s.hif.locked := by simp [State.loseMap]
@[simp] theorem State.loseMaps_locked (s : State) (lo hi : Nat) : (s.loseMaps lo hi).hif.locked = s.hif.locked := by simp [State.loseMaps]
@[simp] theorem State.loseRange_locked (s : State) (lo hi die : Nat) : (s.loseRange lo hi die).hif.locked = s.hif.locked := by
  simp [State.loseRange]

/-! #### Fences -/

@[simp] theorem State.withholdGraph_locked (s : State) (g : Nat) : (s.withholdGraph g).hif.locked = s.hif.locked := by
  unfold State.withholdGraph; split <;> simp
@[simp] theorem State.withholdWhere_locked (s : State) (p : Graph → Bool) : (s.withholdWhere p).hif.locked = s.hif.locked := by
  simp [State.withholdWhere]
@[simp] theorem State.fenceLink_locked (s : State) (d p : Nat) : (s.fenceLink d p).hif.locked = s.hif.locked := by
  unfold State.fenceLink; split <;> simp
@[simp] theorem State.forgetDie_locked (s : State) (d : Nat) : (s.forgetDie d).hif.locked = s.hif.locked := by simp [State.forgetDie]
@[simp] theorem State.fenceDieParts_locked (s : State) (d : Nat) : (s.fenceDieParts d).hif.locked = s.hif.locked := by
  simp [State.fenceDieParts]
@[simp] theorem State.moveState_locked (s : State) (g bi a : Nat) : (s.moveState g bi a).hif.locked = s.hif.locked := by
  unfold State.moveState; split <;> simp
@[simp] theorem moveStationState_locked (m : Img) (g : Nat) (s : State) (x : Card × Place) :
    (moveStationState m g s x).hif.locked = s.hif.locked := by
  unfold moveStationState; (repeat' split) <;> simp
@[simp] theorem State.moveStations_locked (s : State) (g : Nat) (places : List Place) : (s.moveStations g places).hif.locked = s.hif.locked := by
  unfold State.moveStations; split <;> simp
@[simp] theorem foldGraph_locked (s : State) (x : Nat × List Place × Bool) : (foldGraph s x).hif.locked = s.hif.locked := by
  unfold foldGraph; split <;> simp
@[simp] theorem State.startFold_locked (s : State) : s.startFold.hif.locked = s.hif.locked := by simp [State.startFold, State.setRoutes]
@[simp] theorem State.fenceUnit_locked (s : State) (u : FenceUnit) : (s.fenceUnit u).hif.locked = s.hif.locked := by
  unfold State.fenceUnit; (repeat' split) <;> simp [State.markFenced]

@[simp] theorem State.resetDie_locked (s : State) (d : Nat) : (s.resetDie d).hif.locked = s.hif.locked := by
  unfold State.resetDie
  dsimp only
  rw [State.withRecovery_locked, foldl_locked, State.modMc_hif, State.modRc_hif, State.setCache_locked, State.withRegs_locked,
    State.zeroStore_locked, State.zeroStore_locked]
  · simp
  · intro s p
    (repeat' split) <;> simp

/-! #### Intake -/

@[simp] theorem State.logPlaceholder_locked (s : State) (h u kind : Nat) : (s.logPlaceholder h u kind).hif.locked = s.hif.locked := by
  simp [State.logPlaceholder, State.modStreamSt]
@[simp] theorem State.fillQueued_locked (s : State) (frames edges : List (Nat × Nat)) : (s.fillQueued frames edges).hif.locked = s.hif.locked := by
  simp [State.fillQueued]
@[simp] theorem State.reportBegin_locked (s : State) (h id : Nat) : (s.reportBegin h id).hif.locked = s.hif.locked := by
  unfold State.reportBegin; split <;> simp
@[simp] theorem State.reportEnd_locked (s : State) (h : Nat) (x : Sample) (kind : Kind) : (s.reportEnd h x kind).hif.locked = s.hif.locked := rfl
@[simp] theorem State.endLast_locked (s : State) (h id : Nat) : (s.endLast h id).hif.locked = s.hif.locked := by
  unfold State.endLast; (repeat' split) <;> simp [State.modSample]
@[simp] theorem State.place_locked (s : State) (h id : Nat) (kind : Kind) (wait : Bool) : (s.place h id kind wait).hif.locked = s.hif.locked := by
  unfold State.place; (repeat' split) <;> simp [State.modSample, State.modStreamSt]
@[simp] theorem State.endWait_locked (s : State) (h id : Nat) : (s.endWait h id).hif.locked = s.hif.locked := by
  unfold State.endWait; split <;> simp [State.modSample]

/-! #### FaultPins, Update and Links -/

@[simp] theorem State.assertFault_locked (s : State) (l cause graph : Nat) : (s.assertFault l cause graph).hif.locked = s.hif.locked := by
  simp [State.assertFault, State.lanRecord]
@[simp] theorem State.startDie_locked (s : State) (d : Nat) : (s.startDie d).hif.locked = s.hif.locked := by
  unfold State.startDie; split <;> simp
@[simp] theorem State.dieReset_locked (s : State) (d : Fin 4) : (s.dieReset d).hif.locked = s.hif.locked := by simp [State.dieReset]

@[simp] theorem State.loseHostSamples_locked (s : State) (h : Nat) : (s.loseHostSamples h).hif.locked = s.hif.locked := by
  unfold State.loseHostSamples
  refine foldl_locked _ _ _ fun s a => ?_
  split <;> simp

@[simp] theorem State.newEpoch_locked (s : State) (l : Nat) : (s.newEpoch l).hif.locked = s.hif.locked := by simp [State.newEpoch]
@[simp] theorem State.flr_locked (s : State) (l : Nat) : (s.flr l).hif.locked = s.hif.locked := by simp [State.flr]

/-! ### The package resets, which end the lock (R418, R424) -/

theorem State.warmAssert_locked (s : State) (hphase : s.recovery.phase = .warmRequested) (hdelay : s.recovery.requestedAt + 1000 ≤ s.now)
    (hdown : s.recovery.down = []) : s.warmAssert.hif.locked = false := by
  rw [State.warmAssert, if_pos ⟨hphase, hdelay, hdown⟩]
  rfl

/-- The FAULT pins of a power-on reset leave the lock off. -/
theorem State.porstAssert_locked (s : State) (h : s.pins.porst = true) : s.porstAssert.hif.locked = false := by
  rw [State.porstAssert, if_neg (not_not_intro h), foldl_locked _ _ _ fun s l => s.assertFault_locked l _ _]
  rfl

/-! ### The set-up lock -/

/-- Settles O1: the magic value alone locks, both links show it, every RWL register refuses a locked write, FLR and die resets leave the lock, and a
warm package reset and a power-on reset end it. -/
theorem setupLockHolds : Obligations.setupLockHolds := by
  unfold Obligations.setupLockHolds
  refine ⟨fun h v s hready => ⟨?magic, ?other⟩, fun h s => s.hifStatus_locked h, ?refused, fun l s => ⟨_, rfl, ?flr⟩,
    fun d s => ⟨_, rfl, s.dieReset_locked d⟩, fun s hphase hdelay hdown => ⟨_, rfl, s.warmAssert_locked hphase hdelay hdown⟩,
    fun s hporst => ⟨_, rfl, s.porstAssert_locked hporst⟩⟩
  case magic =>
    rintro rfl
    exact congrArg Host.Outcome.next (s.setupLock_magic hready)
  case other => exact fun hv => congrArg Host.Outcome.next (s.setupLock_other hv)
  case refused =>
    intro h o v a s hready hlocked ho hdecode haccess
    obtain ⟨k, hk⟩ := State.registerWrite_refusesLocked hready hlocked v ho hdecode haccess
    exact ⟨k, congrArg Host.Outcome.next hk⟩
  case flr => rw [ite_locked, s.flr_locked, ite_self]

end Sys2Proof.Machine
end
